-- ==== Sys2Proof/Word.lean ====
section
/-! DEFINITION. The plain word types of the 7208 and the byte views of a word (R6, R7).

Bit vectors are used for what the manual treats as bits: register contents, instruction
fields, descriptors, encoded numbers.  Unit numbers, counts and addresses as keys are `Nat`. -/

namespace Sys2Proof

/-- One byte (R7). -/
abbrev Byte := BitVec 8

/-- A 32-bit word: an element, a flint code, a completion status. -/
abbrev W32 := BitVec 32

/-- A 64-bit word: a scalar register, a hardware register, a completion result. -/
abbrev W64 := BitVec 64

/-- A sparse table: pairs of a key and a value, keys strictly rising. -/
abbrev Tab (α : Type) := List (Nat × α)

end Sys2Proof
end

