-- ==== Sys2Proof/Syntax.lean ====
section
/-! DEFINITION. The commands of the block: one constructor of `Instr` for each row of
spec/opcode_table.json, in the table's order, with the row's operands.

Three kinds of row share an operand form:
* a rill instruction (R92 to R108) carries an `Issue`: the thread that issues it and the
  fields of the instruction word that its class and OP leave open;
* a WCP command (R535, R539) carries the function that sent it and its 64-byte descriptor;
* an event carries the numbers of the units it happens to and what the outside world
  decides about it (a measured value, the bytes of a packet, whether a self-check passed). -/

namespace Sys2Proof

/-- The issue of one 64-bit rill instruction (R92) by a thread.  CLASS and OP are the row's. -/
structure Issue where
  /-- Partition of the thread's context, 0 to 15. -/
  part : Nat
  /-- Context number within the partition (R120). -/
  ctx : Nat
  /-- Thread number within the context (R84). -/
  thr : Nat
  /-- PN, bit 51: negates the guard. -/
  pn : Bool
  /-- PG, bits 50 to 48: guard predicate. -/
  pg : BitVec 3
  rd : BitVec 5
  ra : BitVec 5
  rb : BitVec 5
  /-- I, bit 32. -/
  i : Bool
  imm : BitVec 32
  deriving DecidableEq, Repr

/-- Who read a poisoned scratchpad lane (the rows of R241). -/
inductive LaneReader where
  /-- A thread's load, sub-lane store or atomic, or the issue-time read of an FT descriptor. -/
  | thread (part ctx thr : Nat)
  /-- A feeder of the array. -/
  | feeder
  /-- The vector engine, at the beat given. -/
  | vector (beat : Nat)
  /-- Data of an FT operation leaving the scratchpad: its context, slot and parcel. -/
  | ftOut (part ctx slot parcel : Nat)
  /-- A host read through the window. -/
  | host
  /-- The save copy of a context. -/
  | save (part ctx : Nat)
  /-- The scrubber. -/
  | scrub
  deriving DecidableEq, Repr

/-- Who read an uncorrectable accumulator entry (R181, ACC_UNCORRECTED). -/
inductive AccReader where
  | stationaryLoad
  | vector (beat : Nat)
  | save
  deriving DecidableEq, Repr

/-- What a read of a memory found (R336, R344). -/
inductive EccResult where
  | clean
  | corrected
  | ondieCorrected
  | uncorrected
  deriving DecidableEq, Repr

/-- A port's neighbour as its identity record shows it (R453). -/
structure NeighbourRecord where
  fabricId : BitVec 32
  chip : BitVec 16
  x : Nat
  y : Nat
  z : Nat
  spare : Bool
  port : Nat
  moduleId : BitVec 64
  wcp : BitVec 16
  /-- The neighbour is WITHDRAWN (R455). -/
  withdrawn : Bool
  /-- Round-trip time in ns. -/
  rtt : Nat
  deriving DecidableEq, Repr

/-- A flit as it reaches a port (R456): the fields a router acts on, and its body. -/
structure Flit where
  seq : Nat
  kind : Nat
  ack : Nat
  nak : Bool
  vc : Nat
  poison : Bool
  last : Bool
  /-- CVC, or ORIG_PORT of a replay flit. -/
  orig : Nat
  /-- CREDITS, or ORIG_SEQ of a replay flit. -/
  credits : Nat
  body : List Byte
  /-- The LCRC of bytes 268 to 271. -/
  lcrc : BitVec 32
  deriving DecidableEq, Repr

/-- A COLL packet as it is delivered to the slice (R495): source chip, ARGS and address, with
the parcels of its data flits and whether every seal passed (R499). -/
structure CollPacket where
  src : BitVec 16
  addr : BitVec 64
  gid : BitVec 16
  opseq : BitVec 16
  pace : Bool
  attempt : BitVec 8
  data : List Byte
  sealOk : Bool
  deriving DecidableEq, Repr

/-- A management frame that reached the port (R584), with what its checks found. -/
inductive FrameDrop where
  | badFcs
  | runtOrLong
  | foreign
  | beacon
  | unauth
  deriving DecidableEq, Repr

/-- An identity event of a handshake (R585). -/
inductive HandshakeMsg where
  /-- GET_VERSION to the message before KEY_EXCHANGE. -/
  | begin
  /-- KEY_EXCHANGE with the SHA-256 digest of the requester's root certificate. -/
  | keyExchange (root : BitVec 256)
  /-- FINISH; whether it authenticated. -/
  | finish (ok : Bool)
  deriving DecidableEq, Repr

/-- What a DDR5 connector finds in stage 6 (R341 to R343): the connector, whether the module is of a supported kind, whether
its training and test pass, whether it has ECC bits, the speed that it trains to (0: 5600, 1: 6400, 2: 7200, 3: 8000
MT/s), and its capacity in GB. -/
structure Spd where
  conn : Nat
  supported : Bool
  trained : Bool
  ecc : Bool
  speed : Nat
  gb : Nat
  deriving DecidableEq, Repr

/-- The commands of the block. -/
inductive Instr where
  -- Scalar class (R95, R96)
  | nop (x : Issue) (cls : BitVec 4) (op : BitVec 8)
  | add (x : Issue)
  | sub (x : Issue)
  | mul (x : Issue)
  | mulhu (x : Issue)
  | mulh (x : Issue)
  | divu (x : Issue)
  | remu (x : Issue)
  | and (x : Issue)
  | or (x : Issue)
  | xor (x : Issue)
  | shl (x : Issue)
  | shr (x : Issue)
  | sra (x : Issue)
  | min (x : Issue)
  | max (x : Issue)
  | li (x : Issue)
  | lih (x : Issue)
  | sel (x : Issue)
  | setpEq (x : Issue)
  | setpNe (x : Issue)
  | setpLt (x : Issue)
  | setpLtu (x : Issue)
  | setpLe (x : Issue)
  | setpLeu (x : Issue)
  | pand (x : Issue)
  | por (x : Issue)
  | pxor (x : Issue)
  | pnot (x : Issue)
  | br (x : Issue)
  | jal (x : Issue)
  | jr (x : Issue)
  | rdsr (x : Issue)
  | icacheFill (part ctx thr : Nat)
  -- Scratchpad class (R97); `free`: the bank took the access in its issue cycle
  | ldB (x : Issue) (free : Bool)
  | ldH (x : Issue) (free : Bool)
  | ldW (x : Issue) (free : Bool)
  | ldD (x : Issue) (free : Bool)
  | ldBs (x : Issue) (free : Bool)
  | ldHs (x : Issue) (free : Bool)
  | ldWs (x : Issue) (free : Bool)
  | stB (x : Issue) (free : Bool)
  | stH (x : Issue) (free : Bool)
  | stW (x : Issue) (free : Bool)
  | stD (x : Issue) (free : Bool)
  | atomAddW (x : Issue) (free : Bool)
  | atomAddD (x : Issue) (free : Bool)
  | atomAddF (x : Issue) (free : Bool)
  | atomSwapW (x : Issue) (free : Bool)
  | atomSwapD (x : Issue) (free : Bool)
  | lsBankGrant (rill bank : Nat)
  -- Matrix class (R100) and the array's events
  | mxCfg (x : Issue)
  | mxLoad (x : Issue)
  | mxStream (x : Issue)
  | mxInit (x : Issue)
  | mxAcquire (x : Issue)
  | mxRelease (x : Issue)
  | mxPassStart (rill : Nat)
  | passCommitted (rill : Nat)
  | arrayStopRequest (rill stepsDone : Nat)
  | arraySelfCheckDone (rill : Nat) (passed : Bool)
  | cellCorrected (rill : Nat) (cause : BitVec 8)
  | cellUncorrected (rill : Nat)
  | feederUncorrected (rill : Nat)
  | accUncorrected (rill set entry : Nat) (reader : AccReader)
  -- Vector class (R102) and the engine's events
  | vxEw (x : Issue)
  | vxFma (x : Issue)
  | vxCvt (x : Issue)
  | vxRed (x : Issue)
  | vxCompress (x : Issue)
  | vxExpand (x : Issue)
  | vxRng (x : Issue)
  | vxOpt (x : Issue)
  | vxStart (rill : Nat)
  | vxComplete (rill : Nat)
  | vxStopRequest (part ctx : Nat)
  | vxSelfCheckDone (rill : Nat) (passed : Bool)
  | laneUncorrected (rill : Nat) (cause : BitVec 8) (beat : Nat)
  -- Fetch and put class (R104)
  | ftGet (x : Issue)
  | ftPut (x : Issue)
  | ftAddw (x : Issue)
  | ftAmoAdd (x : Issue)
  | ftAmoSwap (x : Issue)
  /-- A reply under a tag (R120) of the chip given: its status, return value and data.  `sealBad` names
  the parcels whose first copy failed its seal on entry, and whether the second copy failed too (R239); under status POISON, the parcels that came
  poisoned (R359). -/
  | ftCompletion (tag : BitVec 32) (status : BitVec 32) (value : BitVec 64) (data : List Byte)
      (sealBad : List (Nat × Bool))
  | remoteTimeout (part ctx slot : Nat)
  -- Sync class (R108)
  | syFence (x : Issue)
  | syWait (x : Issue)
  | sySlot (x : Issue)
  | syBar (x : Issue)
  | sySteal (x : Issue)
  | syYield (x : Issue)
  | syHalt (x : Issue)
  | tileHandover (part ctx thr : Nat)
  | tileListRefill (part launch rill : Nat)
  | frqOverflowMove (cascade : Nat)
  | regCorrected (rill : Nat)
  | regUncorrected (rill : Nat)
  | scratchpadUncorrected (rill off : Nat) (reader : LaneReader)
  | scratchpadCorrected (rill off : Nat) (byScrubber : Bool)
  | bankReplaced (rill bank : Nat)
  | scrubRead (rill bank : Nat)
  | regionZeroed (part ctx : Nat)
  -- Streams (R277 to R284)
  | streamOpen (fn : Nat) (d : BitVec 512)
  | streamClose (fn : Nat) (d : BitVec 512)
  | streamUpdate (fn : Nat) (d : BitVec 512)
  | streamQuery (fn : Nat) (d : BitVec 512)
  | streamCacheFill (cascade stream : Nat)
  | entryUncorrected (stream : Nat) (copyOf : Option Nat)
  | stFlush
  -- Partitions, launches, contexts
  | partitionCreate (fn : Nat) (d : BitVec 512)
  | partitionResize (fn : Nat) (d : BitVec 512)
  | partitionDestroy (fn : Nat) (d : BitVec 512)
  | partitionQuery (fn : Nat) (d : BitVec 512)
  | resizeComplete (part : Nat)
  | graphLoad (fn : Nat) (d : BitVec 512)
  | graphLaunch (fn : Nat) (d : BitVec 512)
  | graphPreempt (fn : Nat) (d : BitVec 512)
  | scheduleTableSet (fn : Nat) (d : BitVec 512)
  | stepFence (fn : Nat) (d : BitVec 512)
  | launchStepBoundary (part launch : Nat)
  | phaseRelease (part launch : Nat)
  | gateCheck (part launch : Nat)
  | slotStart (part : Nat)
  | scheduleTableEffect (part : Nat)
  | contextStopRequest (part ctx latency : Nat)
  | contextSaveComplete (part ctx : Nat)
  | contextRestore (rill : Nat)
  | contextRestoreComplete (part ctx : Nat)
  | blockedSwap (rill : Nat)
  | dequeUncorrected (part launch rill : Nat)
  | locationUncorrected (part ctx : Nat)
  | rlOutOfService (rill : Nat) (value : BitVec 64)
  -- Memory tiers
  | hbmSelfRefreshEntry (stack : Nat)
  | hbmScrubRead (stack off : Nat) (r : EccResult)
  | hbmUncorrected (stack off : Nat)
  | hbmRowRepair (stack off : Nat) (spareLeft : Bool)
  | ddrScrubRead (conn off : Nat) (r : EccResult)
  | ddrUncorrected (conn off : Nat)
  | flashSectorWriteDone (page sector : Nat) (data : List Byte)
  | flashUncorrected (page sector : Nat)
  | disturbRefresh (slice block : Nat)
  | flashPatrol (slice block : Nat) (weak : Bool)
  | blockRetired (slice block : Nat)
  | poolCacheFill (part addr : Nat)
  | pcAddw (tag : BitVec 32) (parcel : Nat)
  | pcAmo (tag : BitVec 32)
  | pcFlush (part off len : Nat)
  | pcScrub (addr : Nat) (r : EccResult)
  | pcUncorrected (addr : Nat)
  | hostWindowRead (addr len : Nat)
  | hostWindowWrite (addr : Nat) (data : List Byte)
  -- Sluice
  | objectDeclare (fn : Nat) (d : BitVec 512)
  | objectFree (fn : Nat) (d : BitVec 512)
  | objectHint (fn : Nat) (d : BitVec 512)
  | objectMove (fn : Nat) (d : BitVec 512)
  | objectQuery (fn : Nat) (d : BitVec 512)
  | quotaSet (fn : Nat) (d : BitVec 512)
  | imageLoad (fn : Nat) (d : BitVec 512)
  | imageFetchPeer (fn : Nat) (d : BitVec 512)
  | imageBroadcast (fn : Nat) (d : BitVec 512)
  /-- Record `k` of the running image command on an object arrives: its 260 bytes, and the second copy
  read when the first one fails its seal (R399). -/
  | imageRecord (part obj k : Nat) (record : List Byte) (second : List Byte)
  | peerTimeout (part obj : Nat)
  | broadcastAbort (part obj : Nat)
  | translationMissFill (die part off : Nat)
  | pageFirstAllocation (part off : Nat)
  | pageStagingDone (part off : Nat)
  | pageWriteBackDone (part off : Nat)
  | pageMove (part off : Nat)
  | pageMoveDone (part off : Nat)
  | backgroundReclaim (part tier : Nat)
  | quotaStarved (part ctx slot : Nat)
  -- Training support
  | bucketConfig (fn : Nat) (d : BitVec 512)
  | normsRead (fn : Nat) (d : BitVec 512)
  | rngKeySet (fn : Nat) (d : BitVec 512)
  | bucketClose (part bucket : Nat)
  | bucketFlushed (part bucket : Nat)
  | bucketReduced (part bucket : Nat)
  | rangePermute (part launch range : Nat)
  -- Grestlink
  | signalDetect (port : Nat)
  | trainingComplete (port : Nat) (lanes : BitVec 4)
  | trainingRetry (port : Nat)
  | identityRecord (port : Nat) (nb : NeighbourRecord)
  | portRetrain (port : Nat)
  | failedPortRetrain (port : Nat)
  | flitReceive (port : Nat) (f : Flit)
  | ackTimer (port : Nat)
  | replayTimeout (port : Nat)
  | laneFailed (port lane : Nat)
  | portDown (port : Nat)
  | iplSpared (link : Nat)
  | replayFlit (port : Nat) (f : Flit)
  | replayRecordExpiry (port : Nat)
  | truncated (router port : Nat)
  | packetRoute (router : Nat) (hdr : BitVec 256)
  | remoteRequest (router : Nat) (hdr : BitVec 256) (data : List Byte)
  | tbSync (parentTb : Nat) (valid : Bool)
  | fabricDiscover (fn : Nat) (d : BitVec 512)
  | fabricAssign (fn : Nat) (d : BitVec 512)
  | fabricRouteSet (fn : Nat) (d : BitVec 512)
  | fabricSpareEnable (fn : Nat) (d : BitVec 512)
  -- Collective engine
  | collGroupCreate (fn : Nat) (d : BitVec 512)
  | collLaunch (fn : Nat) (d : BitVec 512)
  | collReshard (fn : Nat) (d : BitVec 512)
  | collAbort (fn : Nat) (d : BitVec 512)
  | handoverBegin (fn : Nat) (d : BitVec 512)
  | contrib (p : CollPacket)
  | result (p : CollPacket)
  | data (p : CollPacket)
  | ack (p : CollPacket) (of : Nat)
  | abort (p : CollPacket)
  | collResend (part : Nat) (gid opseq : BitVec 16) (seq : Nat)
  | stalled (part : Nat) (gid opseq : BitVec 16)
  -- PCI Express and mailboxes
  | pcieLinkTrained (speed width : Nat) (flit : Bool)
  | flrVf (f : Nat)
  | flrPf0
  | hotReset
  | perstN (level : Bool)
  | hostReadTimeout (fn : Nat) (tag : BitVec 32)
  | mbBankWrite (fn off : Nat) (data : List Byte) (poisoned : Bool)
  | mbDoorbell (fn : Nat) (value : BitVec 64)
  /-- The Wellhead takes the next descriptor; `ecc` is what reading its words found, and `tagLost`
  says that the word holding TAG is the one that failed (R531). -/
  | descriptorTake (ecc : EccResult) (tagLost : Bool)
  | mbCqHead (fn : Nat) (value : BitVec 64)
  | coalesceTimer (fn : Nat)
  | cqWriteRetry (fn : Nat) (ok : Bool)
  | spdmPlain (fn : Nat) (d : BitVec 512)
  | spdmSecured (fn : Nat) (d : BitVec 512)
  -- Boot and Grotto
  | powerOnReset
  | crystalWindow (count : Nat)
  | xtalFail
  | romBoot (pufOk : Bool)
  | bootRailsUp
  | sysrefLock
  | sysrefWait
  | pllFail (domain : Nat)
  | bootTrainingDone (hbm : BitVec 8) (spds : List Spd)
  | wellheadStart
  | bootRelease
  /-- `norOk`: every program and erase of the NOR flash that the command makes succeeds (R593). -/
  | slateWrite (fn : Nat) (d : BitVec 512) (norOk : Bool)
  | fwStage (fn : Nat) (d : BitVec 512) (norOk : Bool)
  | fwActivate (fn : Nat) (d : BitVec 512)
  | fwTrialTimer (advanced : Bool)
  | romWatchdog
  /-- The sensor readings of one millisecond, by sensor index; an absent index is an absent sensor. -/
  | sensorSample (values : List (Nat × BitVec 32))
  | logNorCopy (upTo : Nat)
  | discover
  | spdmHandshake (slot : Nat) (m : HandshakeMsg)
  | secured (session : Nat) (plain : List Byte)
  | t1sFrameDropped (why : FrameDrop)
  | beaconTimer
  | beaconNow
  | sessionFail (slot : Nat)
  | sessionIdle (session : Nat)
  | plcaLost
  | plcaBeacon
  | identify (value : BitVec 64)
  | identifyExpiry
  | sramUncorrected
  -- Clocks, power, recovery
  | droop (terrace : Nat)
  | stretchEnd (terrace : Nat)
  | oppStep (terrace : Nat)
  | powerCapLoop (meanMw : Nat)
  | inputMonitor (meanMw : Nat)
  | heartbeat
  | heartbeatSlotCheck
  | computeReset
  | serviceResume (reload : Bool)
  | cascadeReset (cascade : Nat)
  | cascadeSelfCheckDone (rill : Nat) (passed : Bool)
  | recovered (durationNs affected : Nat)
  | dayRecordClose
  | powerCapSet (fn : Nat) (d : BitVec 512)
  | oppSet (fn : Nat) (d : BitVec 512)
  | droopConfig (fn : Nat) (d : BitVec 512)
  | resetCompute (fn : Nat) (d : BitVec 512)
  | resetCascade (fn : Nat) (d : BitVec 512)
  | serviceReturn (fn : Nat) (d : BitVec 512)
  | vinUndervoltage
  | vinOvervoltage
  | overcurrent
  | overcurrentRetry (tripsAgain : Bool)
  | modRstN (lowUs : Nat)
  -- Counters, sampling, dumps
  | countersRead (fn : Nat) (d : BitVec 512)
  | sampleConfig (fn : Nat) (d : BitVec 512)
  | dumpRead (fn : Nat) (d : BitVec 512)
  | logRead (fn : Nat) (d : BitVec 512)
  /-- `full`: the sample buffer of the base die is full (R652). -/
  | pcSample (rill part : Nat) (global : Bool) (freeze stall : BitVec 3) (full : Bool)
  | counterSnapshot (part : Nat) (global : Bool)
  | registerReadClear (fn addr : Nat)
  | registerWrite (fn addr : Nat) (value : BitVec 64)
  | trainingFailure (port : Nat)
  | clockSourceFailed (source : Nat)
  | escalationWindowClose
  | contextNumberFree (part ctx : Nat)
  | staticDataMove (slice block : Nat)
  | vfEnable (enable : Bool) (numVfs : Nat)
  | idLedNExpiry
  | l0p (entered : Bool) (width : Nat)
  deriving DecidableEq, Repr

end Sys2Proof
end

