-- ==== Sys2Proof/Decode.lean ====
section
/-! DEFINITION. The decoder asked of a block: the command that a word spells by the table's bits.

No row of spec/opcode_table.json gives bits (the rows are commands, events and instructions of
programs that the rills run by themselves), so no word spells a command. -/

namespace Sys2Proof

/-- The command that the `nbits` bits `w` spell by the opcode table: none, for no row gives bits. -/
def decodeTableWord (_nbits _w : Nat) : Option Instr := none

end Sys2Proof
end

