-- ==== Sys2Proof/Machine/Causes.lean ====
section
/-! DEFINITION. Flint causes: severity, unit class and cause of every code of the tables R135, R181,
R227, R254, R290, R332, R370 to R372, R420, R484, R519, R561 to R563, R593 and R642. -/

namespace Sys2Proof.Machine

/-- Severity, unit class and cause of a flint code (R17). -/
structure Cause where
  sev : Nat
  unit : Nat
  code : Nat
  deriving DecidableEq, Repr

/-- The flint code of a cause at an instance (R17). -/
def Cause.flint (c : Cause) (inst : Nat) : BitVec 32 :=
  BitVec.ofNat 32 (c.sev * 2 ^ 28 + c.unit * 2 ^ 20 + inst % 4096 * 2 ^ 8 + c.code)

def kRlIllegalInstr : Cause := ⟨3, 0x01, 0x01⟩
def kRlIllegalOperand : Cause := ⟨3, 0x01, 0x02⟩
def kRlMisaligned : Cause := ⟨3, 0x01, 0x03⟩
def kRlRegion : Cause := ⟨3, 0x01, 0x04⟩
def kRlBadDescriptor : Cause := ⟨3, 0x01, 0x05⟩
def kRlFetch : Cause := ⟨3, 0x01, 0x06⟩
def kRlUnmapped : Cause := ⟨3, 0x01, 0x07⟩
def kRlRemoteRefused : Cause := ⟨3, 0x01, 0x08⟩
def kRlRemoteTimeout : Cause := ⟨3, 0x01, 0x09⟩
def kRlPoison : Cause := ⟨3, 0x01, 0x0A⟩
def kRlNotOwner : Cause := ⟨3, 0x01, 0x0B⟩
def kRlRegCorrected : Cause := ⟨1, 0x01, 0x10⟩
def kRlRegUncorrected : Cause := ⟨2, 0x01, 0x11⟩
def kArCellCorrected : Cause := ⟨1, 0x02, 0x01⟩
def kArFeederCorrected : Cause := ⟨1, 0x02, 0x02⟩
def kArAccCorrected : Cause := ⟨1, 0x02, 0x03⟩
def kArAccUncorrected : Cause := ⟨2, 0x02, 0x10⟩
def kArCellUncorrected : Cause := ⟨2, 0x02, 0x11⟩
def kArFeederUncorrected : Cause := ⟨2, 0x02, 0x12⟩
def kArArrayHard : Cause := ⟨2, 0x02, 0x13⟩
def kArArrayDisabled : Cause := ⟨2, 0x02, 0x14⟩
def kVxLaneCorrected : Cause := ⟨1, 0x03, 0x01⟩
def kVxBufferCorrected : Cause := ⟨1, 0x03, 0x02⟩
def kVxLaneUncorrected : Cause := ⟨2, 0x03, 0x10⟩
def kVxBufferUncorrected : Cause := ⟨2, 0x03, 0x11⟩
def kVxSpringUncorrected : Cause := ⟨2, 0x03, 0x12⟩
def kVxVectorHard : Cause := ⟨2, 0x03, 0x13⟩
def kVxVectorDisabled : Cause := ⟨2, 0x03, 0x14⟩
def kSpCorrected : Cause := ⟨1, 0x04, 0x01⟩
def kSpScrubCorrected : Cause := ⟨1, 0x04, 0x02⟩
def kSpBankReplaced : Cause := ⟨1, 0x04, 0x03⟩
def kSpUncorrected : Cause := ⟨2, 0x04, 0x10⟩
def kSpSealMismatch : Cause := ⟨2, 0x04, 0x11⟩
def kSpSpadHard : Cause := ⟨2, 0x04, 0x12⟩
def kStEntryCorrected : Cause := ⟨1, 0x11, 0x01⟩
def kStPositionLimit : Cause := ⟨0, 0x11, 0x02⟩
def kStStreamClosed : Cause := ⟨3, 0x11, 0x10⟩
def kStStreamForeign : Cause := ⟨3, 0x11, 0x11⟩
def kStKindMismatch : Cause := ⟨3, 0x11, 0x12⟩
def kStRankMismatch : Cause := ⟨3, 0x11, 0x13⟩
def kStStaleAdapter : Cause := ⟨3, 0x11, 0x14⟩
def kStStreamBroken : Cause := ⟨3, 0x11, 0x15⟩
def kStEntryUncorrected : Cause := ⟨3, 0x11, 0x16⟩
def kStNoEntry : Cause := ⟨3, 0x11, 0x20⟩
def kStNotOwner : Cause := ⟨3, 0x11, 0x21⟩
def kStBadField : Cause := ⟨3, 0x11, 0x22⟩
def kStNotOpen : Cause := ⟨3, 0x11, 0x23⟩
def kStLinked : Cause := ⟨3, 0x11, 0x24⟩
def kSwTableCorrected : Cause := ⟨1, 0x05, 0x01⟩
def kSwDequeUncorrected : Cause := ⟨2, 0x05, 0x10⟩
def kSwLocationUncorrected : Cause := ⟨3, 0x05, 0x11⟩
def kSwImagePoison : Cause := ⟨3, 0x05, 0x12⟩
def kSwNoResource : Cause := ⟨3, 0x05, 0x20⟩
def kSwBadGrant : Cause := ⟨3, 0x05, 0x21⟩
def kSwResizePending : Cause := ⟨3, 0x05, 0x22⟩
def kSwPartitionGone : Cause := ⟨3, 0x05, 0x23⟩
def kSwNotServing : Cause := ⟨3, 0x05, 0x24⟩
def kSwBadTable : Cause := ⟨3, 0x05, 0x25⟩
def kSwNoPartition : Cause := ⟨3, 0x05, 0x26⟩
def kSwLaunchLimit : Cause := ⟨3, 0x05, 0x27⟩
def kHbCorrected : Cause := ⟨1, 0x07, 0x01⟩
def kHbScrubCorrected : Cause := ⟨1, 0x07, 0x02⟩
def kHbRepaired : Cause := ⟨1, 0x07, 0x03⟩
def kHbPcCorrected : Cause := ⟨1, 0x07, 0x04⟩
def kHbHot : Cause := ⟨0, 0x07, 0x05⟩
def kHbUncorrected : Cause := ⟨3, 0x07, 0x10⟩
def kHbSealMismatch : Cause := ⟨2, 0x07, 0x11⟩
def kHbPcUncorrected : Cause := ⟨3, 0x07, 0x12⟩
def kHbTrainFail : Cause := ⟨4, 0x07, 0x13⟩
def kHbRecordsFull : Cause := ⟨2, 0x07, 0x14⟩
def kDdCorrected : Cause := ⟨1, 0x08, 0x01⟩
def kDdScrubCorrected : Cause := ⟨1, 0x08, 0x02⟩
def kDdSpeedReduced : Cause := ⟨0, 0x08, 0x03⟩
def kDdUncorrected : Cause := ⟨3, 0x08, 0x10⟩
def kDdSealMismatch : Cause := ⟨2, 0x08, 0x11⟩
def kDdTrainFail : Cause := ⟨2, 0x08, 0x12⟩
def kDdUnsupported : Cause := ⟨2, 0x08, 0x13⟩
def kDdRecordsFull : Cause := ⟨2, 0x08, 0x14⟩
def kFsRetryCorrected : Cause := ⟨1, 0x09, 0x01⟩
def kFsDisturbRefresh : Cause := ⟨0, 0x09, 0x02⟩
def kFsBlockRetired : Cause := ⟨1, 0x09, 0x03⟩
def kFsUncorrected : Cause := ⟨3, 0x09, 0x10⟩
def kFsSealMismatch : Cause := ⟨2, 0x09, 0x11⟩
def kFsLowSpare : Cause := ⟨2, 0x09, 0x12⟩
def kFsReadOnly : Cause := ⟨3, 0x09, 0x13⟩
def kSlTableCorrected : Cause := ⟨1, 0x06, 0x01⟩
def kSlWindowShrunk : Cause := ⟨0, 0x06, 0x02⟩
def kSlObjectPoisoned : Cause := ⟨0, 0x06, 0x03⟩
def kSlQuotaStarved : Cause := ⟨3, 0x06, 0x10⟩
def kSlTableUncorrected : Cause := ⟨3, 0x06, 0x11⟩
def kSlNoSpace : Cause := ⟨3, 0x06, 0x20⟩
def kSlBadObject : Cause := ⟨3, 0x06, 0x21⟩
def kSlBadHint : Cause := ⟨3, 0x06, 0x22⟩
def kSlObjectLimit : Cause := ⟨3, 0x06, 0x23⟩
def kSlObjectBusy : Cause := ⟨3, 0x06, 0x24⟩
def kSlQuotaBad : Cause := ⟨3, 0x06, 0x25⟩
def kSlResizeNoRoom : Cause := ⟨3, 0x06, 0x26⟩
def kSlImageBad : Cause := ⟨3, 0x06, 0x27⟩
def kSlImageSeal : Cause := ⟨3, 0x06, 0x28⟩
def kSlPeerRefused : Cause := ⟨3, 0x06, 0x29⟩
def kSlPeerTimeout : Cause := ⟨3, 0x06, 0x2A⟩
def kSlBroadcastAbort : Cause := ⟨3, 0x06, 0x2B⟩
def kGlFecCorrected : Cause := ⟨1, 0x0A, 0x01⟩
def kGlFlitRetried : Cause := ⟨1, 0x0A, 0x02⟩
def kGlTableCorrected : Cause := ⟨1, 0x0A, 0x03⟩
def kGlIplSpared : Cause := ⟨1, 0x0A, 0x04⟩
def kGlLinkUp : Cause := ⟨0, 0x0A, 0x05⟩
def kGlForeign : Cause := ⟨0, 0x0A, 0x06⟩
def kGlLaneFailed : Cause := ⟨2, 0x0A, 0x10⟩
def kGlPortDown : Cause := ⟨2, 0x0A, 0x11⟩
def kGlLinkDown : Cause := ⟨2, 0x0A, 0x12⟩
def kGlMiswired : Cause := ⟨2, 0x0A, 0x13⟩
def kGlReplayLost : Cause := ⟨2, 0x0A, 0x14⟩
def kGlTableUncorrected : Cause := ⟨2, 0x0A, 0x15⟩
def kGlHeaderCrc : Cause := ⟨2, 0x0A, 0x16⟩
def kGlTruncated : Cause := ⟨2, 0x0A, 0x17⟩
def kGlNoRoute : Cause := ⟨3, 0x0A, 0x18⟩
def kGlHopLimit : Cause := ⟨3, 0x0A, 0x19⟩
def kGlIplLost : Cause := ⟨4, 0x0A, 0x1A⟩
def kGlAssignBad : Cause := ⟨3, 0x0A, 0x20⟩
def kGlRouteBad : Cause := ⟨3, 0x0A, 0x21⟩
def kGlSpareBad : Cause := ⟨3, 0x0A, 0x22⟩
def kCeSealResent : Cause := ⟨1, 0x0B, 0x01⟩
def kCeBufferCorrected : Cause := ⟨1, 0x0B, 0x02⟩
def kCeStraggler : Cause := ⟨0, 0x0B, 0x03⟩
def kCeHandedOver : Cause := ⟨0, 0x0B, 0x04⟩
def kCeLateContrib : Cause := ⟨3, 0x0B, 0x10⟩
def kCeStaleEpoch : Cause := ⟨3, 0x0B, 0x11⟩
def kCeNoPath : Cause := ⟨3, 0x0B, 0x12⟩
def kCeStalled : Cause := ⟨3, 0x0B, 0x13⟩
def kCeAborted : Cause := ⟨3, 0x0B, 0x14⟩
def kCeBufferUncorrected : Cause := ⟨2, 0x0B, 0x15⟩
def kCeBadGroup : Cause := ⟨3, 0x0B, 0x20⟩
def kCeGroupLimit : Cause := ⟨3, 0x0B, 0x21⟩
def kCeGroupBusy : Cause := ⟨3, 0x0B, 0x22⟩
def kCeNoGroup : Cause := ⟨3, 0x0B, 0x23⟩
def kCeBadOp : Cause := ⟨3, 0x0B, 0x24⟩
def kCeBadMap : Cause := ⟨3, 0x0B, 0x25⟩
def kCeReshardPending : Cause := ⟨3, 0x0B, 0x26⟩
def kCeResumeBad : Cause := ⟨3, 0x0B, 0x27⟩
def kCeHandoverBad : Cause := ⟨3, 0x0B, 0x28⟩
def kPxCorrected : Cause := ⟨1, 0x0C, 0x01⟩
def kPxSpeedReduced : Cause := ⟨0, 0x0C, 0x02⟩
def kPxFlr : Cause := ⟨0, 0x0C, 0x03⟩
def kPxPoisonedRx : Cause := ⟨2, 0x0C, 0x10⟩
def kPxSealMismatch : Cause := ⟨2, 0x0C, 0x11⟩
def kPxLinkDown : Cause := ⟨2, 0x0C, 0x12⟩
def kWhSramCorrected : Cause := ⟨1, 0x0D, 0x01⟩
def kWhBankCorrected : Cause := ⟨1, 0x0D, 0x02⟩
def kWhDescEcc : Cause := ⟨3, 0x0D, 0x10⟩
def kWhBatchBad : Cause := ⟨2, 0x0D, 0x11⟩
def kWhDoorbellRefused : Cause := ⟨2, 0x0D, 0x12⟩
def kWhBankWriteDropped : Cause := ⟨2, 0x0D, 0x13⟩
def kWhBadTag : Cause := ⟨2, 0x0D, 0x14⟩
def kWhTokenDropped : Cause := ⟨2, 0x0D, 0x15⟩
def kWhCqWriteFailed : Cause := ⟨2, 0x0D, 0x16⟩
def kWhSramUncorrected : Cause := ⟨2, 0x0D, 0x17⟩
def kCmBadOpcode : Cause := ⟨3, 0x10, 0x01⟩
def kCmBadVersion : Cause := ⟨3, 0x10, 0x02⟩
def kCmDescCrc : Cause := ⟨3, 0x10, 0x03⟩
def kCmNotPrivileged : Cause := ⟨3, 0x10, 0x04⟩
def kCmBadState : Cause := ⟨3, 0x10, 0x05⟩
def kCmNotMapped : Cause := ⟨3, 0x10, 0x06⟩
def kCmBadOperand : Cause := ⟨3, 0x10, 0x07⟩
def kCmVfTaken : Cause := ⟨3, 0x10, 0x08⟩
def kCmGraphBad : Cause := ⟨3, 0x10, 0x09⟩
def kCmGraphLimit : Cause := ⟨3, 0x10, 0x0A⟩
def kCmGraphBusy : Cause := ⟨3, 0x10, 0x0B⟩
def kCmNoLaunch : Cause := ⟨3, 0x10, 0x0C⟩
def kCmHostReadFailed : Cause := ⟨3, 0x10, 0x0D⟩
def kGrSramCorrected : Cause := ⟨1, 0x0E, 0x01⟩
def kGrSlateInvalid : Cause := ⟨0, 0x0E, 0x02⟩
def kGrSlateKeyIgnored : Cause := ⟨0, 0x0E, 0x03⟩
def kGrFwCommitted : Cause := ⟨0, 0x0E, 0x04⟩
def kGrSensorWarn : Cause := ⟨0, 0x0E, 0x05⟩
def kGrSlateNone : Cause := ⟨2, 0x0E, 0x10⟩
def kGrFwFallback : Cause := ⟨2, 0x0E, 0x11⟩
def kGrSensorCrit : Cause := ⟨2, 0x0E, 0x12⟩
def kGrPlcaLost : Cause := ⟨2, 0x0E, 0x13⟩
def kGrSessionFail : Cause := ⟨2, 0x0E, 0x14⟩
def kGrSramUncorrected : Cause := ⟨2, 0x0E, 0x15⟩
def kGrFwBad : Cause := ⟨3, 0x0E, 0x20⟩
def kGrFwSig : Cause := ⟨3, 0x0E, 0x21⟩
def kGrFwRollback : Cause := ⟨3, 0x0E, 0x22⟩
def kGrFwBusy : Cause := ⟨3, 0x0E, 0x23⟩
def kGrSlateBad : Cause := ⟨3, 0x0E, 0x24⟩
def kGrSlateSig : Cause := ⟨3, 0x0E, 0x25⟩
def kGrSlateStale : Cause := ⟨3, 0x0E, 0x26⟩
def kGrNorWriteFail : Cause := ⟨3, 0x0E, 0x27⟩
def kGrPufFail : Cause := ⟨4, 0x0E, 0x30⟩
def kGrReplayFail : Cause := ⟨4, 0x0E, 0x31⟩
def kGrRomImageNone : Cause := ⟨4, 0x0E, 0x32⟩
def kPwDroop : Cause := ⟨0, 0x0F, 0x01⟩
def kPwPowerCapped : Cause := ⟨0, 0x0F, 0x02⟩
def kPwThermalHold : Cause := ⟨0, 0x0F, 0x03⟩
def kPwTimeValid : Cause := ⟨0, 0x0F, 0x04⟩
def kPwSysrefWait : Cause := ⟨0, 0x0F, 0x05⟩
def kPwRecovered : Cause := ⟨0, 0x0F, 0x06⟩
def kPwHang : Cause := ⟨2, 0x0F, 0x10⟩
def kPwHangHeld : Cause := ⟨2, 0x0F, 0x11⟩
def kPwDoubleFault : Cause := ⟨2, 0x0F, 0x12⟩
def kPwTimeLost : Cause := ⟨2, 0x0F, 0x13⟩
def kPwSupplyRange : Cause := ⟨2, 0x0F, 0x14⟩
def kPwComputeReset : Cause := ⟨3, 0x0F, 0x15⟩
def kPwNoRills : Cause := ⟨3, 0x0F, 0x16⟩
def kPwOppNotAllowed : Cause := ⟨3, 0x0F, 0x20⟩
def kPwConditionPersists : Cause := ⟨3, 0x0F, 0x21⟩
def kPwEscalated : Cause := ⟨4, 0x0F, 0x30⟩
def kPwThermalTrip : Cause := ⟨4, 0x0F, 0x31⟩
def kPwXtalFail : Cause := ⟨4, 0x0F, 0x32⟩
def kPwPllFail : Cause := ⟨4, 0x0F, 0x33⟩

end Sys2Proof.Machine
end

