-- ==== Sys2Proof/Config.lean ====
section
/-! DEFINITION. Constants and free values of the model.

A free value is an opaque constant: nothing in Lean can evaluate it or prove a value of it, so a
claim about it holds whatever it is.  Each is named in a row of notes/assumptions. -/

namespace Sys2Proof.Config

/-- Time units of 6.4e-8 ns in one nanosecond (R599). -/
def unitsPerNs : Nat := 15625000

/-- Time units in one SYSREF cycle of 6.4 ns (R599). -/
def unitsPerTick : Nat := 100000000

/-- Free value (notes/assumptions/20.md): which of the FP32 values within 2 ulp of the exact result an element-wise
function, or a normal draw, gives (R196, R212); the same for the same input on every 7208.  Arguments: the
function, its two source words. -/
opaque ulpChoice : Nat → W32 → W32 → Nat

/-- Free value (notes/assumptions/21.md): a choice that the spec leaves open (which free page, which line,
which base of a new object), by the count of free values drawn so far. -/
opaque pick : Nat → Nat

/-- Free value (notes/assumptions/25.md): MODULE_ID, the first 8 bytes of the digest of the module's identity public key
(R453, R567). -/
opaque moduleId : W64

/-- Free value (notes/assumptions/26.md): the element format that the header of an ADDW packet conveys, which R465 does not
lay out; true is INT32. -/
opaque addwInt32 : BitVec 256 → Bool

/-- Free value (notes/assumptions/30.md): the Kweilaten firmware public key that the ROM holds (R564), x then y. -/
opaque kweilatenKey : BitVec 512

/-- Free values (notes/assumptions/31.md): VERSION, SVN and image digest of the firmware of WCP 3.2 that a new module holds
(R676), by target. -/
opaque factoryVersion : Nat → Nat
opaque factorySvn : Nat → Nat
opaque factoryDigest : Nat → BitVec 256

/-- Free value (notes/assumptions/32.md): the response to an SPDM request, whose format DSP0274 gives and the spec does not
(R580, R581); by the count of free values drawn so far. -/
opaque spdmResponse : Nat → List Byte → List Byte

/-- Free value (notes/assumptions/33.md): a byte of a dump section whose layout R655 does not give; by the count of free
values drawn so far, the section, its index and the offset. -/
opaque dumpByte : Nat → Nat → Nat → Nat → Byte

/-- Free value (notes/assumptions/34.md): a byte that a host read of a poisoned place returns with its poison mark, which
R241 and R359 do not give; by the count of free values drawn so far and the address. -/
opaque poisonByte : Nat → Nat → Byte

end Sys2Proof.Config
end

