-- ==== Sys2Proof/Machine/State.lean ====
section
/-! DEFINITION. The state of the block: every register, queue, buffer, counter, mode and pin
that the spec gives the 7208, as plain data, with the queue of waiting commands; the ways a
step can stop; and the state after module power-on reset.

Sparse tables (`Tab`) hold only what differs from its reset value; the accessors of
Machine/Ops.lean give the reset value for a key that a table does not list.  Time is held in
units of 6.4e-8 ns: one nanosecond is 15,625,000 units and one SYSREF cycle of 6.4 ns with no
rate correction is 100,000,000 units (R599). -/

namespace Sys2Proof.Machine

open Sys2Proof

/-! ## Stops -/

/-- Why a step ends in a fault.  No row of the opcode table ends in one: every error of the
7208 is a flint code, a completion status or a counter, which are effects on `State`.  The one
constructor is raised by nothing today and is kept so that the type is inhabited; a stop is
safe (it proves nothing false), but where the spec gives an effect it would be a gap. -/
inductive Fault where
  /-- Raised by no meaning. -/
  | stuck
  deriving DecidableEq, Repr

/-- Why a step is refused. -/
inductive Refusal where
  /-- The arm of `exec` has no meaning yet; raised by `exec` only.  Safe. -/
  | notModelled (mnemonic : String)
  deriving DecidableEq, Repr

/-! ## Helpers of the state -/

/-- Four things, one for each terrace or base die (R11). -/
structure Four (α : Type) where
  d0 : α
  d1 : α
  d2 : α
  d3 : α
  deriving DecidableEq, Repr

/-- What the block sends or shows outside: the frames, packets, messages and read data of its
interfaces, oldest first. -/
inductive Out where
  /-- A beacon of the management port (R583): its 32 bytes. -/
  | beacon (body : List Byte)
  /-- A response of a secured management session (R588): completion words, then output. -/
  | secured (session : Nat) (status tag : BitVec 32) (result : BitVec 64) (output : List Byte)
  /-- An SPDM message of the handshake (R585). -/
  | handshake (slot : Nat) (ok : Bool)
  /-- An MSI-X message of a function (R534): function, vector. -/
  | msix (fn vector : Nat)
  /-- A host read of a register or a window completed (R42, R44): address, data, or Unsupported Request. -/
  | readData (fn addr : Nat) (data : List Byte) (poisoned : Bool)
  | unsupported (fn addr : Nat)
  /-- The identity record sent on a port (R453). -/
  | identity (port : Nat) (r : NeighbourRecord)
  /-- A REPLAY packet sent on a port to a chip (R462): ORIG_PORT, first ORIG_SEQ and the flits. -/
  | replay (port : Nat) (dst : BitVec 16) (origPort firstSeq : Nat) (flits : List Flit)
  /-- A flit sent on a port (R456). -/
  | flit (port : Nat) (f : Flit)
  /-- A collective packet sent to a chip (R495): MSG 0 CONTRIB, 1 RESULT, 2 ACK, 3 DATA, 4 ABORT. -/
  | coll (kind : Nat) (dst : BitVec 16) (gid opseq : BitVec 16) (seq attempt : Nat) (data : List Byte)
  /-- A READ_DATA or COMPLETION packet to the chip that sent a request (R465, R469, R472): tag, status, value, data. -/
  | reply (dst : BitVec 16) (tag status : BitVec 32) (value : BitVec 64) (data : List Byte)
  /-- A request to another module (R106, R465): FT OP of R104, tag, fabric address, memory tile (0 for an atomic) and
  the data that it carries. -/
  | request (op : Nat) (tag : BitVec 32) (addr : BitVec 64) (desc : BitVec 256) (data : List Byte)
  deriving DecidableEq, Repr

/-! ## Clocks, power and recovery (R594 to R642) -/

/-- A terrace's clock: operating point, gate and stretcher. -/
structure Terrace where
  /-- CK_OPP.CEILING (R604). -/
  ceiling : Nat
  /-- CK_OPP.RUNNING (R604). -/
  running : Nat
  /-- OPPs by which the power cap holds TARGET down (R609). -/
  capHold : Nat
  /-- Consecutive loops with G at least 8 (R609). -/
  highLoops : Nat
  /-- Consecutive loops with P below 0.9 CAP (R609). -/
  lowLoops : Nat
  /-- Gate duty set by the cap loop and the input monitor (R608 to R610). -/
  g : Nat
  /-- TB units at which the stretch began (R606). -/
  stretch : Option Nat
  /-- ARR cycles run, in hundredths of a cycle (R96, R602). -/
  cycles : Nat
  deriving DecidableEq, Repr

/-- Clock unit and timebase. -/
structure Clocks where
  /-- The domains run on the crystal (R595, CK_STATUS.SOURCE). -/
  crystal : Bool
  /-- Consecutive good windows of the crystal count (R595). -/
  xtalGood : Nat
  /-- Crystal count of the previous window. -/
  xtalPrev : Option Nat
  /-- CK_STATUS.SYSREF_LOCK. -/
  sysrefLock : Bool
  /-- CK_STATUS.ARR_LOCK. -/
  arrLock : Nat
  /-- TB counts: FAB PLL locked, SYSREF present (R596, R597). -/
  tbRuns : Bool
  /-- TB of base die 0 in units of 6.4e-8 ns (R599). -/
  tb : Nat
  /-- Boot timer in the same units (R615). -/
  boot : Nat
  /-- CK_STATUS.TIME_VALID (R600). -/
  timeValid : Bool
  /-- CK_TB_SYNC.OFFSET_NS. -/
  offset : BitVec 32
  /-- CK_TB_SYNC.SLEW in 0.01 ppm (R599). -/
  slew : BitVec 16
  /-- A clock source or PLL that has failed (R597): bit 0 crystal, bit 1 SYSREF, bit 2+k the PLL of domain k. -/
  failed : Nat
  terr : Four Terrace
  deriving DecidableEq, Repr

/-- One fault scope of R631. -/
inductive Scope where
  | rill (r : Nat)
  | bank (rill bank : Nat)
  | cascade (c : Nat)
  | link (n : Nat)
  | wellhead
  deriving DecidableEq, Repr

/-- A single-fault recovery under way (R631 to R633). -/
structure Recovery where
  scopes : List Scope
  /-- TB units of the first detection. -/
  start : Nat
  isUnion : Bool
  deriving DecidableEq, Repr

/-- A day record of the productive-time counters (R635). -/
structure DayRec where
  began : Nat
  total : Nat
  excluded : Nat
  lost : Nat
  deriving DecidableEq, Repr

/-- Power, reset and recovery state (PW_ registers and what stands behind them). -/
structure Power where
  /-- CAP in W (R611). -/
  cap : Nat
  /-- A cap taken by `power.cap_set`, acted on at the next loop (R636). -/
  capNext : Option Nat
  held : Bool
  /-- PW_STATUS.WITHDRAW_CAUSE. -/
  withdrawCause : Nat
  kept : Option W32
  /-- Last code of severity 2 or higher that the Wellhead raised since the last compute reset (R626). -/
  wellheadLast : Option W32
  /-- Open escalation window: start in ns, count (R628). -/
  esc : Option (Nat × Nat)
  recovery : Option Recovery
  /-- A compute reset runs and service has not resumed: units of its trigger, and its cause's flint (R618). -/
  resetting : Option (Nat × W32)
  /-- The reset under way has stopped compute and cleared the blocks of R15; service has not resumed (R618). -/
  cleared : Bool
  /-- The Wellhead reloads its instruction memory in the next compute reset (R618). -/
  reload : Bool
  /-- The module withdraws when the compute reset under way ends (R629): 0 no, 1 ESCALATED, 2 THERMAL_TRIP of a die,
  3 THERMAL_TRIP of the coolant, 4 IPL_LOST. -/
  withdrawing : Nat
  /-- Productive time since module power-on reset, in ns (R635). -/
  ptTotal : Nat
  ptExcluded : Nat
  ptLost : Nat
  /-- What a WITHDRAWN module withdrew for, by the numbers of `withdrawing`; 0 when it is not WITHDRAWN (R635). -/
  withdrawn : Nat
  /-- Closed days, oldest first, at most 31 (R635). -/
  days : List DayRec
  /-- The current day. -/
  today : DayRec
  deriving DecidableEq, Repr

/-- The input switch (R667). -/
structure PowerIn where
  on : Bool
  /-- The switch is off after an overcurrent, and failed retries since. -/
  tripped : Bool
  retries : Nat
  deriving DecidableEq, Repr

/-- Wellhead heartbeat watch (R623, R624). -/
structure Watch where
  running : Bool
  misses : Nat
  /-- COUNT at the start of the slot. -/
  seen : Nat
  /-- Start of the first missed slot, in ns. -/
  missStart : Nat
  deriving DecidableEq, Repr

/-! ## Grotto (R564 to R593) -/

/-- One entry of the event log (R579). -/
structure LogEntry where
  tb : Nat
  seq : Nat
  flint : W32
  partition : Nat
  function : Nat
  count : Nat
  detail : BitVec 96
  deriving DecidableEq, Repr

/-- The settings of the slate in force (R574). -/
structure Slate where
  escCount : Nat
  escWindowS : Nat
  holdOnHang : Bool
  powerCapW : Nat
  oppAllowed : Nat
  tempWarn : Nat
  tempCrit : Nat
  nodeId : Nat
  nodeCount : Nat
  mgmtRoot : Option (BitVec 256)
  beaconMs : Nat
  ownerKey : Option (BitVec 512)
  deriving DecidableEq, Repr

/-- The replay-protected record (R568). -/
structure Record where
  rpmc : Nat
  svnG : Nat
  svnW : Nat
  activeG : Bool
  activeW : Bool
  trialG : Bool
  trialW : Bool
  owner : Option (BitVec 512)
  /-- The HMAC verifies under the record key. -/
  authentic : Bool
  deriving DecidableEq, Repr

/-- One sensor (R578). -/
structure Sensor where
  value : BitVec 32
  valid : Bool
  /-- The value has crossed the limit and has not yet fallen back to the hysteresis point. -/
  warn : Bool
  crit : Bool
  /-- Time in units since which the value itself has been above CRIT (R612). -/
  since : Option Nat
  deriving DecidableEq, Repr

/-- A management handshake (R585). -/
structure Handshake where
  start : Nat
  /-- KEY_EXCHANGE was accepted. -/
  keyed : Bool
  deriving DecidableEq, Repr

/-- The Grotto processor, its flash and its port. -/
structure Grotto where
  /-- GR_STATUS.BOOT_STAGE: 0 ROM, 1 Grotto firmware, 2 Wellhead started, 3 boot released, 4 halted. -/
  stage : Nat
  /-- Stage of the power-up sequence reached (R613), 1 to 9. -/
  powerStage : Nat
  /-- GR_STATUS.SLATE: 0 A, 1 B, 2 defaults. -/
  slateSel : Nat
  slateSeq : Nat
  slate : Slate
  /-- The two copies of the record, and the RPMC of the NOR device (R568). -/
  recordA : Record
  recordB : Record
  rpmc : Nat
  /-- Copy running: false A, true B. -/
  grottoSlot : Bool
  wellheadSlot : Bool
  grottoVer : Nat
  wellheadVer : Nat
  /-- The copy in which a verified image is staged, false A (R576). -/
  stagedG : Option Bool
  stagedW : Option Bool
  /-- Copies that hold the image programmed at manufacture and have not been erased since (R676): 0, 1 Grotto A and B,
  2, 3 Wellhead A and B. -/
  factory : List Nat
  /-- The boot NOR flash (R565), each byte complemented: an address that is not listed is erased and reads 0xFF. -/
  nor : List Host.Cell
  /-- Newest entries in SRAM, oldest first, at most 4,096 (R579). -/
  log : List LogEntry
  /-- The NOR log ring, oldest first, at most 131,072. -/
  norLog : List LogEntry
  nextSeq : Nat
  /-- Start of the window in which a rate-limited code was last raised, by code (R607, R609, R585, R345). -/
  limits : Tab Nat
  /-- Last device-fatal code since power-on (R583). -/
  lastFatal : W32
  sensors : Tab Sensor
  /-- The identify state of R589: `some 0` set until cleared, `some t` set until TB units `t`. -/
  identify : Option Nat
  /-- Handshake slots 0 to 3 and sessions 0 to 3 (R585); a session holds the units of its last traffic. -/
  handshakes : Tab Handshake
  sessions : Tab Nat
  /-- PLCA has fallen back to CSMA/CD (R586), and consecutive beacons heard since. -/
  plcaLost : Bool
  plcaHeard : Nat
  /-- TB units of the last DISCOVER answer (R584). -/
  lastAnswer : Option Nat
  /-- Time since which the module has been in its power-up stage, and whether SYSREF_WAIT has been raised (R614). -/
  stageSince : Nat
  waitTold : Bool
  /-- Until when GR_T1S_CTRL.BEACON_NOW holds ID_LED_N low (R661). -/
  ledUntil : Option Nat
  /-- When a restart of Grotto's own firmware began (R593, R634); `none` when it runs. -/
  restart : Option Nat
  /-- Measurements of R580: digests of the Grotto image, the Wellhead image and the slate. -/
  measG : BitVec 256
  measW : BitVec 256
  measS : BitVec 256
  deriving DecidableEq, Repr

/-! ## Counters, sampling and dumps (R643 to R657) -/

/-- A sampler (R649). -/
structure Sampler where
  mode : Nat
  /-- Partition whose ring object takes the records. -/
  part : Nat
  period : Nat
  ring : Nat
  ringBytes : Nat
  deriving DecidableEq, Repr

/-- The debug block. -/
structure Debug where
  /-- Counter records by partition, and the module record under key 16; each a table of entries (R643). -/
  records : Tab (Tab Nat)
  /-- When a record was last zeroed by a command, and what it held before, by record (R648). -/
  cleared : Tab (Nat × Tab Nat)
  /-- Samplers that are not off: by partition, and the global one under 16 (R649). -/
  samplers : Tab Sampler
  /-- Rotating pointer over the threads of a rill, by sampler × 1,024 + rill (R650). -/
  rotors : Tab Nat
  deriving DecidableEq, Repr

/-! ## The rill (R83 to R135, R136 to R254) -/

/-- State of a hardware thread (R87), by the code that RL_THREAD_STATE reports. -/
inductive TState where
  | free
  | idle
  | ready
  | waitDep
  | waitQueue
  | waitLocal
  | waitRemote
  | waitTile
  | fault
  deriving DecidableEq, Repr

/-- What a thread that is not READY waits for. -/
inductive Wait where
  | none
  /-- An instruction-cache fill of the line at this partition offset (R86). -/
  | line (off : Nat)
  /-- An earlier LS access of the thread (R97). -/
  | ls
  /-- Room in the MX queue, the VX queue, the trackers or the slots (R87). -/
  | mxRoom
  | vxRoom
  | ftRoom
  /-- `mx.acquire` while another context owns the array (R99). -/
  | acquire
  /-- `sy.fence` and `sy.wait`: the classes awaited, bit 0 MX, 1 VX, 2 LS, 3 FT (R108). -/
  | classes (mask : Nat)
  /-- `sy.slot`: slot and destination register. -/
  | slot (n : Nat) (rd : BitVec 5)
  /-- `sy.bar`. -/
  | bar (n : Nat)
  /-- `sy.steal`: destination register. -/
  | steal (rd : BitVec 5)
  /-- `sy.halt`: destination register of the tile handed over later. -/
  | halt (rd : BitVec 5)
  deriving DecidableEq, Repr

/-- A tile: one work item of a step of a launch (R301, R302). -/
structure Tile where
  launch : Nat
  /-- TILE and PHASE of the work item (R301). -/
  index : Nat
  phase : Nat
  args : BitVec 192
  /-- FLAGS: RETRY and STOLEN. -/
  retry : Bool
  stolen : Bool
  deriving DecidableEq, Repr

/-- A thread of a context (R84, R86, R87). -/
structure Thread where
  /-- Hardware thread number while resident. -/
  hw : Nat
  /-- s1 to s31. -/
  regs : Tab W64
  /-- p1 to p7 as bits 1 to 7; bit 0 is not used. -/
  preds : BitVec 8
  pc : W64
  st : TState
  wait : Wait
  /-- Ports that have still to pass a yielding thread (R89), one bit each. -/
  yielding : BitVec 2
  tile : Option Tile
  /-- PC of the last `sy.steal` or `sy.halt` executed (R126). -/
  restartPc : Option W64
  deriving DecidableEq, Repr

/-- A queued or running MX or VX instruction (R103). -/
structure QEntry where
  /-- Key of the context (partition × 65,536 + context number). -/
  ctx : Nat
  thr : Nat
  op : Nat
  /-- The mode in force when it issued is the context's: `mx.cfg` travels through the queue.  The three
  register values and the IMM. -/
  d : W64
  a : W64
  b : W64
  imm : BitVec 32
  /-- Issue order within the rill (R114). -/
  order : Nat
  deriving DecidableEq, Repr

/-- An LS access that waits for its bank (R97, R234). -/
structure LsReq where
  ctx : Nat
  thr : Nat
  /-- LS OP of R97. -/
  op : Nat
  /-- Offset in the rill's scratchpad. -/
  off : Nat
  rd : BitVec 5
  data : W64
  deriving DecidableEq, Repr

/-- Phase of the array (R145, R172). -/
inductive ArrPhase where
  | idle
  | running
  | selfCheck
  deriving DecidableEq, Repr

/-- The matrix array of a rill. -/
structure MxArray where
  /-- Context key of the owner (R99). -/
  owner : Option Nat
  phase : ArrPhase
  /-- The `mx.stream` whose pass runs. -/
  cur : Option QEntry
  /-- Pass number of the current `mx.stream`, 1 to 3, and its set. -/
  passNo : Nat
  set : Nat
  /-- S of the current pass, and K-steps completed. -/
  steps : Nat
  done : Nat
  /-- The rows that the current pass will commit: entry index and value (W and D of R137). -/
  w : Tab W32
  /-- Accumulator sets 0 and 1, by entry; an entry not listed holds +0 (R137). -/
  acc0 : Tab W32
  acc1 : Tab W32
  /-- Streams whose cascade copies the pass holds (R261). -/
  streams : List Nat
  /-- Entries of the sets that are uncorrectable until their next write (R181). -/
  badAcc : List (Nat × Nat)
  deriving DecidableEq, Repr

/-- The vector engine of a rill. -/
structure VxEngine where
  cur : Option QEntry
  /-- Beats of the running instruction. -/
  beats : Nat
  wide : Bool
  selfCheck : Bool
  /-- The descriptors, Spring block, record, key and hyperparameters read at the start (R188, R211). -/
  dDesc : BitVec 256
  aDesc : BitVec 256
  bDesc : BitVec 256
  spring : BitVec 256
  key : W64
  hyper : BitVec 256
  /-- Broadcast sources read at the start, raw elements (R186). -/
  bcastA : List W32
  bcastB : List W32
  /-- Streams whose cascade copies the instruction holds (R261). -/
  streams : List Nat
  deriving DecidableEq, Repr

/-- One rill: frames, queues, engines, scratchpad marks. -/
structure Rill where
  /-- Context key by frame 0 to 4 (R121). -/
  frames : Tab Nat
  /-- Rotating pointers of the two issue ports (R89). -/
  port0 : Nat
  port1 : Nat
  /-- Lines held by the instruction cache: partition and line offset (R86). -/
  icache : List (Nat × Nat)
  mxQ : List QEntry
  vxQ : List QEntry
  order : Nat
  lsWait : List LsReq
  /-- Trackers in use: context key, slot, TB ns at issue (R117, R655). -/
  trackers : List (Nat × Nat × Nat)
  array : MxArray
  vector : VxEngine
  /-- Poisoned lanes: scratchpad offsets, multiples of 4, rising (R241). -/
  poison : List Nat
  /-- Banks that have had an uncorrectable error (R243). -/
  hitBanks : List Nat
  /-- Rotating pointer of tier 0 by bank (R232). -/
  bankPtr : Tab Nat
  /-- Partition that last used each 64 KiB of the scratchpad (R246). -/
  lastUser : Tab Nat
  /-- Rotating pointers of the steal search (R305): over fault-return deques at 2 × level, over work deques at
  2 × level + 1. -/
  stealPtr : Tab Nat
  /-- A blocked swap is under way: the launch whose contexts are offered first (R317). -/
  swap : Option Nat
  /-- ARR cycles of the terrace, in hundredths, at the rill's last reset (R96). -/
  cyclesOff : Nat
  deriving DecidableEq, Repr

/-! ## Contexts (R120 to R126) -/

/-- An FT operation behind a slot (R104, R118). -/
structure FtOp where
  /-- FT OP of R104: 0 get, 1 put, 2 addw, 3 amo.add, 4 amo.swap. -/
  kind : Nat
  /-- Scratchpad and memory tile descriptors, as read at issue (R105). -/
  spad : BitVec 256
  memory : BitVec 256
  /-- Fabric address and operand of an atomic. -/
  addr : W64
  operand : W64
  /-- The operation targets another module (R106). -/
  remote : Bool
  deriving DecidableEq, Repr

/-- A slot that is taken (R118, R123). -/
structure Slot where
  op : FtOp
  thr : Nat
  done : Bool
  status : W32
  value : W64
  /-- TB units at issue (R107). -/
  issued : Nat
  /-- The completion is to be discarded (R126). -/
  discard : Bool
  /-- Parcels that PC_ADDW has applied, and whether PC_AMO has been carried out (R353, R354). -/
  applied : List Nat
  /-- Sluice has translated it: it holds its pages until it is done (R384). -/
  translated : Bool
  /-- Refused at translation or at its source: its completion carries STATUS and moves nothing. -/
  refused : Bool
  /-- Taken since the thread's last `sy.steal` or `sy.halt` (R126). -/
  sinceTile : Bool
  /-- When the current QUOTA wait began (R397). -/
  quotaSince : Option Nat
  deriving DecidableEq, Repr

/-- Where a context is (R120). -/
inductive Loc where
  | resident (rill frame : Nat)
  | saving (rill : Nat)
  | saved
  | restoring (rill : Nat)
  deriving DecidableEq, Repr

/-- A context. -/
structure Context where
  loc : Loc
  launch : Nat
  regionBase : Nat
  regionLen : Nat
  threads : List Thread
  slots : Tab Slot
  /-- Array mode in the layout of R101, and the bound panel (R141). -/
  mode : BitVec 32
  panel : Option (BitVec 256)
  /-- Raised a job-fatal fault: its threads issue nothing (R126). -/
  stopped : Bool
  /-- A stop for pre-emption has been requested: threads stop at their next pre-emption point (R309 to R315). -/
  stopReq : Bool
  /-- Saved parts of the image (R122): ownership, accumulators, queued instructions, region, TB. -/
  ownsArray : Bool
  acc0 : Tab W32
  acc1 : Tab W32
  mx : List QEntry
  vx : List QEntry
  region : List Host.Cell
  /-- Poisoned lanes of the region that the save copied as zero (R241). -/
  lostLanes : Bool
  tbSave : Nat
  /-- The stop request has reached the rill: no thread issues, and the queued instructions are recorded (R313). -/
  stopping : Bool
  /-- Replies held at the reply router while a restore runs (R124). -/
  held : List Instr
  /-- Sluice object and offset of the save image. -/
  image : Nat
  /-- TB ns at which the context became blocked (R318). -/
  blockedSince : Option Nat
  /-- The context waits for its region to be zeroed (R246). -/
  zeroing : Bool
  deriving DecidableEq, Repr

/-! ## Streams (R255 to R290) -/

/-- A stream table entry (R258), its 128 bytes as one word, little-endian; GEN survives FREE. -/
structure StreamCopy where
  /-- The entry as the cache fetched it. -/
  entry : BitVec 1024
  /-- Norm contributions not yet written back: G2, U2, W2 as FP32 bits, and the element count (R272). -/
  g2 : W32
  u2 : W32
  w2 : W32
  elems : Nat
  /-- Order of last use. -/
  used : Nat
  deriving DecidableEq, Repr

/-! ## Partitions, launches, Spillway (R291 to R332, R421 to R446) -/

/-- A phase record of a graph (R546) with its lists read. -/
structure Phase where
  firstTile : Nat
  tileCount : Nat
  normLayer : Nat
  buckets : List Nat
  /-- Windowed objects and the layer the phase reads or writes. -/
  windows : List (Nat × Nat)
  gated : Bool
  gateOff : Nat
  gateBase : W64
  gateStep : W64
  deriving DecidableEq, Repr

/-- A loaded graph (R545 to R548). -/
structure Graph where
  phases : List Phase
  /-- Tile records: anchor (with its presence) and the 24 bytes of ARGS. -/
  tiles : List (Option Nat × BitVec 192)
  /-- Base of the code object, its length, and the entry PC. -/
  code : Nat
  codeBytes : Nat
  entryPc : Nat
  deriving DecidableEq, Repr

/-- A gradient bucket (R421 to R428). -/
structure Bucket where
  op : Nat
  zero : Bool
  int32 : Bool
  /-- LAUNCH handle; 0xFFFF the next launch. -/
  launch : Nat
  closePhase : Nat
  object : Nat
  pageFirst : Nat
  pageCount : Nat
  group : Nat
  epoch : Nat
  normLayer : Nat
  /-- 0 OPEN, 1 CLOSING, 2 REDUCING, 3 REDUCED (R422). -/
  state : Nat
  /-- The permute of a re-shard has been applied to its range (R436). -/
  opened : Bool
  /-- Settings that take effect at the next step boundary (R428). -/
  next : Option (BitVec 512)
  deriving DecidableEq, Repr

/-- One slot of one bank of a norm table (R430, R432). -/
structure NormSlot where
  g2red : W64
  g2 : W64
  u2 : W64
  w2 : W64
  elemsRed : Nat
  elemsOpt : Nat
  nonfinite : Nat
  deriving DecidableEq, Repr

/-- The norm table of a launch that a compute reset ended (R433). -/
structure NormTable where
  step : Nat
  norm0 : Tab NormSlot
  norm1 : Tab NormSlot
  incomplete : Bool
  deriving DecidableEq, Repr

/-- A launch that has not completed (R299 to R301). -/
structure Launch where
  graph : Nat
  threads : Nat
  contexts : Nat
  /-- Region length in bytes. -/
  region : Nat
  /-- STEPS; 0 no limit. -/
  steps : Nat
  tokens : Option (Nat × Nat)
  /-- Step index (R429) and the phase now released. -/
  step : Nat
  phase : Nat
  /-- Every tile of the phase has been released and phase `phase` is under way. -/
  released : Bool
  /-- The launch holds at its step boundary for a resize (R296), or for records still VALID (R553). -/
  holding : Bool
  parked : Bool
  /-- STOP of a `step.fence` (R551). -/
  stop : Bool
  /-- Tiles of phase `phase` that have ended, by index. -/
  ended : List Nat
  /-- Work deques and tile lists by rill (R302). -/
  deques : Tab (List Tile)
  lists : Tab (List Tile)
  /-- ROLE 6 object. -/
  saveObj : Nat
  /-- Work deque of every rill that is bound to the launch, 0 to 3 (R302). -/
  slot : Nat
  /-- Rotations of R380: by terrace 0 to 3, and under 4 the one of tiles without anchor. -/
  rotor : Tab Nat
  /-- Epoch CUR (R434). -/
  cur : Nat
  /-- Norm banks: slots by layer (R429), with their steps and INCOMPLETE marks. -/
  norm0 : Tab NormSlot
  norm1 : Tab NormSlot
  incomplete : Bool
  /-- Norm contributions still in cascade buffers, by layer (R431). -/
  normBuf : Tab NormSlot
  /-- TB units of the last step boundary, and units this step held only for buckets (R512). -/
  stepStart : Nat
  bucketHold : Nat
  windowShrunk : Bool
  deriving DecidableEq, Repr

/-- The grant of a partition (R291). -/
structure Grant where
  cascades : BitVec 64
  groups : BitVec 64
  ways : BitVec 64
  streams : Nat
  deriving DecidableEq, Repr

/-- An entry of a cyclic schedule (R319). -/
structure SlotEntry where
  durationUs : Nat
  launch : Nat
  earlyEnd : Bool
  deriving DecidableEq, Repr

/-- A cyclic schedule in effect or to come (R319 to R323). -/
structure Schedule where
  entries : List SlotEntry
  /-- START in ns. -/
  start : Nat
  slot : Nat
  /-- The slot's launch has given the rest of the slot away (R322). -/
  early : Bool
  deriving DecidableEq, Repr

/-- State of a page (R383). -/
inductive PState where
  | absent
  | resident
  | staging
  | writingBack
  | moving
  deriving DecidableEq, Repr

/-- Where a copy of a page is: tier 0 HBM, 1 DDR5, 2 flash, and its page number in the tier (HBM: stack × 34,332 +
page, DDR5: connector × 131,072 + page). -/
structure Place where
  tier : Nat
  page : Nat
  deriving DecidableEq, Repr

/-- A page record (R374, R381 to R386). -/
structure Page where
  state : PState
  /-- The copy that accesses use, and the home copy of a staged page. -/
  a : Option Place
  b : Option Place
  dirty : BitVec 32
  poison : Bool
  /-- Sectors that have arrived while STAGING, or been zeroed in a first copy. -/
  arrived : BitVec 32
  /-- Tier to which the page is MOVING. -/
  dest : Option Place
  /-- What demands the move: 1 a resize (R296), 10 + n the command in progress of order n. -/
  level : Nat
  /-- Operations that hold the page (R384). -/
  holds : Nat
  /-- Order of last access (R388). -/
  used : Nat
  deriving DecidableEq, Repr

/-- An image command that writes an object (R398 to R403). -/
structure ImageRun where
  /-- Order of its command among those in progress. -/
  order : Nat
  /-- DATA_BYTES, LAYERS and IMAGE_ID of the header, and the layer table read so far. -/
  dataBytes : Nat
  layers : Nat
  id : W64
  table : List Nat
  /-- Number of the next record. -/
  next : Nat
  /-- TB units of the command's start and of the last parcel. -/
  start : Nat
  last : Nat
  /-- At the root of a broadcast: members that have completed or failed, and how many failed. -/
  reported : List Nat
  failed : Nat
  deriving DecidableEq, Repr

/-- An object (R373). -/
structure Obj where
  pages : Nat
  role : Nat
  pin : Nat
  access : Nat
  window : Nat
  /-- First page of each layer (R392). -/
  layers : List Nat
  imageId : Option W64
  /-- An image command holds the object (R400). -/
  loading : Bool
  image : Option ImageRun
  poisoned : Bool
  /-- Freed, but waiting for holds to end (R406). -/
  freeing : Bool
  /-- Hints that take effect at the next step boundary (R407). -/
  nextWindow : Option Nat
  nextLayers : Option (List Nat)
  deriving DecidableEq, Repr

/-- A partition. -/
structure Part where
  /-- SW_PART_STATE.STATE: 0 NONE, 1 ACTIVE, 2 RESIZING, 3 DESTROYING. -/
  state : Nat
  serving : Bool
  vf : Nat
  grant : Grant
  /-- The grant a pending resize asks for, and the stage it has reached (R296). -/
  newGrant : Option Grant
  stage : Nat
  /-- Cascades that left at stage 3 of R296 and are free only after stage 6. -/
  oldCascades : BitVec 64
  /-- Quotas in pages: HBM, DDR5, flash (R389); whether `quota.set` ever lowered the HBM one. -/
  quotaH : Nat
  quotaD : Nat
  quotaF : Nat
  keys : Tab W64
  accept : Tab W64
  graphs : Tab Graph
  launches : Tab Launch
  objects : Tab Obj
  /-- Page records by partition offset ÷ 2 MiB. -/
  pages : Tab Page
  rotorH : Nat
  rotorD : Nat
  rotorF : Nat
  buckets : Tab Bucket
  schedule : Option Schedule
  nextSchedule : Option Schedule
  /-- Context numbers not yet free again: number and TB units when it may be freed (R120). -/
  retired : Tab Nat
  /-- Token areas of launches that have ended with records still VALID: offset and count (R553). -/
  drains : List (Nat × Nat)
  /-- Norm tables that a compute reset keeps, by launch handle (R433). -/
  norms : Tab NormTable
  deriving DecidableEq, Repr

/-! ## Memory side (R333 to R372) -/

/-- A pool-cache line present in a pool cache (R351). -/
structure Line where
  part : Nat
  way : Nat
  dirty : Bool
  used : Nat
  deriving DecidableEq, Repr

/-- Controllers, pool caches and Shale. -/
structure Mem where
  /-- Bytes of HBM, DDR5 and scratchpads by local address (R37 to R40). -/
  cells : List Host.Cell
  /-- Bytes of the lines held in pool caches, by local address of their home. -/
  lineCells : List Host.Cell
  /-- Lines present, by local address ÷ 256. -/
  lines : Tab Line
  /-- Bytes of flash: flash page × 2 MiB + offset. -/
  flash : List Host.Cell
  /-- Host memory, which the host shares with the module (R533). -/
  host : List Host.Cell
  /-- Poisoned pages by local page (local address ÷ 2 MiB; flash pages from 2^40): whether it has a record. -/
  poison : Tab Bool
  /-- Pages out of service (R340, R344). -/
  retired : List Nat
  /-- Corrected errors of a row within 24 h: row key, list of TB ns (R340). -/
  rowErrs : Tab (List Nat)
  /-- TB units of the last request of each stack (R338). -/
  lastReq : Tab Nat
  /-- Access order, for least recently used choices. -/
  clock : Nat
  /-- Uncorrectable page records (R413). -/
  badRecords : List (Nat × Nat)
  /-- Translation caches by base die: partition and page number of the entries held, oldest first (R376). -/
  xlat : Tab (List (Nat × Nat))
  deriving DecidableEq, Repr

/-! ## Fabric (R447 to R484) -/

/-- What stands behind a port (R452 to R463). -/
structure Port where
  /-- GL_PORT_STATUS.STATE. -/
  state : Nat
  /-- Live lanes. -/
  live : BitVec 4
  miswired : Bool
  foreign : Bool
  nb : Option NeighbourRecord
  /-- The port trains fast after a lane fault. -/
  fast : Bool
  /-- Next SEQ to send, ACK received, ACCEPTED (R457). -/
  nextSeq : Nat
  acked : Nat
  accepted : Nat
  /-- Flits sent and not acknowledged, oldest first (R458), and how often each was resent (R461). -/
  window : List (Flit × Nat)
  /-- Flits that wait for room in the window (R458). -/
  queue : List Flit
  /-- ACK of the last flit sent (R457). -/
  ackSent : Nat
  /-- By virtual channel: credits returned less flits sent, and credits owed to the neighbour (R456, R467). -/
  credits : Tab Int
  owed : Tab Nat
  /-- TB units of the last advance of ACK, or of the failure (R458, R452). -/
  since : Nat
  /-- Receive record of a failed port, kept until TB units (R462). -/
  record : Option (Nat × Nat)
  deriving DecidableEq, Repr

/-- Where a packet that is passing through goes (R463, R468). -/
inductive Hop where
  | unrouted
  /-- An output port and the virtual channel on it. -/
  | port (p vc : Nat)
  /-- Delivered here, dropped or truncated: its further flits go no further. -/
  | sink
  deriving DecidableEq, Repr

/-- A packet of which a port has accepted the header (R463): its flits that wait for the route, whether the last one
has been accepted, and the TB units of the last one. -/
structure Partial where
  hdr : BitVec 256
  hop : Hop
  held : List Flit
  ended : Bool
  since : Nat
  deriving DecidableEq, Repr

/-- An in-package link (R460, R461). -/
structure Ipl where
  groups : Nat
  spareUsed : Bool
  lost : Bool
  deriving DecidableEq, Repr

/-- The fabric side of the module. -/
structure Fabric where
  chip : Nat
  fabricId : W32
  spare : Bool
  timeMaster : Bool
  timeParent : Nat
  x : Nat
  y : Nat
  z : Nat
  ringX : Nat
  ringY : Nat
  ringZ : Nat
  ports : Tab Port
  ipls : Tab Ipl
  /-- Destination entries by chip (R470). -/
  dest : Tab W64
  /-- Rotating pointer of R468 per router. -/
  rotors : Tab Nat
  /-- Packets being forwarded, by input port × 16 + virtual channel (R463). -/
  partials : Tab Partial
  /-- Delivered requests that wait for a page or a bucket: router, header and data. -/
  waiting : List (Nat × BitVec 256 × List Byte)
  deriving DecidableEq, Repr

/-! ## Collective engine (R485 to R519) -/

/-- A collective group (R485). -/
structure Group where
  part : Nat
  members : List (Nat × Nat)
  rank : Nat
  fanin : Nat
  ordered : Bool
  pace : Bool
  /-- Host-started operations so far, modulo 2^15 (R496). -/
  count : Nat
  deriving DecidableEq, Repr

/-- The record of a chunk at a slice (R497, R500); of a PERMUTE, of one 4 KiB unit of its outgoing segments. -/
structure Chunk where
  /-- Senders whose packet has been accepted, by rank. -/
  seen : List Nat
  /-- Contributions held, in arrival order: this member's own under its rank, partial results under their senders'. -/
  inputs : List (Nat × List W32)
  /-- The chunk has been started: its own contribution or its data has been read. -/
  started : Bool
  /-- The partial result has been sent to the parent. -/
  sent : Bool
  committed : Bool
  /-- RESULT or DATA written here. -/
  written : Bool
  /-- Packets sent and not acknowledged: kind, destination rank, data, sends (R498). -/
  unacked : List (Nat × Nat × List Byte × Nat)
  deriving DecidableEq, Repr

/-- A record of a permute map (R509). -/
structure Seg where
  localOff : Nat
  peerRank : Nat
  peerOff : Nat
  /-- Length in 4 KiB units. -/
  units : Nat
  /-- Outgoing: copied to the staging object. -/
  staged : Bool
  deriving DecidableEq, Repr

/-- A collective operation (R489, R496). -/
structure CollOp where
  part : Nat
  gid : Nat
  opseq : Nat
  /-- PACE of its packets; the exchange's own pair and then its sum, and I and T of the step in units (R512). -/
  pace : Bool
  own : List Byte
  idle : Nat
  step : Nat
  attempt : Nat
  /-- OP of R489. -/
  op : Nat
  dt : Nat
  rop : Nat
  root : Nat
  off : Nat
  len : Nat
  /-- Lowest step to run from (R504). -/
  fromStep : Nat
  chunks : Tab Chunk
  /-- TB units of the last packet accepted or acknowledged (R503). -/
  last : Nat
  /-- Launch and bucket of a bucket reduction, or launch of a re-shard or a handover. -/
  launch : Option Nat
  bucket : Option Nat
  /-- Segments of a permute, offsets of the 4 KiB units that have landed, and the base of its staging object. -/
  segOut : List Seg
  segIn : List Seg
  landed : List Nat
  staging : Option Nat
  /-- Waits for one of the 16 places (R501). -/
  waiting : Bool
  /-- Final at this member; its record answers duplicates. -/
  done : Bool
  /-- Abort cause, of an operation in the aborted table (R507, R511). -/
  cause : W32
  /-- Order of the command that it completes. -/
  cmd : Option Nat
  deriving DecidableEq, Repr

/-- A pending re-shard or handover of a launch (R435, R508, R514). -/
structure Reshard where
  part : Nat
  launch : Nat
  gid : Nat
  opseq : Nat
  /-- Order of its command. -/
  cmd : Nat
  new : Nat
  switched : Bool
  /-- Objects named and whether each is open to NEW; of a handover, the objects to copy. -/
  objects : List (Nat × Bool)
  /-- Ranges whose outgoing segments are staged: bucket numbers, and 256 + index of an object named. -/
  applied : List Nat
  segOut : List Seg
  segIn : List Seg
  staging : Option Nat
  handover : Bool
  deriving DecidableEq, Repr

/-- The engine. -/
structure Coll where
  /-- Groups by partition × 65,536 + GID. -/
  groups : Tab Group
  ops : List CollOp
  /-- Aborted operations, oldest first, at most 16 (R503). -/
  aborted : List CollOp
  reshards : List Reshard
  straggler : Bool
  slowSteps : Nat
  lagUs : W32
  stepUs : W32
  deriving DecidableEq, Repr

/-! ## Host interface (R520 to R563) -/

/-- A mailbox (R528 to R534). -/
structure Mailbox where
  enable : Bool
  order : Bool
  /-- Slots of banks A and B: 64 descriptors of 64 bytes, by slot; words marked bad by slot × 8 + word. -/
  bankA : Tab (BitVec 512)
  bankB : Tab (BitVec 512)
  bad : List Nat
  fill : Bool
  fillOpen : Bool
  /-- Untaken slots of the banks, in slot order. -/
  pendA : List Nat
  pendB : List Nat
  /-- Bank B was committed before bank A. -/
  bFirst : Bool
  cqBase : W64
  sizeLog2 : Nat
  coalesceN : Nat
  coalesceUs : Nat
  head : W32
  posted : W32
  postedAddr : W64
  taken : W32
  refused : Nat
  cqStalled : Bool
  /-- Completions held while writes to host memory fail (R562). -/
  heldCq : List (W32 × W32 × W64 × Bool)
  /-- Entries posted since the last vector 0, and the TB units of the oldest (R534). -/
  unsignalled : Nat
  oldest : Nat
  /-- MSI-X table and pending bits. -/
  msixTable : Tab W64
  msixPending : BitVec 4
  deriving DecidableEq, Repr

/-- A command in progress (R532). -/
structure Cmd where
  fn : Nat
  d : BitVec 512
  /-- Order taken. -/
  order : Nat
  /-- The row has started it (R535 FENCE). -/
  started : Bool
  /-- Partition it acts on. -/
  part : Nat
  /-- Counts, page numbers and offsets that a long command keeps. -/
  a : Nat
  b : Nat
  /-- Its function was reset: the completion is dropped (R525). -/
  drop : Bool
  /-- It came over a secured session of the management port, with its inline data, and its completion goes back there
  (R588). -/
  session : Option (Nat × List Byte)
  deriving DecidableEq, Repr

/-- The Wellhead and the PCIe port. -/
structure HostIf where
  mailboxes : Tab Mailbox
  inProgress : List Cmd
  order : Nat
  /-- Rotating pointer of R532. -/
  rotor : Nat
  heartbeat : W32
  cmdsDropped : Nat
  completed : W32
  numVfs : Nat
  /-- PX_LINK. -/
  speed : Nat
  width : Nat
  flit : Bool
  l0p : Bool
  perst : Bool
  urReads : W32
  droppedWrites : W32
  /-- Replies that found no operation under way under their tag (R107, R120). -/
  repliesDropped : Nat
  /-- DONE generation streams whose POSITION_LIMIT has been reported (R275). -/
  limitsTold : List Nat
  deriving DecidableEq, Repr

/-! ## The state -/

/-- Module states (R35). -/
inductive Mode where
  | boot
  | ready
  | service
  | withdrawn
  deriving DecidableEq, Repr

/-- A tile in a fault-return deque, with its partition (R302, R307). -/
structure FrItem where
  part : Nat
  tile : Tile
  deriving DecidableEq, Repr

/-- The machine. -/
structure State where
  /-- Commands waiting, first in, first out: the model's own interface. -/
  pending : List Instr
  mode : Mode
  /-- Registers that are stored as they read: counters, fault registers, RW fields, by local address.
  A register not listed holds its reset value. -/
  regs : Tab W64
  clk : Clocks
  pwr : Power
  watch : Watch
  grotto : Grotto
  dbg : Debug
  rills : Tab Rill
  /-- Contexts by partition × 65,536 + context number. -/
  ctxs : Tab Context
  /-- Fault-return deques and their overflow lists by cascade (R302, R308). -/
  frqs : Tab (List FrItem)
  frqOver : Tab (List FrItem)
  /-- Stream table: entries by number; one not listed is FREE with GEN 0. -/
  streams : Tab (BitVec 1024)
  /-- Cascade stream caches: copies by stream, by cascade (R260). -/
  streamCaches : Tab (Tab StreamCopy)
  parts : Tab Part
  mem : Mem
  fabric : Fabric
  coll : Coll
  host : HostIf
  /-- The hot-swap switch of the input (R667). -/
  input : PowerIn
  /-- What the module has sent, oldest first. -/
  out : List Out
  /-- The model's own counter behind free values (not the spec's). -/
  free : Nat
  deriving DecidableEq, Repr

/-! ## Reset values

Where the spec states a reset value it stands here; the values that it leaves open are named in
notes/assumptions/1.md (DESIGN CHOICE). -/

/-- A terrace after power-on: OPP 0, CEILING 3 (R604, R639). -/
def Terrace.reset : Terrace :=
  { ceiling := 3, running := 0, capHold := 0, highLoops := 0, lowLoops := 0, g := 0,
    stretch := none, cycles := 0 }

def Clocks.reset : Clocks :=
  { crystal := false, xtalGood := 0, xtalPrev := none, sysrefLock := false, arrLock := 0, tbRuns := false,
    tb := 0, boot := 0, timeValid := false, offset := 0, slew := 0, failed := 0,
    terr := ⟨Terrace.reset, Terrace.reset, Terrace.reset, Terrace.reset⟩ }

def DayRec.reset : DayRec := { began := 0, total := 0, excluded := 0, lost := 0 }

/-- CAP is 0x73A W after reset (R641). -/
def Power.reset : Power :=
  { cap := 0x73A, capNext := none, held := false, withdrawCause := 0, kept := none, wellheadLast := none,
    esc := none, recovery := none, resetting := none, cleared := false, reload := false, withdrawing := 0, ptTotal := 0,
    ptExcluded := 0, ptLost := 0, withdrawn := 0, days := [], today := DayRec.reset }

def PowerIn.reset : PowerIn := { on := true, tripped := false, retries := 0 }

def Watch.reset : Watch := { running := false, misses := 0, seen := 0, missStart := 0 }

/-- The defaults of R574. -/
def Slate.default : Slate :=
  { escCount := 3, escWindowS := 600, holdOnHang := false, powerCapW := 1850, oppAllowed := 0xF,
    tempWarn := 95, tempCrit := 105, nodeId := 255, nodeCount := 8, mgmtRoot := none, beaconMs := 1000,
    ownerKey := none }

/-- The record of a new module: firmware in both copies, no owner (R676, R591). -/
def Record.new : Record :=
  { rpmc := 0, svnG := 0, svnW := 0, activeG := false, activeW := false, trialG := false, trialW := false,
    owner := none, authentic := true }

/-- A sensor that has not been sampled. -/
def Sensor.reset : Sensor := { value := 0, valid := false, warn := false, crit := false, since := none }

def Grotto.reset : Grotto :=
  { stage := 0, powerStage := 1, slateSel := 0, slateSeq := 0, slate := Slate.default, recordA := Record.new,
    recordB := { Record.new with authentic := false }, rpmc := 0, grottoSlot := false, wellheadSlot := false,
    grottoVer := 0, wellheadVer := 0, stagedG := none, stagedW := none, factory := [0, 1, 2, 3], nor := [], log := [], norLog := [],
    nextSeq := 0, limits := [], lastFatal := 0, sensors := [], identify := none, handshakes := [],
    sessions := [], plcaLost := false, plcaHeard := 0, lastAnswer := none, stageSince := 0, waitTold := false,
    ledUntil := none, restart := none,
    measG := 0, measW := 0, measS := 0 }

def Debug.reset : Debug := { records := [], cleared := [], samplers := [], rotors := [] }

def MxArray.reset : MxArray :=
  { owner := none, phase := .idle, cur := none, passNo := 0, set := 0, steps := 0, done := 0, w := [],
    acc0 := [], acc1 := [], streams := [], badAcc := [] }

def VxEngine.reset : VxEngine :=
  { cur := none, beats := 0, wide := false, selfCheck := false, dDesc := 0, aDesc := 0, bDesc := 0,
    spring := 0, key := 0, hyper := 0, bcastA := [], bcastB := [], streams := [] }

/-- A rill that holds nothing. -/
def Rill.reset : Rill :=
  { frames := [], port0 := 0, port1 := 0, icache := [], mxQ := [], vxQ := [], order := 0, lsWait := [],
    trackers := [], array := MxArray.reset, vector := VxEngine.reset, poison := [], hitBanks := [],
    bankPtr := [], lastUser := [], stealPtr := [], swap := none, cyclesOff := 0 }

/-- The grant of no partition. -/
def Grant.none : Grant := { cascades := 0, groups := 0, ways := 0, streams := 0 }

/-- A partition in state NONE (R293). -/
def Part.reset : Part :=
  { state := 0, serving := false, vf := 0, grant := Grant.none, newGrant := .none, stage := 0,
    oldCascades := 0, quotaH := 0,
    quotaD := 0, quotaF := 0, keys := [], accept := [], graphs := [], launches := [], objects := [],
    pages := [], rotorH := 0, rotorD := 0, rotorF := 0, buckets := [], schedule := .none,
    nextSchedule := .none, retired := [], drains := [], norms := [] }

def Mem.reset : Mem :=
  { cells := [], lineCells := [], lines := [], flash := [], host := [], poison := [], retired := [],
    rowErrs := [], lastReq := [], clock := 0, badRecords := [], xlat := [] }

/-- A port after reset: DOWN (R481). -/
def Port.reset : Port :=
  { state := 1, live := 0, miswired := false, foreign := false, nb := none, fast := false, nextSeq := 0,
    acked := 0xFFF, accepted := 0xFFF, window := [], queue := [], ackSent := 0xFFF, credits := [], owed := [],
    since := 0, record := none }

/-- An in-package link after reset: 16 groups (R482). -/
def Ipl.reset : Ipl := { groups := 16, spareUsed := false, lost := false }

/-- Unassigned (R483). -/
def Fabric.reset : Fabric :=
  { chip := 0xFFFF, fabricId := 0, spare := false, timeMaster := false, timeParent := 7, x := 0, y := 0, z := 0,
    ringX := 1, ringY := 1, ringZ := 1, ports := [], ipls := [], dest := [], rotors := [], partials := [], waiting := [] }

def Coll.reset : Coll :=
  { groups := [], ops := [], aborted := [], reshards := [], straggler := false, slowSteps := 0, lagUs := 0,
    stepUs := 0 }

/-- A mailbox after reset (R558): COALESCE_N 1, SIZE_LOG2 6. -/
def Mailbox.reset : Mailbox :=
  { enable := false, order := false, bankA := [], bankB := [], bad := [], fill := false, fillOpen := false,
    pendA := [], pendB := [], bFirst := false, cqBase := 0, sizeLog2 := 6, coalesceN := 1, coalesceUs := 0,
    head := 0, posted := 0, postedAddr := 0, taken := 0, refused := 0, cqStalled := false, heldCq := [],
    unsignalled := 0, oldest := 0, msixTable := [], msixPending := 0 }

def HostIf.reset : HostIf :=
  { mailboxes := [], inProgress := [], order := 0, rotor := 0, heartbeat := 0,
    cmdsDropped := 0, completed := 0, numVfs := 0, speed := 0, width := 0, flit := false, l0p := false,
    perst := true, urReads := 0, droppedWrites := 0, repliesDropped := 0, limitsTold := [] }

/-- The machine right after a module power-on reset of a new module (R15, R617): state BOOT, stage 1 of the
power-up sequence, Grotto in its ROM, every register at its reset value, no command waiting. -/
def State.reset : State :=
  { pending := [], mode := .boot, regs := [], clk := Clocks.reset, pwr := Power.reset, watch := Watch.reset,
    grotto := Grotto.reset, dbg := Debug.reset, rills := [], ctxs := [], frqs := [], frqOver := [],
    streams := [], streamCaches := [], parts := [], mem := Mem.reset, fabric := Fabric.reset,
    coll := Coll.reset, host := HostIf.reset, input := PowerIn.reset, out := [], free := 0 }

end Sys2Proof.Machine
end

