-- ==== Sys2Proof/Machine/Ops.lean ====
section
/-! DEFINITION. Named operations over the tables, the memories and the parts of the state. -/

namespace Sys2Proof

/-- Value of a table at a key. -/
def Tab.at? {α : Type} : Tab α → Nat → Option α
  | [], _ => none
  | (k, v) :: t, n => if n = k then some v else Tab.at? t n

/-- The table with `v` at key `n`, keys rising. -/
def Tab.put {α : Type} : Tab α → Nat → α → Tab α
  | [], n, v => [(n, v)]
  | (k, w) :: t, n, v =>
    if n < k then (n, v) :: (k, w) :: t
    else if n = k then (n, v) :: t
    else (k, w) :: Tab.put t n v

/-- The table without key `n`. -/
def Tab.del {α : Type} (t : Tab α) (n : Nat) : Tab α := t.filter (fun p => decide (p.1 ≠ n))

/-- Value at a key, or a default. -/
def Tab.getD {α : Type} (t : Tab α) (n : Nat) (d : α) : α := (t.at? n).getD d

/-- Change the value at a key that is listed. -/
def Tab.upd {α : Type} (t : Tab α) (n : Nat) (f : α → α) : Tab α :=
  match t.at? n with
  | some v => t.put n (f v)
  | none => t

/-- Keys of a table. -/
def Tab.keys {α : Type} (t : Tab α) : List Nat := t.map (·.1)

/-- Values of a table. -/
def Tab.vals {α : Type} (t : Tab α) : List α := t.map (·.2)

/-- Change every value. -/
def Tab.mapV {α β : Type} (t : Tab α) (f : Nat → α → β) : Tab β := t.map (fun p => (p.1, f p.1 p.2))

/-- Keep the pairs that satisfy a test. -/
def Tab.keep {α : Type} (t : Tab α) (f : Nat → α → Bool) : Tab α := t.filter (fun p => f p.1 p.2)

/-- Keys strictly rising. -/
def Tab.sorted {α : Type} : Tab α → Bool
  | [] => true
  | [_] => true
  | p :: q :: t => decide (p.1 < q.1) && Tab.sorted (q :: t)

namespace Machine

/-! ## Four things -/

def Four.get {α : Type} (f : Four α) (d : Nat) : α :=
  match d with
  | 0 => f.d0
  | 1 => f.d1
  | 2 => f.d2
  | _ => f.d3

def Four.set {α : Type} (f : Four α) (d : Nat) (v : α) : Four α :=
  match d with
  | 0 => { f with d0 := v }
  | 1 => { f with d1 := v }
  | 2 => { f with d2 := v }
  | 3 => { f with d3 := v }
  | _ => f

def Four.map {α β : Type} (f : Four α) (g : α → β) : Four β := ⟨g f.d0, g f.d1, g f.d2, g f.d3⟩

def Four.mapI {α β : Type} (f : Four α) (g : Nat → α → β) : Four β := ⟨g 0 f.d0, g 1 f.d1, g 2 f.d2, g 3 f.d3⟩

/-! ## Bit fields and little-endian bytes (R6, R7) -/

/-- Bits [lo + w − 1 : lo] of a number. -/
def bits (v lo w : Nat) : Nat := v / 2 ^ lo % 2 ^ w

/-- The number with bits [lo + w − 1 : lo] replaced. -/
def setBits (v lo w x : Nat) : Nat :=
  v % 2 ^ lo + (x % 2 ^ w) * 2 ^ lo + v / 2 ^ (lo + w) * 2 ^ (lo + w)

/-- Bit `n` of a number. -/
def bit (v n : Nat) : Bool := v / 2 ^ n % 2 = 1

/-- A Bool as 0 or 1. -/
def b2n (b : Bool) : Nat := if b then 1 else 0

/-- Little-endian value of bytes (R7). -/
def leNat : List Byte → Nat
  | [] => 0
  | b :: t => b.toNat + 256 * leNat t

/-- The `n` little-endian bytes of a value (R7). -/
def leBytes : Nat → Nat → List Byte
  | 0, _ => []
  | n + 1, v => BitVec.ofNat 8 v :: leBytes n (v / 256)

/-- Two's-complement reading of the low `w` bits. -/
def toSigned (w v : Nat) : Int :=
  let x := v % 2 ^ w
  if 2 ^ (w - 1) ≤ x then (x : Int) - (2 ^ w : Nat) else x

/-- A number as the low `w` bits, two's complement. -/
def ofInt (w : Nat) (i : Int) : Nat := (i % ((2 ^ w : Nat) : Int)).toNat

/-- Round up to a multiple. -/
def roundUp (a m : Nat) : Nat := (a + m - 1) / m * m

/-! ## Memories

A memory is a list of (address, byte) pairs in canonical form: addresses strictly rising and no byte 0,
since an address that is not listed reads 0 (notes/assumptions/2.md). -/

/-- The byte at an address. -/
def Memory.read (m : List Host.Cell) (a : Nat) : Byte := (Tab.at? m a).getD 0

/-- The memory with a byte written. -/
def Memory.write (m : List Host.Cell) (a : Nat) (b : Byte) : List Host.Cell :=
  if b = 0 then Tab.del m a else Tab.put m a b

/-- The canonical form. -/
def Memory.wf (m : List Host.Cell) : Bool := Tab.sorted m && m.all (fun p => decide (p.2 ≠ 0))

/-- `n` bytes from an address. -/
def Memory.readN (m : List Host.Cell) (a : Nat) : Nat → List Byte
  | 0 => []
  | n + 1 => Memory.read m a :: Memory.readN m (a + 1) n

/-- Bytes written from an address on. -/
def Memory.writeN (m : List Host.Cell) (a : Nat) : List Byte → List Host.Cell
  | [] => m
  | b :: t => Memory.writeN (Memory.write m a b) (a + 1) t

/-- Every byte of [a, a + n) set to 0. -/
def Memory.zero (m : List Host.Cell) (a n : Nat) : List Host.Cell :=
  m.filter (fun p => decide (p.1 < a ∨ a + n ≤ p.1))

/-- The cells of [a, a + n), moved to start at `b`. -/
def Memory.slice (m : List Host.Cell) (a n b : Nat) : List Host.Cell :=
  (m.filter (fun p => decide (a ≤ p.1 ∧ p.1 < a + n))).map (fun p => (p.1 - a + b, p.2))

/-- Little-endian value of `n` bytes. -/
def Memory.le (m : List Host.Cell) (a n : Nat) : Nat := leNat (Memory.readN m a n)

/-! ## Time (R10, R599, R602, R615) -/

/-- The time on which durations run, in units: the boot timer, and TB from the value that it had reached (R615). -/
def State.now (s : State) : Nat := s.clk.boot + s.clk.tb

/-- TB in ns (R599). -/
def State.tbNs (s : State) : Nat := s.clk.tb / Config.unitsPerNs

/-- The stamp of a log entry: TB in ns, or the boot timer with bit 63 set until TB has started (R615). -/
def State.stamp (s : State) : Nat :=
  if s.clk.tbRuns || s.clk.tb ≠ 0 then s.clk.tb / Config.unitsPerNs % 2 ^ 64
  else s.clk.boot / Config.unitsPerNs % 2 ^ 63 + 2 ^ 63

/-- Units of a number of ns. -/
def nsU (n : Nat) : Nat := n * Config.unitsPerNs

/-! ## Parts of the state -/

def State.rill (s : State) (r : Nat) : Rill := s.rills.getD r Rill.reset

def State.setRill (s : State) (r : Nat) (v : Rill) : State := { s with rills := s.rills.put r v }

def State.part (s : State) (p : Nat) : Part := s.parts.getD p Part.reset

def State.setPart (s : State) (p : Nat) (v : Part) : State := { s with parts := s.parts.put p v }

/-- Key of a context in the table (R120). -/
def ctxKey (part ctx : Nat) : Nat := part * 65536 + ctx

def keyPart (k : Nat) : Nat := k / 65536

def keyNum (k : Nat) : Nat := k % 65536

def State.ctx? (s : State) (k : Nat) : Option Context := s.ctxs.at? k

def State.setCtx (s : State) (k : Nat) (c : Context) : State := { s with ctxs := s.ctxs.put k c }

def State.mailbox (s : State) (f : Nat) : Mailbox := s.host.mailboxes.getD f Mailbox.reset

def State.setMailbox (s : State) (f : Nat) (m : Mailbox) : State :=
  { s with host := { s.host with mailboxes := s.host.mailboxes.put f m } }

def State.port (s : State) (p : Nat) : Port := s.fabric.ports.getD p Port.reset

def State.setPort (s : State) (p : Nat) (v : Port) : State :=
  { s with fabric := { s.fabric with ports := s.fabric.ports.put p v } }

def State.ipl (s : State) (i : Nat) : Ipl := s.fabric.ipls.getD i Ipl.reset

def State.setIpl (s : State) (i : Nat) (v : Ipl) : State :=
  { s with fabric := { s.fabric with ipls := s.fabric.ipls.put i v } }

def State.terrace (s : State) (d : Nat) : Terrace := s.clk.terr.get d

def State.setTerrace (s : State) (d : Nat) (t : Terrace) : State :=
  { s with clk := { s.clk with terr := s.clk.terr.set d t } }

def State.launch? (s : State) (p h : Nat) : Option Launch := (s.part p).launches.at? h

def State.setLaunch (s : State) (p h : Nat) (l : Launch) : State :=
  s.setPart p { s.part p with launches := (s.part p).launches.put h l }

/-- Something sent outside. -/
def State.emit (s : State) (o : Out) : State := { s with out := s.out ++ [o] }

/-- A fresh index for a free value. -/
def State.fresh (s : State) : State := { s with free := s.free + 1 }

/-- One of the things in a list, which one left open (notes/assumptions/21.md). -/
def State.choose {α : Type} (s : State) (l : List α) : Option α := l[Config.pick s.free % l.length]?

/-! ## Counter records (R643, R644) -/

/-- Add to an entry of a record; the count wraps after 2^63 − 1. -/
def bumpRecord (t : Tab (Tab Nat)) (k e n : Nat) : Tab (Tab Nat) :=
  t.put k ((t.getD k []).put e (((t.getD k []).getD e 0 + n) % 2 ^ 63))

/-- Credit an event to a partition (16 or more: to none) and to the module. -/
def State.credit (s : State) (p e n : Nat) : State :=
  let t := bumpRecord s.dbg.records 16 e n
  { s with dbg := { s.dbg with records := if p < 16 then bumpRecord t p e n else t } }

/-- Zero a record; what it held is kept for reads in the same cycle (R645, R648). -/
def State.clearRecord (s : State) (k : Nat) : State :=
  let old := s.dbg.records.getD k []
  { s with dbg := { s.dbg with records := s.dbg.records.del k, cleared := s.dbg.cleared.put k (s.now, old) } }

/-- Partition that holds a rill, 16 for none. -/
def State.partOfRill (s : State) (r : Nat) : Nat :=
  match s.parts.find? (fun p => decide (p.2.state ≠ 0) && bit p.2.grant.cascades.toNat (r / 16)) with
  | some p => p.1
  | none => 16

/-- Credit an event of a rill. -/
def State.creditRill (s : State) (r e n : Nat) : State := s.credit (s.partOfRill r) e n

/-! ## Stored registers (R12 to R16) -/

/-- A field of a stored register: local address, lowest bit, width. -/
structure Fld where
  addr : Nat
  lo : Nat
  wd : Nat
  deriving DecidableEq, Repr

/-- Base of the register block with an index (R41). -/
def blockBase (i : Nat) : Nat := 0x080000000000 + i * 0x1000000

/-- Reset value of a stored register (the Reset columns of the chapters); 0 where no field has another. -/
def regReset (a : Nat) : Nat :=
  let i := (a - 0x080000000000) / 0x1000000
  let o := (a - 0x080000000000) % 0x1000000
  if i = 0x07 ∧ o % 0x4000 = 0 then 1
  else if i = 0x0F ∧ o < 0x80000 ∧ o % 0x10000 = 0 then 3
  else if i = 0x0F ∧ 0x100000 ≤ o ∧ o % 0x10000 = 0 then 1
  else if i = 0x10 ∧ o % 0x10000 = 0 then 1
  else if i = 0x10 ∧ o % 0x10000 = 8 then 0x1000 * 2 ^ 31
  else if i = 0x11 ∧ o < 0x40000 ∧ o % 0x10000 = 0 then 1
  else if i = 0x06 ∧ o = 0 then 0xA
  else if i = 0x0B ∧ o = 0 then 0x107D0
  else if i = 0x0D ∧ o < 0x18000 ∧ o % 0x1000 = 0 then 0x3D
  else if i = 0x0D ∧ 0x30000 ≤ o ∧ o < 0x34000 ∧ o % 0x1000 = 0 then 0x2840
  else if i = 0x0E ∧ o = 0 then 0x03E80064
  else if i = 0x03 ∧ o = 0x20 then 1
  else if i = 0x04 ∧ 0x100 ≤ o ∧ o < 0x200 ∧ o % 0x40 = 8 then 0x03E832
  else if i = 0x12 ∧ o = 0 then 1
  else 0

/-- The value of a stored register. -/
def State.reg (s : State) (a : Nat) : Nat :=
  match s.regs.at? a with
  | some v => v.toNat
  | none => regReset a

/-- A stored register set; a register at its reset value is not listed. -/
def State.setReg (s : State) (a v : Nat) : State :=
  if v % 2 ^ 64 = regReset a then { s with regs := s.regs.del a }
  else { s with regs := s.regs.put a (BitVec.ofNat 64 v) }

/-- The value of a field. -/
def State.getF (s : State) (f : Fld) : Nat := bits (s.reg f.addr) f.lo f.wd

/-- A field set. -/
def State.setF (s : State) (f : Fld) (v : Nat) : State := s.setReg f.addr (setBits (s.reg f.addr) f.lo f.wd v)

/-- A counter field that wraps. -/
def State.addF (s : State) (f : Fld) (n : Nat) : State := s.setF f (s.getF f + n)

/-- A counter field that saturates. -/
def State.satF (s : State) (f : Fld) (n : Nat) : State := s.setF f (min (s.getF f + n) (2 ^ f.wd - 1))

end Machine

end Sys2Proof
end

