-- ==== Sys2Proof/Machine/Regs.lean ====
section
/-! DEFINITION. Addresses and fields of the stored registers: those whose value is not a view of
another part of the state (Machine/Registers.lean gives the views). -/

namespace Sys2Proof.Machine

open Sys2Proof

/-! ## Instances (R41, R127, R170, R219, R247, R283, R324, R360, R366, R368, R414, R480, R517, R528, R555,
R559, R591, R638, R640, R656) -/

def rlReg (r o : Nat) : Nat := blockBase 0x0A + r * 0x4000 + o
def arReg (r o : Nat) : Nat := blockBase 0x08 + r * 0x4000 + o
def vxReg (r o : Nat) : Nat := blockBase 0x09 + r * 0x4000 + o
def spReg (r o : Nat) : Nat := blockBase 0x07 + r * 0x4000 + o
def stReg (o : Nat) : Nat := blockBase 0x0C + o
def stCache (c o : Nat) : Nat := blockBase 0x0C + 0x1000 + c * 0x40 + o
def swReg (o : Nat) : Nat := blockBase 0x0B + o
def swRill (r o : Nat) : Nat := blockBase 0x0B + 0x10000 + r * 0x40 + o
def slReg (o : Nat) : Nat := blockBase 0x06 + o
def slPart (p o : Nat) : Nat := blockBase 0x06 + 0x1000 + p * 0x80 + o
def slMover (d o : Nat) : Nat := blockBase 0x06 + 0x2000 + d * 0x40 + o
def hbReg (st o : Nat) : Nat := blockBase 0x0F + st * 0x10000 + o
def pcReg (d o : Nat) : Nat := blockBase 0x0F + 0x100000 + d * 0x10000 + o
def ddReg (c o : Nat) : Nat := blockBase 0x10 + c * 0x10000 + o
def fsReg (d o : Nat) : Nat := blockBase 0x11 + d * 0x10000 + o
def fsStatus : Nat := blockBase 0x11 + 0x40000
def glPort (p o : Nat) : Nat := blockBase 0x0D + p * 0x1000 + o
def glIpl (i o : Nat) : Nat := blockBase 0x0D + 0x20000 + i * 0x1000 + o
def glRt (d o : Nat) : Nat := blockBase 0x0D + 0x30000 + d * 0x1000 + o
def ceReg (o : Nat) : Nat := blockBase 0x0E + o
def cePart (p o : Nat) : Nat := blockBase 0x0E + 0x1000 + p * 0x20 + o
def ceSlice (d o : Nat) : Nat := blockBase 0x0E + 0x2000 + d * 0x40 + o
def whReg (o : Nat) : Nat := blockBase 0x00 + o
def mbReg (f o : Nat) : Nat := blockBase 0x01 + f * 0x4000 + o
def pxReg (o : Nat) : Nat := blockBase 0x02 + o
def grReg (o : Nat) : Nat := blockBase 0x03 + o
def ckReg (o : Nat) : Nat := blockBase 0x04 + o
def ckTerr (d o : Nat) : Nat := blockBase 0x04 + 0x100 + d * 0x40 + o
def pwReg (o : Nat) : Nat := blockBase 0x05 + o
def dgReg (o : Nat) : Nat := blockBase 0x12 + o

/-! ## Rill (R128 to R134) -/

def rlOutOfService (r : Nat) : Fld := ⟨rlReg r 0, 0, 1⟩
def rlHighWater (r : Nat) : Fld := ⟨rlReg r 0x38, 8, 8⟩
def rlFault (r : Nat) : Nat := rlReg r 0x40
def rlEccCorrected (r : Nat) : Fld := ⟨rlReg r 0x58, 0, 16⟩

/-! ## Array (R171 to R179) -/

def arDisable (r : Nat) : Fld := ⟨arReg r 0, 0, 1⟩
def arFlag (r n : Nat) : Fld := ⟨arReg r 0x20, n, 1⟩
def arFrz (r k : Nat) : Fld := ⟨arReg r (0x28 + 8 * k), 0, 48⟩
def arCommitted (r : Nat) : Fld := ⟨arReg r 0x50, 0, 32⟩
def arAbandoned (r : Nat) : Fld := ⟨arReg r 0x50, 32, 32⟩
def arEccCorrected (r : Nat) : Fld := ⟨arReg r 0x58, 0, 16⟩
def arEccUncorrected (r : Nat) : Fld := ⟨arReg r 0x58, 16, 16⟩
def arFault (r : Nat) : Nat := arReg r 0x60

/-! ## Vector engine (R220 to R225) -/

def vxDisable (r : Nat) : Fld := ⟨vxReg r 0, 0, 1⟩
def vxFlag (r n : Nat) : Fld := ⟨vxReg r 0x10, n, 1⟩
def vxBeats (r : Nat) : Fld := ⟨vxReg r 0x18, 0, 48⟩
def vxStall (r k : Nat) : Fld := ⟨vxReg r (0x20 + 8 * k), 0, 48⟩
def vxSpring (r : Nat) : Fld := ⟨vxReg r 0x40, 0, 48⟩
def vxEccCorrected (r : Nat) : Fld := ⟨vxReg r 0x48, 0, 16⟩
def vxEccUncorrected (r : Nat) : Fld := ⟨vxReg r 0x48, 16, 16⟩
def vxFault (r : Nat) : Nat := vxReg r 0x50

/-! ## Scratchpad (R248 to R253) -/

def spScrubEn (r : Nat) : Fld := ⟨spReg r 0, 0, 1⟩
def spSparesUsed (r : Nat) : Fld := ⟨spReg r 8, 0, 2⟩
def spSpareBank (r k : Nat) : Fld := ⟨spReg r 8, 2 + 7 * k, 7⟩
def spHard (r : Nat) : Fld := ⟨spReg r 8, 16, 1⟩
def spEccCorrected (r : Nat) : Fld := ⟨spReg r 0x10, 0, 16⟩
def spEccUncorrected (r : Nat) : Fld := ⟨spReg r 0x10, 16, 16⟩
def spEccScrub (r : Nat) : Fld := ⟨spReg r 0x10, 32, 16⟩
def spEccOffset (r : Nat) : Fld := ⟨spReg r 0x18, 0, 20⟩
def spEccKind (r : Nat) : Fld := ⟨spReg r 0x18, 20, 1⟩
def spWaitThread (r : Nat) : Fld := ⟨spReg r 0x20, 0, 48⟩
def spWaitEngine (r : Nat) : Fld := ⟨spReg r 0x28, 0, 48⟩
def spWaitDma (r : Nat) : Fld := ⟨spReg r 0x30, 0, 48⟩
def spAtomics (r : Nat) : Fld := ⟨spReg r 0x38, 0, 48⟩
def spFault (r : Nat) : Nat := spReg r 0x40

/-! ## Stream table (R284 to R289) -/

def stEccCorrected : Fld := ⟨stReg 0x10, 0, 16⟩
def stEccUncorrected : Fld := ⟨stReg 0x10, 16, 16⟩
def stFault : Nat := stReg 0x18
def stFaultStream : Fld := ⟨stReg 0x18, 34, 14⟩
def stHit (c : Nat) : Fld := ⟨stCache c 0, 0, 48⟩
def stMiss (c : Nat) : Fld := ⟨stCache c 8, 0, 48⟩
def stWait (c : Nat) : Fld := ⟨stCache c 0x10, 0, 48⟩

/-! ## Spillway (R325 to R331) -/

def swSwapHold : Fld := ⟨swReg 0, 0, 16⟩
def swSwapEn : Fld := ⟨swReg 0, 16, 1⟩
def swFault : Nat := swReg 0x10
/-- Steals by level 0 to 3 (R304). -/
def swSteals (r lv : Nat) : Fld := ⟨swRill r 8, 16 * lv, 16⟩
def swSaves (r : Nat) : Fld := ⟨swRill r 0x10, 0, 32⟩
def swRestores (r : Nat) : Fld := ⟨swRill r 0x10, 32, 32⟩
def swPreLast (r : Nat) : Fld := ⟨swRill r 0x18, 0, 16⟩
def swPreMax (r : Nat) : Fld := ⟨swRill r 0x18, 16, 16⟩

/-! ## Sluice (R415 to R419) -/

def slQuotaWait : Fld := ⟨slReg 0, 0, 16⟩
def slEccCorrected : Fld := ⟨slReg 0x10, 0, 16⟩
def slEccUncorrected : Fld := ⟨slReg 0x10, 16, 16⟩
def slFault : Nat := slReg 0x18
/-- Stall counters in the order of R396: 0 QUOTA, 1 MOVE, 2 IMAGE, 3 WINDOW, 4 DEMAND. -/
def slStall (p k : Nat) : Fld := ⟨slPart p (0x20 + 8 * k), 0, 48⟩
def slUp (d : Nat) : Fld := ⟨slMover d 0, 0, 48⟩
def slDown (d : Nat) : Fld := ⟨slMover d 8, 0, 48⟩

/-! ## HBM, pool caches, DDR5, flash (R361 to R369) -/

def hbScrubEn (n : Nat) : Fld := ⟨hbReg n 0, 0, 1⟩
def hbRepairEn (n : Nat) : Fld := ⟨hbReg n 0, 1, 1⟩
def hbTrained (n : Nat) : Fld := ⟨hbReg n 8, 0, 1⟩
def hbSelfRefresh (n : Nat) : Fld := ⟨hbReg n 8, 1, 1⟩
def hbHotBit (n : Nat) : Fld := ⟨hbReg n 8, 2, 1⟩
def hbTemp (n : Nat) : Fld := ⟨hbReg n 8, 3, 8⟩
def hbRetired (n : Nat) : Fld := ⟨hbReg n 8, 11, 16⟩
def hbRepairs (n : Nat) : Fld := ⟨hbReg n 8, 27, 16⟩
/-- ECC counters: 0 CORRECTED, 1 UNCORRECTED, 2 SCRUB_CORRECTED, 3 ONDIE_CORRECTED. -/
def hbEcc (n k : Nat) : Fld := ⟨hbReg n 0x10, 16 * k, 16⟩
def hbEccOffset (n : Nat) : Fld := ⟨hbReg n 0x18, 0, 37⟩
def hbEccPch (n : Nat) : Fld := ⟨hbReg n 0x18, 37, 6⟩
def hbEccKind (n : Nat) : Fld := ⟨hbReg n 0x18, 43, 1⟩
def hbReads (n : Nat) : Fld := ⟨hbReg n 0x28, 0, 48⟩
def hbWrites (n : Nat) : Fld := ⟨hbReg n 0x30, 0, 48⟩
def hbFault (n : Nat) : Nat := hbReg n 0x38
def pcHit (d : Nat) : Fld := ⟨pcReg d 8, 0, 48⟩
def pcMiss (d : Nat) : Fld := ⟨pcReg d 0x10, 0, 48⟩
def pcAddwCount (d : Nat) : Fld := ⟨pcReg d 0x18, 0, 48⟩
def pcWb (d : Nat) : Fld := ⟨pcReg d 0x20, 0, 48⟩
def pcEcc (d k : Nat) : Fld := ⟨pcReg d 0x28, 16 * k, 16⟩
def pcFault (d : Nat) : Nat := pcReg d 0x30
def ddScrubEn (c : Nat) : Fld := ⟨ddReg c 0, 0, 1⟩
def ddPresent (c : Nat) : Fld := ⟨ddReg c 8, 0, 1⟩
def ddTrained (c : Nat) : Fld := ⟨ddReg c 8, 1, 1⟩
def ddInline (c : Nat) : Fld := ⟨ddReg c 8, 2, 1⟩
def ddSpeed (c : Nat) : Fld := ⟨ddReg c 8, 3, 2⟩
def ddPages (c : Nat) : Fld := ⟨ddReg c 8, 5, 18⟩
def ddTemp (c : Nat) : Fld := ⟨ddReg c 8, 23, 8⟩
def ddRecordsFree (c : Nat) : Fld := ⟨ddReg c 8, 31, 13⟩
def ddEcc (c k : Nat) : Fld := ⟨ddReg c 0x10, 16 * k, 16⟩
def ddEccOffset (c : Nat) : Fld := ⟨ddReg c 0x18, 0, 38⟩
def ddEccChannel (c : Nat) : Fld := ⟨ddReg c 0x18, 38, 1⟩
def ddEccKind (c : Nat) : Fld := ⟨ddReg c 0x18, 39, 1⟩
def ddReads (c : Nat) : Fld := ⟨ddReg c 0x20, 0, 48⟩
def ddWrites (c : Nat) : Fld := ⟨ddReg c 0x28, 0, 48⟩
def ddFault (c : Nat) : Nat := ddReg c 0x30
def fsMode : Fld := ⟨fsStatus, 0, 2⟩
def fsLife : Fld := ⟨fsStatus, 2, 7⟩
def fsSpare : Fld := ⟨fsStatus, 9, 7⟩
def fsPatrolEn (d : Nat) : Fld := ⟨fsReg d 0, 0, 1⟩
def fsRetried (d : Nat) : Fld := ⟨fsReg d 8, 0, 16⟩
def fsUncorrectedCount (d : Nat) : Fld := ⟨fsReg d 8, 16, 16⟩
def fsGrownBad (d : Nat) : Fld := ⟨fsReg d 0x10, 16, 16⟩
def fsRefreshes (d : Nat) : Fld := ⟨fsReg d 0x10, 32, 32⟩
def fsSectorsIn (d : Nat) : Fld := ⟨fsReg d 0x18, 0, 48⟩
def fsSectorsProg (d : Nat) : Fld := ⟨fsReg d 0x20, 0, 48⟩
def fsFault (d : Nat) : Nat := fsReg d 0x28

/-! ## Grestlink (R481, R482) -/

def glEnable (p : Nat) : Fld := ⟨glPort p 0, 0, 1⟩
def glLaneMask (p : Nat) : Fld := ⟨glPort p 0, 2, 4⟩
def glFecCorrected (p : Nat) : Fld := ⟨glPort p 0x18, 0, 16⟩
def glFecUncorrected (p : Nat) : Fld := ⟨glPort p 0x18, 16, 16⟩
def glLcrcFail (p : Nat) : Fld := ⟨glPort p 0x18, 32, 16⟩
def glLaneDrops (p : Nat) : Fld := ⟨glPort p 0x18, 48, 16⟩
def glTx (p : Nat) : Fld := ⟨glPort p 0x20, 0, 48⟩
def glRx (p : Nat) : Fld := ⟨glPort p 0x28, 0, 48⟩
def glReplays (p : Nat) : Fld := ⟨glPort p 0x30, 0, 16⟩
def glReplayDiscarded (p : Nat) : Fld := ⟨glPort p 0x30, 16, 16⟩
def glTruncatedCount (p : Nat) : Fld := ⟨glPort p 0x30, 32, 16⟩
def glPortFault (p : Nat) : Nat := glPort p 0x38
def glIplLcrc (i : Nat) : Fld := ⟨glIpl i 8, 0, 16⟩
def glIplReplays (i : Nat) : Fld := ⟨glIpl i 8, 16, 16⟩
def glIplFault (i : Nat) : Nat := glIpl i 0x10
def glHopLimit (d : Nat) : Fld := ⟨glRt d 0, 0, 8⟩
def glTruncUs (d : Nat) : Fld := ⟨glRt d 0, 8, 16⟩
def glLocalDetours (d : Nat) : Fld := ⟨glRt d 8, 0, 32⟩
def glSidesteps (d : Nat) : Fld := ⟨glRt d 8, 32, 32⟩
/-- Drop counters: 0 NO_ROUTE, 1 HOP_LIMIT, 2 HEADER_CRC, 3 REFUSED. -/
def glDrops (d k : Nat) : Fld := ⟨glRt d 0x10, 16 * k, 16⟩
def glRtEcc (d k : Nat) : Fld := ⟨glRt d 0x18, 16 * k, 16⟩
def glRtFault (d : Nat) : Nat := glRt d 0x20

/-! ## Collective engine (R518) -/

def ceResendUs : Fld := ⟨ceReg 0, 0, 16⟩
def ceStallMs : Fld := ⟨ceReg 0, 16, 16⟩
def ceFault : Nat := ceReg 0x18
def ceWaitBucket (p : Nat) : Fld := ⟨cePart p 0, 0, 48⟩
def ceWaitFence (p : Nat) : Fld := ⟨cePart p 8, 0, 48⟩
def ceOpsCompleted (p : Nat) : Fld := ⟨cePart p 0x10, 0, 32⟩
def ceOpsAborted (p : Nat) : Fld := ⟨cePart p 0x10, 32, 32⟩
def ceBytes (d : Nat) : Fld := ⟨ceSlice d 0, 0, 48⟩
def ceDup (d : Nat) : Fld := ⟨ceSlice d 8, 0, 48⟩
def ceResend (d : Nat) : Fld := ⟨ceSlice d 0x10, 0, 48⟩
def ceForeign (d : Nat) : Fld := ⟨ceSlice d 0x18, 0, 48⟩
def ceEcc (d k : Nat) : Fld := ⟨ceSlice d 0x20, 16 * k, 16⟩

/-! ## Wellhead, mailboxes, PCIe (R556, R558, R560) -/

def whEcc (k : Nat) : Fld := ⟨whReg 0x18, 16 * k, 16⟩
def whFault : Nat := whReg 0x20
def mbFault (f : Nat) : Nat := mbReg f 0x2048
/-- PX_ERR: 0 CORRECTED, 1 REPLAYS, 2 POISONED_RX, 3 TIMEOUTS. -/
def pxErr (k : Nat) : Fld := ⟨pxReg 8, 16 * k, 16⟩
/-- PX_SEAL: 0 RETRIED, 1 FAILED. -/
def pxSeal (k : Nat) : Fld := ⟨pxReg 0x20, 16 * k, 16⟩
def pxFault : Nat := pxReg 0x28

/-! ## Grotto (R592) -/

def grFolded : Fld := ⟨grReg 0x18, 32, 16⟩
def grT1sEnable : Fld := ⟨grReg 0x20, 0, 1⟩
/-- GR_T1S_DROP: 0 BAD_FCS, 1 RUNT_OR_LONG, 2 FOREIGN, 3 UNAUTH. -/
def grT1sDrop (k : Nat) : Fld := ⟨grReg 0x30, 16 * k, 16⟩
/-- GR_T1S_NOISE: 0 COLLISIONS, 1 JABBER, 2 SYMBOL_ERR, 3 BEACON_MISS. -/
def grT1sNoise (k : Nat) : Fld := ⟨grReg 0x38, 16 * k, 16⟩
def grEcc (k : Nat) : Fld := ⟨grReg 0x40, 16 * k, 16⟩
def grFault : Nat := grReg 0x48

/-! ## Clocks, power, debug (R639, R641, R657) -/

def ckFault : Nat := ckReg 0x18
def ckThreshold (d : Nat) : Fld := ⟨ckTerr d 8, 0, 8⟩
def ckHoldNs (d : Nat) : Fld := ⟨ckTerr d 8, 8, 16⟩
def ckDroopEvents (d : Nat) : Fld := ⟨ckTerr d 0x10, 0, 48⟩
def ckStretchNs (d : Nat) : Fld := ⟨ckTerr d 0x18, 0, 48⟩
/-- PW_RESETS: 0 AUTO, 1 HOST, 2 CASCADE, 3 HANGS. -/
def pwResets (k : Nat) : Fld := ⟨pwReg 0x20, 16 * k, 16⟩
def pwEvents : Fld := ⟨pwReg 0x28, 0, 32⟩
def pwLastNs : Fld := ⟨pwReg 0x28, 32, 24⟩
def pwUnion : Fld := ⟨pwReg 0x28, 56, 1⟩
def pwMaxNs : Fld := ⟨pwReg 0x30, 0, 24⟩
def pwFault : Nat := pwReg 0x50
def dgSampleEn : Fld := ⟨dgReg 0, 0, 1⟩
def dgRecords : Fld := ⟨dgReg 0x10, 0, 32⟩
def dgDropped : Fld := ⟨dgReg 0x10, 32, 16⟩
def dgCoincident : Fld := ⟨dgReg 0x18, 0, 16⟩

end Sys2Proof.Machine
end

