-- ==== Sys2Proof/Machine/Flags.lean ====
section
/-! DEFINITION. Flint codes as they are raised: the event log, the _FAULT registers, the interrupts, and the
sticky flags of the engines. -/

namespace Sys2Proof.Machine

open Sys2Proof

/-! ## MSI-X (R534) -/

/-- Vector `v` of function `f` is masked: bit 0 of the vector control word of its table entry, set after
reset as PCI Express gives it (PRESUMED, notes/assumptions/7.md). -/
def Mailbox.masked (m : Mailbox) (v : Nat) : Bool := bit (m.msixTable.getD (2 * v + 1) 0x100000000).toNat 32

/-- Send a vector, or set its pending bit while it is masked. -/
def State.msix (s : State) (f v : Nat) : State :=
  let m := s.mailbox f
  if m.masked v then s.setMailbox f { m with msixPending := m.msixPending ||| BitVec.ofNat 4 (2 ^ v) }
  else s.emit (.msix f v)

/-! ## Beacons and the module state (R35, R534, R583, R587) -/

/-- Code of a module state (R556). -/
def Mode.code : Mode → Nat
  | .boot => 0
  | .ready => 1
  | .service => 2
  | .withdrawn => 3

/-- Body of a beacon. -/
def State.beaconBody (s : State) : List Byte :=
  let f := s.fabric
  leBytes 8 Config.moduleId.toNat ++ leBytes 1 (if s.grotto.stage = 4 then 0xFF else s.mode.code) ++ leBytes 2 f.chip ++
    leBytes 4 f.fabricId.toNat ++ leBytes 1 f.x ++ leBytes 1 f.y ++ leBytes 1 f.z ++ leBytes 2 0x0302 ++
    leBytes 4 s.grotto.grottoVer ++ leBytes 4 s.grotto.wellheadVer ++ leBytes 4 s.grotto.lastFatal.toNat

/-- The management port runs: it is enabled, and the crystal drives it (R592, R595). -/
def State.portOn (s : State) : Bool := decide (s.getF grT1sEnable = 1) && s.clk.crystal

/-- Send a beacon. -/
def State.sendBeacon (s : State) : State := if s.portOn then s.emit (.beacon s.beaconBody) else s

/-- The module state changes: vector 2 goes to PF0, and a beacon out. -/
def State.setMode (s : State) (m : Mode) : State :=
  if s.mode = m then s else ({ s with mode := m }.msix 0 2).sendBeacon

/-! ## _FAULT registers (R132, R678) -/

/-- A code recorded in a _FAULT register: the first one stays, a further one sets OVERRUN. -/
def State.recordFault (s : State) (a : Nat) (code : BitVec 32) : State :=
  if bit (s.reg a) 32 then s.setReg a (setBits (s.reg a) 33 1 1)
  else s.setReg a (setBits (setBits (s.reg a) 0 32 code.toNat) 32 1 1)

/-- The _FAULT register that records codes of a unit class at an instance (R678). -/
def faultReg (unit inst : Nat) : Option Nat :=
  match unit with
  | 0x01 => if inst < 1024 then some (rlFault inst) else none
  | 0x02 => if inst < 1024 then some (arFault inst) else none
  | 0x03 => if inst < 1024 then some (vxFault inst) else none
  | 0x04 => if inst < 1024 then some (spFault inst) else none
  | 0x05 => some swFault
  | 0x06 => some slFault
  | 0x07 => if inst < 8 then some (hbFault inst)
            else if 0x100 ≤ inst ∧ inst < 0x104 then some (pcFault (inst - 0x100)) else none
  | 0x08 => if inst < 4 then some (ddFault inst) else none
  | 0x09 => if 0x100 ≤ inst ∧ inst < 0x104 then some (fsFault (inst - 0x100))
            else if inst < 16 then some (fsFault (inst / 4)) else none
  | 0x0A => if inst < 24 then some (glPortFault inst)
            else if 0x100 ≤ inst ∧ inst < 0x106 then some (glIplFault (inst - 0x100))
            else if 0x200 ≤ inst ∧ inst < 0x204 then some (glRtFault (inst - 0x200))
            else if inst = 0xFFF then some (glRtFault 0) else none
  | 0x0B => some ceFault
  | 0x0C => some pxFault
  | 0x0D => if inst = 0xFFF then some whFault else if inst < 16 then some (mbFault inst) else none
  | 0x0E => some grFault
  | 0x0F => if inst < 4 then some ckFault else if inst = 0xFFF then some pwFault else none
  | 0x11 => some stFault
  | _ => none

/-! ## The event log (R579) -/

/-- Who an entry is about: partition, function, detail. -/
structure About where
  part : Nat := 0xFF
  fn : Nat := 0xFF
  detail : Nat := 0
  deriving DecidableEq, Repr

/-- The function that a partition's VF is, when one is mapped. -/
def State.vfOf (s : State) (p : Nat) : Nat := if p < 16 then (s.part p).vf else 0

/-- An entry made within the preceding 1 s window with the same code (R10, R579). -/
def folds (log : List LogEntry) (code : BitVec 32) (t : Nat) : Option LogEntry :=
  log.reverse.find? (fun e => decide (e.flint = code ∧ e.tb ≤ t ∧ t < e.tb + 1000000000))

/-- The log with one more fold in the entry numbered `n`. -/
def bumpEntry (log : List LogEntry) (n : Nat) : List LogEntry :=
  log.map (fun e => if e.seq = n then { e with count := min (e.count + 1) 0xFFFF } else e)

/-- The newest `n` of a list that is oldest first. -/
def keepNewest {α : Type} (n : Nat) (l : List α) : List α := l.drop (l.length - n)

/-- Log a code: fold it, or make an entry and tell the functions that may read it (R534, R579). -/
def State.logCode (s : State) (sev : Nat) (code : BitVec 32) (w : About) : State :=
  let t := s.stamp
  match (if sev = 1 then folds s.grotto.log code t else none) with
  | some e =>
    let s := { s with grotto := { s.grotto with log := bumpEntry s.grotto.log e.seq } }
    s.satF grFolded 1
  | none =>
    let e : LogEntry :=
      { tb := t, seq := s.grotto.nextSeq, flint := code, partition := w.part, function := w.fn, count := 1,
        detail := BitVec.ofNat 96 w.detail }
    let s := { s with grotto := { s.grotto with
      log := keepNewest 4096 (s.grotto.log ++ [e]), nextSeq := (s.grotto.nextSeq + 1) % 2 ^ 32 } }
    let s := s.msix 0 1
    let v := s.vfOf w.part
    if v = 0 then s else s.msix v 1

/-- Raise a flint code: log it, record it in its _FAULT register when its severity is 2 or more (R678),
remember it as the last device-fatal code (R583) and as the last code of the Wellhead (R626). -/
def State.raiseCode (s : State) (sev unit inst : Nat) (code : BitVec 32) (w : About) : State :=
  let s := s.logCode sev code w
  if sev < 2 then s
  else
    let s := match faultReg unit inst with
      | some a => s.recordFault a code
      | none => s
    let s := if sev = 4 then { s with grotto := { s.grotto with lastFatal := code } } else s
    if unit = 0x0D then { s with pwr := { s.pwr with wellheadLast := some code } } else s

/-- Raise a cause at an instance. -/
def State.raise (s : State) (c : Cause) (inst : Nat) (w : About := {}) : State :=
  s.raiseCode c.sev c.unit inst (c.flint inst) w

/-- Raise a cause at most once in each 1 s window, by a key (R10). -/
def State.raiseLimited (s : State) (key : Nat) (c : Cause) (inst : Nat) (w : About := {}) : State :=
  match s.grotto.limits.at? key with
  | some t => if s.now < t + nsU 1000000000 then s
    else { s with grotto := { s.grotto with limits := s.grotto.limits.put key s.now } }.raise c inst w
  | none => { s with grotto := { s.grotto with limits := s.grotto.limits.put key s.now } }.raise c inst w

/-- A code raised again with the rill on which it is observed filled in (R472). -/
def withInstance (code : BitVec 32) (inst : Nat) : BitVec 32 :=
  BitVec.ofNat 32 (setBits code.toNat 8 12 inst)

/-- Severity, unit, instance and cause of a code (R17). -/
def codeSev (code : BitVec 32) : Nat := bits code.toNat 28 4
def codeUnit (code : BitVec 32) : Nat := bits code.toNat 20 8
def codeInst (code : BitVec 32) : Nat := bits code.toNat 8 12
def codeCause (code : BitVec 32) : Nat := bits code.toNat 0 8

/-- The code of a completion as a thread on rill `r` observes it: a code of unit class 0x01 takes the rill as its
INSTANCE (R472). -/
def observedCode (status : BitVec 32) (r : Nat) : BitVec 32 :=
  if codeUnit status = 1 ∧ codeInst status = 0xFFF then withInstance status r else status

/-! ## Sticky flags (R76, R160) -/

/-- Flags FZ, NV, OF, SAT raised by an operation. -/
structure Flags where
  fz : Bool := false
  nv : Bool := false
  of : Bool := false
  sat : Bool := false
  deriving DecidableEq, Repr

def Flags.or (a b : Flags) : Flags := ⟨a.fz || b.fz, a.nv || b.nv, a.of || b.of, a.sat || b.sat⟩

/-- Set the sticky flags of AR_FLAGS or VX_FLAGS at an address: bits 0 to 3 (R175, R222). -/
def State.orFlags (s : State) (a : Nat) (f : Flags) : State :=
  s.setReg a (s.reg a ||| (b2n f.fz + 2 * b2n f.nv + 4 * b2n f.of + 8 * b2n f.sat))

end Sys2Proof.Machine
end

