-- ==== Sys2Proof/Machine/Formats.lean ====
section
/-! DEFINITION. Number formats and exact-product arithmetic (R50 to R82).

A finite value is held exactly, as a sign, a natural number and a power of two; every rounding is
an explicit step into a format. -/

namespace Sys2Proof.Machine

open Sys2Proof

/-- A value: NaN, an infinity, or ± m × 2^e (m = 0 is a signed zero). -/
inductive Val where
  | nan
  | inf (neg : Bool)
  | fin (neg : Bool) (m : Nat) (e : Int)
  deriving DecidableEq, Repr

/-- Rounding modes of R78; SR carries its 16 random bits (R79). -/
inductive Rnd where
  | rne
  | rz
  | sr (r : Nat)
  deriving DecidableEq, Repr

/-- Special encodings of a float format (R55): infinities and NaNs, only one NaN pattern, or none. -/
inductive Spec where
  | ieee
  | e4m3
  | none
  deriving DecidableEq, Repr

/-- A float format (R51). -/
structure FFmt where
  ew : Nat
  fw : Nat
  bias : Int
  spec : Spec
  deriving DecidableEq, Repr

def fp32 : FFmt := ⟨8, 23, 127, .ieee⟩
def fp19 : FFmt := ⟨8, 10, 127, .ieee⟩
def bf16 : FFmt := ⟨8, 7, 127, .ieee⟩
def fp16 : FFmt := ⟨5, 10, 15, .ieee⟩
def e4m3 : FFmt := ⟨4, 3, 7, .e4m3⟩
def e5m2 : FFmt := ⟨5, 2, 15, .ieee⟩
def e3m2 : FFmt := ⟨3, 2, 3, .none⟩
def e2m3 : FFmt := ⟨2, 3, 1, .none⟩
def e2m1 : FFmt := ⟨2, 1, 1, .none⟩
/-- Binary64, in which norm sums are kept (R430). -/
def fp64 : FFmt := ⟨11, 52, 1023, .ieee⟩

/-- The power of two 2^n of an integer n that is not negative. -/
def pow2 (n : Int) : Nat := 2 ^ n.toNat

/-- Sign of a value; NaN counts as positive. -/
def Val.neg : Val → Bool
  | .nan => false
  | .inf n => n
  | .fin n _ _ => n

def Val.isNan : Val → Bool
  | .nan => true
  | _ => false

def Val.isInf : Val → Bool
  | .inf _ => true
  | _ => false

def Val.isZero : Val → Bool
  | .fin _ m _ => decide (m = 0)
  | _ => false

def Val.flip : Val → Val
  | .nan => .nan
  | .inf n => .inf (!n)
  | .fin n m e => .fin (!n) m e

def Val.abs : Val → Val
  | .nan => .nan
  | .inf _ => .inf false
  | .fin _ m e => .fin false m e

/-- ⌊log2 |v|⌋ of a value that is finite and not zero (R69). -/
def Val.exp : Val → Int
  | .fin _ m e => (Nat.log2 m : Int) + e
  | _ => 0

/-- Integer with a sign: the magnitude of a value in units of 2^q, truncated toward zero (R69). -/
def truncTo (m : Nat) (e q : Int) : Nat :=
  if q ≤ e then m * pow2 (e - q) else m / pow2 (q - e)

/-! ## Decoding (R51 to R53, R58) -/

/-- Value of the encoding `x` of a float format (R51, R55). -/
def FFmt.decode (f : FFmt) (x : Nat) : Val :=
  let s := bit x (f.ew + f.fw)
  let e := bits x f.fw f.ew
  let m := bits x 0 f.fw
  let top := 2 ^ f.ew - 1
  let fin := if e = 0 then Val.fin s m (1 - f.bias - f.fw) else Val.fin s (m + 2 ^ f.fw) ((e : Int) - f.bias - f.fw)
  match f.spec with
  | .ieee => if e = top then (if m = 0 then .inf s else .nan) else fin
  | .e4m3 => if e = top ∧ m = 2 ^ f.fw - 1 then .nan else fin
  | .none => fin

/-- Value of a two's-complement integer. -/
def intVal (i : Int) : Val := .fin (decide (i < 0)) i.natAbs 0

/-- The integer that an integer encoding of `w` bits holds (R52). -/
def decodeInt (w x : Nat) : Int := toSigned w x

/-- FMT codes of R50 whose elements are floats, with their layout. -/
def floatFmt : Nat → Option FFmt
  | 0x0 => some fp32
  | 0x1 => some fp19
  | 0x2 => some bf16
  | 0x3 => some fp16
  | 0x4 => some e4m3
  | 0x5 => some e5m2
  | 0x6 => some e4m3
  | 0x7 => some e5m2
  | 0x8 => some e3m2
  | 0x9 => some e2m3
  | 0xA => some e2m1
  | _ => none

/-- FMT is an MX format (R58). -/
def isMx (f : Nat) : Bool := decide (6 ≤ f ∧ f ≤ 0xB)

/-- FMT is not reserved (R50). -/
def fmtOk (f : Nat) : Bool := decide (f ≤ 0xD)

/-- Bits of an element in storage: FP19 in its 32-bit container (R50, R53). -/
def fmtBits : Nat → Nat
  | 0x0 => 32
  | 0x1 => 32
  | 0x2 => 16
  | 0x3 => 16
  | 0x4 => 8
  | 0x5 => 8
  | 0x6 => 8
  | 0x7 => 8
  | 0x8 => 6
  | 0x9 => 6
  | 0xA => 4
  | 0xB => 8
  | 0xC => 8
  | _ => 32

/-- Value of a stored element of FMT `f` before any block scale; FP19 by R53. -/
def decodeElem (f x : Nat) : Val :=
  if f = 0x1 then fp19.decode (x / 2 ^ 13 % 2 ^ 19)
  else match floatFmt f with
    | some g => g.decode (x % 2 ^ (g.ew + g.fw + 1))
    | none =>
      if f = 0xB then
        let i := decodeInt 8 x
        .fin (decide (i < 0)) i.natAbs (-6)
      else if f = 0xC then intVal (decodeInt 8 x)
      else intVal (decodeInt 32 x)

/-- A value times 2^k. -/
def Val.scale (v : Val) (k : Int) : Val :=
  match v with
  | .fin n m e => .fin n m (e + k)
  | w => w

/-- An element with its E8M0 block scale (R58). -/
def scaled (v : Val) (byte : Nat) : Val := if byte = 0xFF then .nan else v.scale ((byte : Int) - 127)

/-! ## Rounding (R70, R78, R79) -/

/-- The magnitude m × 2^e in units of 2^q, rounded (R78, R79). -/
def roundUnits (r : Rnd) (m : Nat) (e q : Int) : Nat :=
  if q ≤ e then m * pow2 (e - q)
  else
    let d := pow2 (q - e)
    let fl := m / d
    let rem := m % d
    match r with
    | .rz => fl
    | .rne => if 2 * rem > d ∨ (2 * rem = d ∧ fl % 2 = 1) then fl + 1 else fl
    | .sr k => if 65536 * rem / d + k ≥ 65536 then fl + 1 else fl

/-- Canonical NaN of a format (R55); formats without one write 0. -/
def FFmt.canonNan (f : FFmt) : Nat :=
  match f.spec with
  | .ieee => (2 ^ f.ew - 1) * 2 ^ f.fw + 2 ^ (f.fw - 1)
  | .e4m3 => 2 ^ (f.ew + f.fw) - 1
  | .none => 0

/-- The largest finite encoding, without sign (R51). -/
def FFmt.maxFin (f : FFmt) : Nat :=
  match f.spec with
  | .ieee => (2 ^ f.ew - 1) * 2 ^ f.fw - 1
  | .e4m3 => 2 ^ (f.ew + f.fw) - 2
  | .none => 2 ^ (f.ew + f.fw) - 1

/-- Sign bit of an encoding. -/
def FFmt.signBit (f : FFmt) (n : Bool) : Nat := if n then 2 ^ (f.ew + f.fw) else 0

/-- The format keeps subnormals only with DENORM = 0 (R74, R75). -/
def FFmt.flushes (f : FFmt) : Bool := decide (f = fp32 ∨ f = fp19 ∨ f = bf16 ∨ f = fp16)

/-- A value rounded into a float format: its encoding and the flags raised (R55, R74 to R79). -/
def FFmt.round (f : FFmt) (r : Rnd) (denorm : Bool) (v : Val) : Nat × Flags :=
  match v with
  | .nan => (f.canonNan, {})
  | .inf n =>
    match f.spec with
    | .ieee => (f.signBit n + (2 ^ f.ew - 1) * 2 ^ f.fw, {})
    | _ => (f.signBit n + f.maxFin, { of := true })
  | .fin n m e =>
    if m = 0 then (f.signBit n, {})
    else
      let emin : Int := 1 - f.bias
      let q : Int := max ((Nat.log2 m : Int) + e - f.fw) (emin - f.fw)
      let u := roundUnits r m e q
      let (u, q) := if u = 2 ^ (f.fw + 1) then (2 ^ f.fw, q + 1) else (u, q)
      if u < 2 ^ f.fw then
        if denorm && f.flushes && decide (u ≠ 0) then (f.signBit n, { fz := true })
        else (f.signBit n + u, {})
      else
        let enc := ((q + f.fw + f.bias).toNat) * 2 ^ f.fw + (u - 2 ^ f.fw)
        if enc ≤ f.maxFin then (f.signBit n + enc, {})
        else
          match f.spec, r with
          | .ieee, .rz => (f.signBit n + f.maxFin, { of := true })
          | .ieee, _ => (f.signBit n + (2 ^ f.ew - 1) * 2 ^ f.fw, { of := true })
          | _, _ => (f.signBit n + f.maxFin, { of := true })

/-- A value rounded to a `w`-bit integer, saturating (R78). -/
def roundInt (w : Nat) (r : Rnd) (v : Val) : Nat × Flags :=
  let hi : Int := 2 ^ (w - 1) - 1
  let lo : Int := -(2 ^ (w - 1))
  match v with
  | .nan => (0, { nv := true })
  | .inf n => (ofInt w (if n then lo else hi), { sat := true, nv := true })
  | .fin n m e =>
    let u : Int := roundUnits r m e 0
    let i := if n then -u else u
    if i > hi then (ofInt w hi, { sat := true })
    else if i < lo then (ofInt w lo, { sat := true })
    else (ofInt w i, {})

/-- An integer saturated into `w` bits. -/
def satInt (w : Nat) (i : Int) : Nat × Flags :=
  let hi : Int := 2 ^ (w - 1) - 1
  let lo : Int := -(2 ^ (w - 1))
  if i > hi then (ofInt w hi, { sat := true }) else if i < lo then (ofInt w lo, { sat := true }) else (ofInt w i, {})

/-- A value rounded into the storage encoding of a format that is not MX (R53, R78). -/
def roundElem (f : Nat) (r : Rnd) (denorm : Bool) (v : Val) : Nat × Flags :=
  if f = 0x1 then
    let (x, g) := fp19.round r denorm v
    (x * 2 ^ 13, g)
  else match floatFmt f with
    | some g => g.round r denorm v
    | none => if f = 0xC then roundInt 8 r v else roundInt 32 r v

/-! ## Arithmetic on values -/

/-- Signed mantissa of a value in units of 2^q, q at most its exponent. -/
def signedAt (n : Bool) (m : Nat) (e q : Int) : Int :=
  let x : Int := (m * pow2 (e - q) : Nat)
  if n then -x else x

/-- Sum of two finite values, exact; a zero sum is +0 unless both are −0 (R57). -/
def addFin (n1 : Bool) (m1 : Nat) (e1 : Int) (n2 : Bool) (m2 : Nat) (e2 : Int) : Val :=
  let q := min e1 e2
  let s := signedAt n1 m1 e1 q + signedAt n2 m2 e2 q
  if s = 0 then .fin (decide (m1 = 0) && decide (m2 = 0) && n1 && n2) 0 0
  else .fin (decide (s < 0)) s.natAbs q

/-- Exact sum; NV when a NaN is created (R56, R57). -/
def addV (a b : Val) : Val × Flags :=
  match a, b with
  | .nan, _ => (.nan, {})
  | _, .nan => (.nan, {})
  | .inf x, .inf y => if x = y then (.inf x, {}) else (.nan, { nv := true })
  | .inf x, _ => (.inf x, {})
  | _, .inf y => (.inf y, {})
  | .fin n1 m1 e1, .fin n2 m2 e2 => (addFin n1 m1 e1 n2 m2 e2, {})

/-- Exact difference. -/
def subV (a b : Val) : Val × Flags := addV a b.flip

/-- Exact product; NV for ∞ × 0. -/
def mulV (a b : Val) : Val × Flags :=
  match a, b with
  | .nan, _ => (.nan, {})
  | _, .nan => (.nan, {})
  | .inf x, .inf y => (.inf (x != y), {})
  | .inf x, .fin n m _ => if m = 0 then (.nan, { nv := true }) else (.inf (x != n), {})
  | .fin n m _, .inf y => if m = 0 then (.nan, { nv := true }) else (.inf (n != y), {})
  | .fin n1 m1 e1, .fin n2 m2 e2 => (.fin (n1 != n2) (m1 * m2) (e1 + e2), {})

/-- a < b for values that are not NaN. -/
def ltV (a b : Val) : Bool :=
  match a, b with
  | .nan, _ => false
  | _, .nan => false
  | .inf x, .inf y => x && !y
  | .inf x, _ => x
  | _, .inf y => !y
  | .fin n1 m1 e1, .fin n2 m2 e2 =>
    let q := min e1 e2
    decide (signedAt n1 m1 e1 q < signedAt n2 m2 e2 q)

/-- a = b for values that are not NaN (−0 = +0). -/
def eqV (a b : Val) : Bool :=
  match a, b with
  | .nan, _ => false
  | _, .nan => false
  | .inf x, .inf y => x == y
  | .inf _, _ => false
  | _, .inf _ => false
  | .fin n1 m1 e1, .fin n2 m2 e2 =>
    let q := min e1 e2
    decide (signedAt n1 m1 e1 q = signedAt n2 m2 e2 q)

/-- Square root of a natural number, rounded down: `n` result bits, from the top. -/
def isqrtGo (x : Nat) : Nat → Nat → Nat
  | 0, r => r
  | n + 1, r => let c := r + 2 ^ n; isqrtGo x n (if c * c ≤ x then c else r)

def isqrt (x : Nat) : Nat := isqrtGo x (Nat.log2 x / 2 + 1) 0

/-- Quotient of two finite values, with 200 bits and a sticky bit, so that one rounding of it is correct (R207). -/
def divV (a b : Val) : Val × Flags :=
  match a, b with
  | .nan, _ => (.nan, {})
  | _, .nan => (.nan, {})
  | .inf _, .inf _ => (.nan, { nv := true })
  | .inf x, .fin n _ _ => (.inf (x != n), {})
  | .fin n _ _, .inf y => (.fin (n != y) 0 0, {})
  | .fin n1 m1 e1, .fin n2 m2 e2 =>
    if m2 = 0 then (if m1 = 0 then (.nan, { nv := true }) else (.inf (n1 != n2), {}))
    else
      let k := 200 + Nat.log2 m2
      let t := m1 * 2 ^ k
      (.fin (n1 != n2) (2 * (t / m2) + (if t % m2 = 0 then 0 else 1)) (e1 - e2 - k - 1), {})

/-- Square root, with 200 bits and a sticky bit; NV below zero, −0 gives −0. -/
def sqrtV (a : Val) : Val × Flags :=
  match a with
  | .nan => (.nan, {})
  | .inf n => if n then (.nan, { nv := true }) else (.inf false, {})
  | .fin n m e =>
    if m = 0 then (.fin n 0 0, {})
    else if n then (.nan, { nv := true })
    else
      let e' := if e % 2 = 0 then e else e - 1
      let m' := if e % 2 = 0 then m else 2 * m
      let t := m' * 2 ^ 400
      let r := isqrt t
      (.fin false (2 * r + (if r * r = t then 0 else 1)) (e' / 2 - 201), {})

/-- A subnormal value of a format is treated as zero under DENORM = 1 (R74). -/
def FFmt.flushIn (f : FFmt) (denorm : Bool) (x : Nat) : Val × Flags :=
  let v := f.decode x
  if denorm && f.flushes && decide (bits x f.fw f.ew = 0) && decide (bits x 0 f.fw ≠ 0) then
    (.fin v.neg 0 0, { fz := true })
  else (v, {})

/-- A stored element read as an operand under DENORM (R53, R74, R75). -/
def readElem (f : Nat) (denorm : Bool) (x : Nat) : Val × Flags :=
  if f = 0x1 then fp19.flushIn denorm (x / 2 ^ 13 % 2 ^ 19)
  else if f = 0x0 then fp32.flushIn denorm (x % 2 ^ 32)
  else if f = 0x2 then bf16.flushIn denorm (x % 2 ^ 16)
  else if f = 0x3 then fp16.flushIn denorm (x % 2 ^ 16)
  else (decodeElem f x, {})

/-- FP32 addition as `atom.add.f` adds: RNE, gradual underflow, canonical NaN (R97, R353, R493). -/
def addFp32 (a b : Nat) : Nat := (fp32.round .rne false (addV (fp32.decode a) (fp32.decode b)).1).1

/-! ## Entering the array (R63 to R66) -/

/-- FP32 bit pattern to FP19 pattern (R63); OF when a finite value rounds to infinity (R64). -/
def fp32ToFp19 (x : Nat) (rne : Bool) : Nat × Flags :=
  let e := bits x 23 8
  let f := bits x 0 23
  if e = 0xFF then ((if f = 0 then x / 2 ^ 13 else 0x3FE00), {})
  else
    let keep := x / 2 ^ 13
    let rest := x % 2 ^ 13
    let up := rne && (decide (rest > 0x1000) || (decide (rest = 0x1000) && decide (keep % 2 = 1)))
    let r := if up then keep + 1 else keep
    (r, { of := decide (bits r 10 8 = 0xFF) })

/-- High and low FP19 parts of an FP32 value (R65). -/
def split32 (x : Nat) : Nat × Nat :=
  let hi := (fp32ToFp19 x true).1
  if bits x 23 8 = 0xFF then (hi, 0)
  else
    let hi := if bits hi 10 8 = 0xFF then fp19.signBit (bit x 31) + fp19.maxFin else hi
    let d := (subV (fp32.decode x) (fp19.decode hi)).1
    let d32 := (fp32.round .rne false d).1
    (hi, (fp32ToFp19 d32 true).1)

/-! ## Group summation (R67 to R70) -/

/-- A term of a group: its value, and whether an input that formed it was NaN. -/
structure Term where
  v : Val
  nanIn : Bool
  deriving DecidableEq, Repr

/-- Largest exponent of the finite terms that are not zero (R69). -/
def maxExp : List Term → Option Int
  | [] => none
  | t :: rest =>
    match t.v with
    | .fin _ m _ =>
      if m = 0 then maxExp rest
      else match maxExp rest with
        | some e => some (max t.v.exp e)
        | none => some t.v.exp
    | _ => maxExp rest

/-- The signed window sum of a group in units of 2^(E − 56) (R69). -/
def windowSum (q : Int) : List Term → Int
  | [] => 0
  | t :: rest =>
    match t.v with
    | .fin n m e => (if n then -(truncTo m e q : Int) else (truncTo m e q : Int)) + windowSum q rest
    | _ => windowSum q rest

/-- The value of a group that has only finite terms. -/
def groupVal (ts : List Term) : Val :=
  match maxExp ts with
  | none => .fin false 0 0
  | some e =>
    let s := windowSum (e - 56) ts
    .fin (decide (s < 0)) s.natAbs (e - 56)

/-- One group added to an FP32 accumulator (R70), with the held value flushed under DENORM (R74). -/
def addGroup (denorm : Bool) (acc : Nat) (ts : List Term) : Nat × Flags :=
  let anyNan := ts.any (fun t => t.v.isNan)
  let pos := ts.any (fun t => decide (t.v = .inf false))
  let neg := ts.any (fun t => decide (t.v = .inf true))
  if anyNan || (pos && neg) then
    (fp32.canonNan, { nv := !(ts.any (fun t => t.nanIn)) })
  else if pos || neg then
    let (a, f0) := fp32.flushIn denorm acc
    let (v, f1) := addV a (.inf neg)
    let (x, f2) := fp32.round .rne denorm v
    (x, (f0.or f1).or f2)
  else if ts.all (fun t => t.v.isZero) then (acc, {})
  else
    let (a, f0) := fp32.flushIn denorm acc
    let (v, f1) := addV a (groupVal ts)
    let (x, f2) := fp32.round .rne denorm v
    (x, (f0.or f1).or f2)

/-- Terms cut into groups of `g` (R68); fuel is the number of terms. -/
def groupsOf {α : Type} (g : Nat) : Nat → List α → List (List α)
  | 0, _ => []
  | _, [] => []
  | n + 1, l => l.take g :: groupsOf g n (l.drop g)

/-- All groups of an output element added in ascending K order (R70). -/
def addGroups (denorm : Bool) (g acc : Nat) (ts : List Term) : Nat × Flags :=
  (groupsOf g ts.length ts).foldl
    (fun (p : Nat × Flags) grp => let (x, f) := addGroup denorm p.1 grp; (x, p.2.or f)) (acc, {})

/-- Sum by groups of 16 without a starting value, in FP32: norms and reductions (R201, R272, R430). -/
def groupSum32 (ts : List Val) : Nat :=
  (addGroups false 16 0 (ts.map (fun v => ⟨v, v.isNan⟩))).1

/-! ## Block conversion (R80) -/

/-- emax of an MX element format (R80). -/
def emaxOf : Nat → Int
  | 0x6 => 8
  | 0x7 => 15
  | 0x8 => 4
  | 0x9 => 2
  | 0xA => 2
  | _ => 0

/-- Sixteen-bit draws, one for each element of a block, or none. -/
def modeAt (r : Nat) (draws : List Nat) (i : Nat) : Rnd :=
  match r with
  | 0 => .rne
  | 1 => .rz
  | _ => .sr (draws.getD i 0)

/-- `to_element` of R80: rounded, saturating at the element's largest magnitude. -/
def toElement (f : Nat) (r : Rnd) (v : Val) : Nat :=
  if f = 0xB then (roundInt 8 r (v.scale 6)).1
  else match floatFmt f with
    | some g =>
      let (x, fl) := g.round r false v
      if fl.of then g.signBit v.neg + g.maxFin else x
    | none => 0

/-- A block of 32 values into an MX format: scale byte, elements, flags (R80). -/
def toBlock (f r : Nat) (draws : List Nat) (vs : List Val) : Nat × List Nat × Flags :=
  if vs.any (fun v => v.isNan || v.isInf) then (0xFF, vs.map (fun _ => 0), { nv := true })
  else if vs.all Val.isZero then
    (0, vs.map (fun v => if f = 0xB then 0 else match floatFmt f with
      | some g => g.signBit v.neg
      | none => 0), {})
  else
    let top := (vs.filter (fun v => !v.isZero)).foldl (fun (a : Option Int) v =>
      match a with
      | none => some v.exp
      | some e => some (max e v.exp)) none
    let x := max (-127) (min 127 ((top.getD 0) - emaxOf f))
    ((x + 127).toNat, vs.zipIdx.map (fun p => toElement f (modeAt r draws p.2) (p.1.scale (-x))), {})

end Sys2Proof.Machine
end

