-- ==== Sys2Proof/Machine/Operands.lean ====
section
/-! DEFINITION. Operand forms: the fields of WCP descriptors (R535), tile descriptors (R109, R677), Spring
blocks (R209) and fabric addresses (R47), and the checks of a tile descriptor (R110). -/

namespace Sys2Proof.Machine

open Sys2Proof

/-! ## WCP descriptors (R535) -/

/-- `w` bits from bit `lo` of byte `n` of a descriptor. -/
def dfld (d : BitVec 512) (n lo w : Nat) : Nat := bits d.toNat (8 * n + lo) w

def dOpcode (d : BitVec 512) : Nat := dfld d 0 0 16
def dEnd (d : BitVec 512) : Bool := bit d.toNat 16
def dFence (d : BitVec 512) : Bool := bit d.toNat 17
def dIrq (d : BitVec 512) : Bool := bit d.toNat 18
def dPrio (d : BitVec 512) : Nat := dfld d 2 4 2
def dTag (d : BitVec 512) : BitVec 32 := BitVec.ofNat 32 (dfld d 4 0 32)
def dVersion (d : BitVec 512) : Nat := dfld d 8 0 16
def dCrc (d : BitVec 512) : Nat := dfld d 12 0 32

/-- The reserved header bits of R535 are 0: byte 2 [3] and [7:6], byte 3, bytes 10 and 11. -/
def dHeaderOk (d : BitVec 512) : Bool :=
  decide (dfld d 2 3 1 = 0 ∧ dfld d 2 6 2 = 0 ∧ dfld d 3 0 8 = 0 ∧ dfld d 10 0 16 = 0)

/-- The operand bytes a command leaves unused are 0: `used` lists the bits it uses as (byte, bit, width). -/
def dRestZero (d : BitVec 512) (used : List (Nat × Nat × Nat)) : Bool :=
  decide (used.foldl (fun v u => setBits v (8 * u.1 + u.2.1) u.2.2 0) (d.toNat / 2 ^ 128 * 2 ^ 128) = 0)

/-- CRC-32C (Castagnoli), reflected, one byte at a time (R357, R535). -/
def crcBit (c : Nat) : Nat → Nat
  | 0 => c
  | n + 1 => crcBit (if c % 2 = 1 then (c / 2) ^^^ 0x82F63B78 else c / 2) n

def crc32cGo (c : Nat) : List Byte → Nat
  | [] => c
  | b :: t => crc32cGo (crcBit (c ^^^ b.toNat) 8) t

def crc32c (bs : List Byte) : Nat := crc32cGo 0xFFFFFFFF bs ^^^ 0xFFFFFFFF

/-- DCRC matches: CRC-32C of the 64 bytes with bytes 12 to 15 zero (R535). -/
def dCrcOk (d : BitVec 512) : Bool := decide (crc32c (leBytes 64 (setBits d.toNat 96 32 0)) = dCrc d)

/-! ## Tile descriptors (R109) -/

def tFld (t : BitVec 256) (byte lo w : Nat) : Nat := bits t.toNat (8 * byte + lo) w
def tAddr (t : BitVec 256) : Nat := tFld t 0 0 64
def tRows (t : BitVec 256) : Nat := tFld t 8 0 16
def tCols (t : BitVec 256) : Nat := tFld t 10 0 16
def tStride (t : BitVec 256) : Nat := tFld t 12 0 32
def tFmt (t : BitVec 256) : Nat := tFld t 16 0 4
def tSpace (t : BitVec 256) : Nat := tFld t 16 4 4
def tTrans (t : BitVec 256) : Bool := decide (tFld t 17 0 1 = 1)
def tSv (t : BitVec 256) : Bool := decide (tFld t 17 1 1 = 1)
def tStream (t : BitVec 256) : Nat := tFld t 18 0 14
def tScaleOff (t : BitVec 256) : Nat := tFld t 20 0 32
def tEpoch (t : BitVec 256) : Nat := tFld t 24 0 16

/-- The reserved fields of a tile descriptor are 0. -/
def tReservedOk (t : BitVec 256) : Bool :=
  decide (tFld t 17 2 6 = 0 ∧ tFld t 18 14 2 = 0 ∧ tFld t 26 0 48 = 0)

/-- Stored rows and elements of each stored row (R677). -/
def tStoredRows (t : BitVec 256) : Nat := if tTrans t then tCols t else tRows t
def tStoredCols (t : BitVec 256) : Nat := if tTrans t then tRows t else tCols t

/-- Packed length of `n` elements in bytes (R54). -/
def packedLen (f n : Nat) : Nat := (n * fmtBits f + 7) / 8

/-- Bytes of a stored row. -/
def tRowBytes (t : BitVec 256) : Nat := packedLen (tFmt t) (tStoredCols t)

/-- Offset of the scale plane from ADDR (R59, R109). -/
def tScaleAt (t : BitVec 256) : Nat := if tScaleOff t = 0 then tRows t * tStride t else tScaleOff t

/-- Byte ranges (offset from ADDR, length) that a stored tile covers: its rows, and its scale plane. -/
def tRanges (t : BitVec 256) : List (Nat × Nat) :=
  (List.range (tStoredRows t)).map (fun n => (n * tStride t, tRowBytes t)) ++
    (if isMx (tFmt t) then [(tScaleAt t, tRows t * (tCols t / 32))] else [])

/-- End of a stored tile relative to ADDR. -/
def tEnd (t : BitVec 256) : Nat :=
  max ((tStoredRows t - 1) * tStride t + tRowBytes t)
    (if isMx (tFmt t) then tScaleAt t + tRows t * (tCols t / 32) else 0)

/-- Rows and columns of a SHAPE (R136). -/
def shapeRows (sh : Nat) : Nat := 64 / 2 ^ sh
def shapeCols (sh : Nat) : Nat := 64 * 2 ^ sh

/-- Checks of R110 on a descriptor at region offset `at` of a region of `len` bytes, in order; `shape` is the
current SHAPE, `memory` says that this is the memory operand of an FT instruction. -/
def tileOk (off len shape : Nat) (memory : Bool) (t : BitVec 256) : Bool :=
  decide (off % 32 = 0 ∧ off + 32 ≤ len) &&
  (decide (tSpace t ≤ 3) && fmtOk (tFmt t) && tReservedOk t) &&
  (if tSpace t = 2 ∨ tSpace t = 3 then decide (tAddr t = 0) else true) &&
  decide (1 ≤ tRows t ∧ 1 ≤ tCols t) &&
  (if tSpace t ≤ 1 then decide (tRowBytes t ≤ tStride t ∧ tStride t % 16 = 0) else true) &&
  (if isMx (tFmt t) then decide (tCols t % 32 = 0) && !tTrans t else true) &&
  (if tSpace t = 2 ∨ tSpace t = 3 then
    (if tTrans t then decide (tCols t ≤ shapeRows shape ∧ tRows t ≤ shapeCols shape)
     else decide (tRows t ≤ shapeRows shape ∧ tCols t ≤ shapeCols shape)) else true) &&
  (if tSpace t = 0 then decide (tAddr t + tEnd t ≤ len) else true) &&
  decide (memory = decide (tSpace t = 1))

/-- Byte offset from ADDR, bit position within its unit and unit size of element (i, j) in storage (R54, R677). -/
def elemAt (t : BitVec 256) (i j : Nat) : Nat × Nat × Nat :=
  let n := if tTrans t then j else i
  let k := if tTrans t then i else j
  let base := n * tStride t
  match fmtBits (tFmt t) with
  | 4 => (base + k / 2, 4 * (k % 2), 1)
  | 6 => (base + k / 4 * 3, 6 * (k % 4), 3)
  | w => (base + k * (w / 8), 0, w / 8)

/-- Offset from ADDR of the scale byte of the block of element (i, j) (R59). -/
def scaleAt (t : BitVec 256) (i j : Nat) : Nat := tScaleAt t + i * (tCols t / 32) + j / 32

/-! ## Spring blocks (R209) -/

def sbSlot (b : BitVec 256) : Nat := tFld b 0 0 4
def sbSrc (b : BitVec 256) : Bool := decide (tFld b 0 4 1 = 1)
def sbBase (b : BitVec 256) : Nat := tFld b 8 0 64
def sbSalt (b : BitVec 256) : Nat := tFld b 16 0 32
def sbOk (b : BitVec 256) : Bool := decide (tFld b 0 5 3 = 0 ∧ tFld b 1 0 56 = 0 ∧ tFld b 20 0 96 = 0)

/-! ## Fabric addresses and tags (R47, R120) -/

def faChip (a : Nat) : Nat := bits a 48 16
def faPart (a : Nat) : Nat := bits a 44 4
def faOff (a : Nat) : Nat := bits a 0 44

/-- The reply tag of a context's slot (R120). -/
def replyTag (part ctx slot : Nat) : BitVec 32 := BitVec.ofNat 32 (part * 2 ^ 28 + ctx * 2 ^ 12 + slot)

def tagPart (t : BitVec 32) : Nat := bits t.toNat 28 4
def tagCtx (t : BitVec 32) : Nat := bits t.toNat 12 16
def tagSlot (t : BitVec 32) : Nat := bits t.toNat 0 7

end Sys2Proof.Machine
end

