-- ==== Sys2Proof/Machine/Post.lean ====
section
/-! DEFINITION. Completions: the ring in host memory, the interrupts, and the end of a command in progress
(R525, R532 to R536, R558, R562). -/

namespace Sys2Proof.Machine

open Sys2Proof

/-- Entries of a mailbox's ring. -/
def Mailbox.size (m : Mailbox) : Nat := 2 ^ m.sizeLog2

/-- Send vector 0 of a function and start counting again (R534). -/
def State.signal (s : State) (f : Nat) : State :=
  let m := s.mailbox f
  (s.setMailbox f { m with unsignalled := 0 }).msix f 0

/-- Write one completion entry into the ring of a function, and POSTED behind it (R533). -/
def State.writeEntry (s : State) (f : Nat) (status tag : W32) (result : W64) : State :=
  let m := s.mailbox f
  let a := m.cqBase.toNat + 16 * (m.posted.toNat % m.size)
  let posted := m.posted + 1
  let h := Memory.writeN s.mem.host a
    (leBytes 4 status.toNat ++ leBytes 4 tag.toNat ++ leBytes 8 result.toNat)
  let h := if m.postedAddr = 0 then h else Memory.writeN h m.postedAddr.toNat (leBytes 8 posted.toNat)
  let s := { s with mem := { s.mem with host := h } }
  let s := s.setMailbox f
    { m with posted := posted, unsignalled := m.unsignalled + 1,
             oldest := if m.unsignalled = 0 then s.now else m.oldest }
  { s with host := { s.host with completed := s.host.completed + 1 } }

/-- Post a completion: held while writes to host memory fail (R562), else written and signalled by R534. -/
def State.post (s : State) (f : Nat) (status tag : W32) (result : W64) (irq : Bool) : State :=
  let m := s.mailbox f
  if m.cqStalled then s.setMailbox f { m with heldCq := m.heldCq ++ [(status, tag, result, irq)] }
  else
    let s := s.writeEntry f status tag result
    let m := s.mailbox f
    if irq || decide (max 1 m.coalesceN ≤ m.unsignalled) || decide (m.coalesceUs = 0) then s.signal f else s

/-- Commands of a function in progress (R533). -/
def State.progressOf (s : State) (f : Nat) : Nat := (s.host.inProgress.filter (fun c => decide (c.fn = f ∧ c.session = none))).length

/-- Free entries of the ring of a function (R533). -/
def State.freeEntries (s : State) (f : Nat) : Nat :=
  let m := s.mailbox f
  m.size - (m.posted - m.head).toNat - s.progressOf f - m.heldCq.length

/-- The command in progress of a function with a descriptor, the earliest taken. -/
def State.cmd? (s : State) (f : Nat) (d : BitVec 512) : Option Cmd :=
  s.host.inProgress.find? (fun c => decide (c.fn = f ∧ c.d = d))

/-- Take a command out of those in progress. -/
def State.dropCmd (s : State) (order : Nat) : State :=
  { s with host := { s.host with inProgress := s.host.inProgress.filter (fun c => decide (c.order ≠ order)) } }

/-- Change a command in progress. -/
def State.updCmd (s : State) (order : Nat) (f : Cmd → Cmd) : State :=
  { s with host := { s.host with inProgress := s.host.inProgress.map (fun c => if c.order = order then f c else c) } }

/-- End a command: its completion is posted, or dropped and counted when its function was reset (R525); over a session it
is the response (R588). -/
def State.finish (s : State) (c : Cmd) (status : W32) (result : W64) : State :=
  let s := s.dropCmd c.order
  if c.drop then { s with host := { s.host with cmdsDropped := min (s.host.cmdsDropped + 1) 0xFFFF } }
  else match c.session with
    | some (n, _) => if (s.grotto.sessions.at? n).isSome then s.emit (.secured n status (dTag c.d) result []) else s
    | none => s.post c.fn status (dTag c.d) result (dIrq c.d)

/-- End a command with a cause: the code is raised for its function and posted. -/
def State.failCmd (s : State) (c : Cmd) (k : Cause) (inst part : Nat) (result : W64 := 0) : State :=
  (s.raise k inst { part := part, fn := if c.session.isSome then 0xFF else c.fn }).finish c (k.flint inst) result

/-- The command in progress that started a launch: opcode 0x0402 without RESUME, its partition and handle. -/
def State.launchCmd? (s : State) (p h : Nat) : Option Cmd :=
  s.host.inProgress.find? (fun c => decide (dOpcode c.d = 0x0402 ∧ dfld c.d 17 0 1 = 0 ∧ c.started = true ∧
    c.part = p ∧ dfld c.d 20 0 16 = h))

end Sys2Proof.Machine
end

