-- ==== Sys2Proof/Machine/Places.lean ====
section
/-! DEFINITION. Where data lives: objects and pages of partition spaces, physical pages of the tiers, pool-cache
lines, and reading and writing through them (R38, R39, R334, R347, R351 to R355, R373 to R388). -/

namespace Sys2Proof.Machine

open Sys2Proof

/-- Bytes of a page, a sector, a parcel. -/
def pageBytes : Nat := 0x200000
def sectorBytes : Nat := 0x10000

/-- Whole pages of an HBM stack (R38). -/
def stackPages : Nat := 34332

/-! ## Physical places (R38, R39, R334, R347) -/

/-- Local address of the first byte of a place in HBM or DDR5. -/
def Place.addr (p : Place) : Nat :=
  if p.tier = 0 then p.page / stackPages * 0x2000000000 + p.page % stackPages * pageBytes
  else 0x010000000000 + p.page / 131072 * 0x4000000000 + p.page % 131072 * pageBytes

/-- Base die on which a place is homed. -/
def Place.die (p : Place) : Nat :=
  if p.tier = 0 then p.page / stackPages / 2
  else if p.tier = 1 then p.page / 131072
  else p.page % 4

/-- Pseudo-channel group of an HBM place (R334). -/
def Place.group (p : Place) : Nat := 8 * (p.page / stackPages) + p.page % stackPages % 8

/-- Base die of a local address in the HBM or DDR5 window. -/
def dieOf (a : Nat) : Nat :=
  if a < 0x010000000000 then a / 0x2000000000 / 2 else (a - 0x010000000000) / 0x4000000000

/-- Key of a page in the poison table: local address ÷ 2 MiB, or 2^40 + flash page. -/
def Place.key (p : Place) : Nat := if p.tier = 2 then 2 ^ 40 + p.page else p.addr / pageBytes

/-- Pages of the HBM groups in a mask, 4,292 or 4,291 in each (R334). -/
def groupPages (groups : BitVec 64) : Nat :=
  ((List.range 64).map (fun g => if bit groups.toNat g then (if g % 8 < 4 then 4292 else 4291) else 0)).sum

/-! ## Poisoned and retired places (R339, R340, R344, R345, R350) -/

/-- Stack or connector of a key of the poison table below 2^40. -/
def keyStack (k : Nat) : Option Nat := if k * pageBytes < 0x010000000000 then some (k * pageBytes / 0x2000000000) else none
def keyConn (k : Nat) : Option Nat :=
  if 0x010000000000 ≤ k * pageBytes ∧ k < 2 ^ 40 then some ((k * pageBytes - 0x010000000000) / 0x4000000000) else none

/-- Poison records in use of a stack's or connector's own part of its area. -/
def State.recordsOf (s : State) (f : Nat → Bool) : Nat := (s.mem.poison.filter (fun x => x.2 && f x.1)).length

/-- Records of a stack's own part (R345). -/
def stackRecords (st : Nat) : Nat := if st % 2 = 0 then 32000 else 36096

/-- A place is poisoned: with a record while its area has one free (R339, R345), in Shale's mapping for flash (R350). -/
def State.poisonPlace (s : State) (x : Place) : State :=
  if (s.mem.poison.at? x.key).isSome then s
  else
    let put := fun (s : State) (r : Bool) => { s with mem := { s.mem with poison := s.mem.poison.put x.key r } }
    if x.tier = 2 then put s true
    else if x.tier = 0 then
      let st := x.page / stackPages
      if s.recordsOf (fun k => keyStack k == some st) < stackRecords st then put s true
      else (put s false).raiseLimited (kHbRecordsFull.flint st).toNat kHbRecordsFull st
    else
      let c := x.page / 131072
      if s.recordsOf (fun k => keyConn k == some c) < 4096 then
        (put s true).setF (ddRecordsFree c) (4095 - s.recordsOf (fun k => keyConn k == some c))
      else (put s false).raiseLimited (kDdRecordsFull.flint c).toNat kDdRecordsFull c

/-- A place without a spare row goes out of service (R340, R345). -/
def State.retirePlace (s : State) (x : Place) : State :=
  if s.mem.retired.contains x.key then s
  else
    let s := { s with mem := { s.mem with retired := s.mem.retired ++ [x.key] } }
    if x.tier = 0 then s.addF (hbRetired (x.page / stackPages)) 1 else s

/-- A place is freed: poisoned, it stays out of service until repaired (HBM), or is retired (DDR5, or without a record);
a page of flash is rewritten whole before its next use. -/
def State.freePlace (s : State) (x : Place) : State :=
  match s.mem.poison.at? x.key with
  | none => s
  | some rec =>
    if x.tier = 2 then { s with mem := { s.mem with poison := s.mem.poison.del x.key } }
    else if x.tier = 1 || !rec then s.retirePlace x
    else s

/-- Sluice writes `n` sectors into a flash page (R347, R369). -/
def State.flashWrote (s : State) (x : Place) (n : Nat) : State :=
  if x.tier = 2 then (s.addF (fsSectorsIn (x.page % 4)) n).addF (fsSectorsProg (x.page % 4)) n else s

/-! ## Objects and page records (R373, R374) -/

/-- The record of a page that has never been written (R375). -/
def Page.absent : Page :=
  { state := .absent, a := none, b := none, dirty := 0, poison := false, arrived := 0, dest := none, level := 0,
    holds := 0, used := 0 }

/-- The object that holds a partition offset. -/
def Part.objAt (p : Part) (off : Nat) : Option (Nat × Obj) :=
  p.objects.find? (fun o => decide (o.1 ≤ off ∧ off < o.1 + o.2.pages * pageBytes))

/-- The record of the page at a partition offset. -/
def Part.page (p : Part) (off : Nat) : Page := p.pages.getD (off / pageBytes) Page.absent

/-- Whether [off, off + n) lies inside one object. -/
def Part.inObject (p : Part) (off n : Nat) : Bool :=
  match p.objAt off with
  | some o => decide (off + n ≤ o.1 + o.2.pages * pageBytes)
  | none => false

def State.setPage (s : State) (p off : Nat) (g : Page) : State :=
  s.setPart p { s.part p with pages := (s.part p).pages.put (off / pageBytes) g }

/-- Copies of a partition in a tier (R389). -/
def Part.use (p : Part) (tier : Nat) : Nat :=
  (p.pages.vals.map (fun g =>
    (match g.a with | some x => if x.tier = tier then 1 else 0 | none => 0) +
    (match g.b with | some x => if x.tier = tier then 1 else 0 | none => 0) +
    (match g.dest with | some x => if x.tier = tier then 1 else 0 | none => 0))).sum

def Part.quota (p : Part) (tier : Nat) : Nat :=
  if tier = 0 then p.quotaH else if tier = 1 then p.quotaD else p.quotaF

/-- Tiers of a role in order of preference (R377): 0 HBM, 1 DDR5, 2 flash. -/
def roleTiers (role access : Nat) : List Nat :=
  match role with
  | 1 => if access = 1 then [1, 2] else [0, 1, 2]
  | 3 => [0, 1]
  | 5 => [0, 1]
  | 6 => [0, 1]
  | 7 => [0, 1]
  | 8 => [1, 2]
  | _ => [0, 1, 2]

/-- Reclaim rank of a role (R377); stream-through objects count as 0. -/
def roleRank (role access : Nat) : Nat :=
  if access = 2 then 0
  else match role with
    | 0 => 7
    | 1 => 4
    | 2 => 5
    | 3 => 9
    | 4 => 3
    | 5 => 8
    | 6 => 2
    | 7 => 10
    | 8 => 1
    | _ => 6

/-- Tiers in which a page of an object may live: its pin alone, or its role's list (R378). -/
def Obj.tiers (o : Obj) : List Nat := if o.pin = 0 then roleTiers o.role o.access else [o.pin - 1]

/-- Pages committed against a set of tiers (R390): every object whose tiers all lie in it. -/
def Part.committed (p : Part) (ts : List Nat) : Nat :=
  (p.objects.vals.map (fun o => if o.tiers.all (fun t => ts.contains t) then o.pages else 0)).sum

/-- Commitment holds: for every set of tiers, what must live there fits its quotas (R390). -/
def Part.fits (p : Part) : Bool :=
  [[0], [1], [2], [0, 1], [0, 2], [1, 2], [0, 1, 2]].all
    (fun ts => decide (p.committed ts ≤ (ts.map p.quota).sum))

/-! ## Free physical pages (R335, R340, R345, R346, R379) -/

/-- Places in use by any partition. -/
def State.usedPlaces (s : State) : List Place :=
  (s.parts.vals.map (fun p => (p.pages.vals.map (fun g => g.a.toList ++ g.b.toList ++ g.dest.toList)).flatten)).flatten

def State.placeFree (s : State) (used : List Place) (p : Place) : Bool :=
  !used.contains p && !s.mem.retired.contains p.key && (s.mem.poison.at? p.key).isNone

/-- Groups of a partition in ascending order from a rotation pointer on. -/
def rotated (l : List Nat) (n : Nat) : List Nat :=
  let k := if l.length = 0 then 0 else n % l.length
  l.drop k ++ l.take k

/-- HBM places of a group that are free. -/
def State.freeInGroup (s : State) (used : List Place) (g : Nat) : List Place :=
  ((List.range (if g % 8 < 4 then 4292 else 4291)).map
    (fun i => (⟨0, g / 8 * stackPages + 8 * i + g % 8⟩ : Place))).filter (s.placeFree used)

/-- Connectors in service (R342). -/
def State.connectors (s : State) : List Nat := (List.range 4).filter (fun c => decide (s.getF (ddTrained c) = 1))

def State.freeInConn (s : State) (used : List Place) (c : Nat) : List Place :=
  ((List.range (s.getF (ddPages c))).map (fun i => (⟨1, c * 131072 + i⟩ : Place))).filter (s.placeFree used)

def State.freeInSlice (s : State) (used : List Place) (d : Nat) : List Place :=
  ((List.range (6103515 / 4)).map (fun i => (⟨2, 4 * i + d⟩ : Place))).filter (s.placeFree used)

/-- A place found on the rotation: the pointer after it and the place. -/
def State.findOn (s : State) (free : Nat → List Place) (order : List Nat) : Option (Nat × Place) :=
  match order.find? (fun g => !(free g).isEmpty) with
  | some g => (s.choose (free g)).map (fun x => (g, x))
  | none => none

/-- A physical page of a tier for a partition (R379): the state after the rotation, and the place. -/
def State.allocIn (s : State) (p tier : Nat) : Option (State × Place) :=
  let q := s.part p
  let used := s.usedPlaces
  if tier = 0 then
    let gs := (List.range 64).filter (fun g => bit q.grant.groups.toNat g)
    let order := gs.filter (fun g => decide (q.rotorH ≤ g)) ++ gs.filter (fun g => decide (g < q.rotorH))
    (s.findOn (s.freeInGroup used) order).map
      (fun r => ((s.fresh).setPart p { q with rotorH := r.1 + 1 }, r.2))
  else if tier = 1 then
    let cs := s.connectors
    let order := cs.filter (fun c => decide (q.rotorD ≤ c)) ++ cs.filter (fun c => decide (c < q.rotorD))
    (s.findOn (s.freeInConn used) order).map
      (fun r => ((s.fresh).setPart p { q with rotorD := r.1 + 1 }, r.2))
  else
    if s.getF fsMode = 2 then none
    else
      (s.findOn (s.freeInSlice used) (rotated [0, 1, 2, 3] q.rotorF)).map
        (fun r => ((s.fresh).setPart p { q with rotorF := r.1 + 1 }, r.2))

/-! ## Pool-cache lines (R351 to R355) -/

/-- Set of a line (R351). -/
def lineSet (la : Nat) : Nat := la % 16384

/-- The line of a local address, when it is present. -/
def State.line? (s : State) (a : Nat) : Option Line := s.mem.lines.at? (a / 256)

/-- Byte at a local address as the home pool cache serves it (R352). -/
def State.homeByte (s : State) (a : Nat) : Byte :=
  match s.line? a with
  | some _ => Memory.read s.mem.lineCells a
  | none => Memory.read s.mem.cells a

/-- Partition that holds the page at a local address, 16 for none. -/
def State.pageOwner (s : State) (a : Nat) : Nat :=
  let here := fun (x : Option Place) => x.any (fun y => decide (y.tier ≤ 1 ∧ y.addr = a / pageBytes * pageBytes))
  match s.parts.find? (fun p => p.2.pages.any (fun g => here g.2.a || here g.2.b)) with
  | some p => p.1
  | none => 16

/-- Count a parcel read or written by the controller of a local address (R364, R367). -/
def State.countParcel (s : State) (a : Nat) (write : Bool) : State :=
  let s := { s with mem := { s.mem with lastReq :=
    if a < 0x010000000000 then s.mem.lastReq.put (a / 0x2000000000) s.now else s.mem.lastReq } }
  if a < 0x010000000000 then
    let st := a / 0x2000000000
    let s := s.setF (hbSelfRefresh st) 0
    (s.addF (if write then hbWrites st else hbReads st) 1).credit (s.pageOwner a) (if write then 40 else 39) 1
  else
    let c := (a - 0x010000000000) / 0x4000000000
    s.addF (if write then ddWrites c else ddReads c) 1

/-- The page of a partition whose copy for accesses is at a local page, with its partition page number. -/
def Part.pageAtLocal (p : Part) (a : Nat) : Option (Nat × Page) :=
  p.pages.find? (fun g => match g.2.a with
    | some x => decide (x.tier ≤ 1 ∧ x.addr = a / pageBytes * pageBytes)
    | none => false)

/-- Sectors of a mask set: the sector of a local address becomes dirty in a staged page (R382). -/
def State.markDirty (s : State) (p a : Nat) : State :=
  match (s.part p).pageAtLocal a with
  | some (n, g) =>
    if g.b.isSome then
      s.setPage p (n * pageBytes) { g with dirty := g.dirty ||| BitVec.ofNat 32 (2 ^ (a % pageBytes / sectorBytes)) }
    else s
  | none => s

/-- Write a line back to its home tier and leave it valid (R355). -/
def State.writeBack (s : State) (la : Nat) : State :=
  match s.mem.lines.at? la with
  | some l =>
    if l.dirty then
      let a := la * 256
      let s := { s with mem := { s.mem with
        cells := Memory.writeN s.mem.cells a (Memory.readN s.mem.lineCells a 256),
        lines := s.mem.lines.put la { l with dirty := false } } }
      let s := (s.addF (pcWb (dieOf a)) 1).countParcel a true
      s.markDirty l.part a
    else s
  | none => s

/-- Forget a line without writing it back. -/
def State.dropLine (s : State) (la : Nat) : State :=
  { s with mem := { s.mem with lines := s.mem.lines.del la, lineCells := Memory.zero s.mem.lineCells (la * 256) 256 } }

/-- Write a line back and invalidate it. -/
def State.evict (s : State) (la : Nat) : State := (s.writeBack la).dropLine la

/-- Lines present in a set of a die, with their ways. -/
def State.linesOfSet (s : State) (la : Nat) : List (Nat × Line) :=
  s.mem.lines.filter (fun x => decide (lineSet x.1 = lineSet la ∧ dieOf (x.1 * 256) = dieOf (la * 256)))

/-- Fill a line into a way of the requesting partition, replacing its least recently used line in the set (R351). -/
def State.fillLine (s : State) (p la : Nat) : State :=
  match s.mem.lines.at? la with
  | some l =>
    let s := (s.addF (pcHit (dieOf (la * 256))) 1).credit p 36 1
    { s with mem := { s.mem with lines := s.mem.lines.put la { l with used := s.mem.clock }, clock := s.mem.clock + 1 } }
  | none =>
    let a := la * 256
    let d := dieOf a
    let s := (s.addF (pcMiss d) 1).credit p 37 1
    let ways := (List.range 16).filter (fun w => bit (s.part p).grant.ways.toNat (16 * d + w))
    let here := (s.linesOfSet la).filter (fun x => ways.contains x.2.way)
    let free := ways.find? (fun w => !(here.any (fun x => decide (x.2.way = w))))
    let victim := here.foldl (fun (b : Option (Nat × Line)) x =>
      match b with
      | none => some x
      | some y => if x.2.used < y.2.used then some x else some y) none
    let (s, way) := match free, victim with
      | some w, _ => (s, some w)
      | none, some v => (s.evict v.1, some v.2.way)
      | none, none => (s, none)
    match way with
    | none => s
    | some w =>
      let s := s.countParcel a false
      { s with mem := { s.mem with
        lineCells := Memory.writeN s.mem.lineCells a (Memory.readN s.mem.cells a 256),
        lines := s.mem.lines.put la { part := p, way := w, dirty := false, used := s.mem.clock },
        clock := s.mem.clock + 1 } }

/-- Write bytes at a local address through the home pool cache: a line that is present takes them and becomes
dirty, otherwise they go to the controller. -/
def State.homeWrite (s : State) (p a : Nat) (b : Byte) : State :=
  match s.mem.lines.at? (a / 256) with
  | some l => { s with mem := { s.mem with lineCells := Memory.write s.mem.lineCells a b,
                                            lines := s.mem.lines.put (a / 256) { l with dirty := true } } }
  | none => { s with mem := { s.mem with cells := Memory.write s.mem.cells a b } }.markDirty p a

/-- Write back, and drop when `drop` holds, every line of a physical page in HBM or DDR5 (R355, R385, R386). -/
def State.flushPage (s : State) (x : Place) (drop : Bool) : State :=
  if x.tier = 2 then s
  else
    let las := (s.mem.lines.keys).filter (fun la => decide (la * 256 / pageBytes = x.addr / pageBytes))
    las.foldl (fun s la => if drop then s.evict la else s.writeBack la) s

/-! ## Reading and writing partition space -/

/-- Byte of a physical place at an offset, not through a line. -/
def State.placeByte (s : State) (x : Place) (o : Nat) : Byte :=
  if x.tier = 2 then Memory.read s.mem.flash (x.page * pageBytes + o) else Memory.read s.mem.cells (x.addr + o)

/-- Byte at a partition offset, from the copy that accesses use; an ABSENT page reads zero (R375, R383). -/
def State.partByte (s : State) (p off : Nat) : Byte :=
  let g := (s.part p).page off
  match g.a with
  | none => 0
  | some x => if x.tier = 2 then s.placeByte x (off % pageBytes) else s.homeByte (x.addr + off % pageBytes)

def State.partRead (s : State) (p off : Nat) : Nat → List Byte
  | 0 => []
  | n + 1 => s.partByte p off :: s.partRead p (off + 1) n

def State.partLe (s : State) (p off n : Nat) : Nat := leNat (s.partRead p off n)

/-- Write one byte at a partition offset whose page has a copy. -/
def State.partWriteByte (s : State) (p off : Nat) (b : Byte) : State :=
  match ((s.part p).page off).a with
  | none => s
  | some x =>
    if x.tier = 2 then { s with mem := { s.mem with flash := Memory.write s.mem.flash (x.page * pageBytes + off % pageBytes) b } }
    else s.homeWrite p (x.addr + off % pageBytes) b

def State.partWriteGo (s : State) (p off : Nat) : List Byte → State
  | [] => s
  | b :: t => (s.partWriteByte p off b).partWriteGo p (off + 1) t

/-- Copy every byte of one place to another (the mover, R386). -/
def State.copyPlace (s : State) (x y : Place) : State :=
  let src := if x.tier = 2 then Memory.slice s.mem.flash (x.page * pageBytes) pageBytes 0
    else Memory.slice s.mem.cells x.addr pageBytes 0
  if y.tier = 2 then
    let m := Memory.zero s.mem.flash (y.page * pageBytes) pageBytes
    { s with mem := { s.mem with flash := src.foldl (fun m c => Memory.write m (y.page * pageBytes + c.1) c.2) m } }
  else
    let m := Memory.zero s.mem.cells y.addr pageBytes
    { s with mem := { s.mem with cells := src.foldl (fun m c => Memory.write m (y.addr + c.1) c.2) m } }

/-- Make every byte of a place zero (R375). -/
def State.zeroPlace (s : State) (x : Place) : State :=
  if x.tier = 2 then { s with mem := { s.mem with flash := Memory.zero s.mem.flash (x.page * pageBytes) pageBytes } }
  else { s with mem := { s.mem with cells := Memory.zero s.mem.cells x.addr pageBytes } }

end Sys2Proof.Machine
end

