-- ==== Sys2Proof/Machine/Sluice.lean ====
section
/-! DEFINITION. Sluice: holds, first copies, staging, write-back, moves, reclaim, and the declaring and freeing of
objects (R375 to R391, R405, R406). -/

namespace Sys2Proof.Machine

open Sys2Proof

/-! ## What an operation touches (R384) -/

/-- The page numbers of [off, off + n). -/
def pagesOf (off n : Nat) : List Nat :=
  if n = 0 then [] else (List.range ((off + n - 1) / pageBytes - off / pageBytes + 1)).map (fun i => off / pageBytes + i)

/-- The byte ranges of partition space that an FT operation touches. -/
def FtOp.ranges (o : FtOp) : List (Nat × Nat) :=
  if 3 ≤ o.kind then [(faOff o.addr.toNat, 8)]
  else (tRanges o.memory).map (fun r => (faOff (tAddr o.memory) + r.1, r.2))

/-- The pages that an FT operation touches. -/
def FtOp.pages (o : FtOp) : List Nat := ((o.ranges.map (fun r => pagesOf r.1 r.2)).flatten).eraseDups

/-- The operation writes memory. -/
def FtOp.writes (o : FtOp) : Bool := decide (o.kind ≠ 0)

/-- FT operations of this module's contexts under way on page `n` of partition `p` (R384). -/
def State.inFlight (s : State) (p n : Nat) : List (Nat × Nat × Slot) :=
  (s.ctxs.filter (fun c => decide (keyPart c.1 = p))).flatMap
    (fun c => (c.2.slots.filter (fun x => x.2.translated && !x.2.done && x.2.op.pages.contains n)).map
      (fun x => (c.1, x.1, x.2)))

/-- An operation or an image command holds the page (R384). -/
def State.held (s : State) (p n : Nat) : Bool :=
  decide ((s.part p).pages.at? n |>.any (fun g => decide (0 < g.holds))) || !(s.inFlight p n).isEmpty

/-- WINDOW of an object; 0 means 2 (R392). -/
def Obj.width (o : Obj) : Nat := if o.window = 0 then 2 else o.window

/-- Object and layer of each layer that a launch's windows use now, nearest first: its phase and the W − 1 phases
after it, running on into the next step (R393). -/
def Part.launchLayers (p : Part) (l : Launch) : List (Nat × Nat) :=
  match p.graphs.at? l.graph with
  | some g => (List.range 15).flatMap (fun i =>
      match g.phases[(l.phase + i) % g.phases.length]? with
      | some ph => ph.windows.filter (fun w => match p.objects.at? w.1 with
          | some o => decide (i < o.width)
          | none => false)
      | none => [])
  | none => []

/-- Layers that the windows of a partition's launches use now. -/
def Part.windowLayers (p : Part) : List (Nat × Nat) := p.launches.vals.flatMap p.launchLayers

/-- Layer of a page of an object. -/
def Obj.layerOf (o : Obj) (n : Nat) : Nat := (o.layers.filter (fun f => decide (f ≤ n))).length - 1

/-- First page and page count of a layer. -/
def Obj.layerPages (o : Obj) (l : Nat) : Nat × Nat :=
  let a := o.layers.getD l o.pages
  let b := o.layers.getD (l + 1) o.pages
  (a, b - a)

/-- The page belongs to a layer that a window is using. -/
def Part.inWindow (p : Part) (n : Nat) : Bool :=
  match p.objAt (n * pageBytes) with
  | some o => p.windowLayers.any (fun w => decide (w.1 = o.1 ∧ w.2 = o.2.layerOf (n - o.1 / pageBytes))) && !o.2.layers.isEmpty
  | none => false

/-- Every translation cache forgets a page whose copies change place (R376). -/
def State.forgetPage (s : State) (p n : Nat) : State :=
  { s with mem := { s.mem with xlat := s.mem.xlat.mapV (fun _ l => l.filter (fun x => decide (x ≠ (p, n)))) } }

/-! ## Reclaim (R388) -/

/-- Object of a page number. -/
def Part.objOf (p : Part) (n : Nat) : Option (Nat × Obj) := p.objAt (n * pageBytes)

/-- Pages of a partition that reclaim may take: not pinned, held, staging or moving, nor used by a window unless `force`
says that its layers must leave (R388, R391). -/
def State.reclaimable (s : State) (p : Nat) (n : Nat) (g : Page) (force : Bool) : Bool :=
  let q := s.part p
  (match q.objOf n with | some o => decide (o.2.pin = 0) | none => true) &&
  (decide (g.state = .resident) || decide (g.state = .writingBack)) &&
  !s.held p n && (force || !q.inWindow n) && (match q.objOf n with | some o => !o.2.loading | none => true)

/-- Rank of a page (R377). -/
def Part.rankOf (p : Part) (n : Nat) : Nat :=
  match p.objOf n with | some o => roleRank o.2.role o.2.access | none => 7

/-- The page with the lowest rank, least recently accessed within it. -/
def pickPage (p : Part) (l : List (Nat × Page)) : Option (Nat × Page) :=
  l.foldl (fun (b : Option (Nat × Page)) x =>
    match b with
    | none => some x
    | some y =>
      if p.rankOf x.1 < p.rankOf y.1 ∨ (p.rankOf x.1 = p.rankOf y.1 ∧ x.2.used < y.2.used) then some x else some y) none

/-- Cells put into a memory at a base, over a range that is made zero first. -/
def pasteCells (m : List Host.Cell) (base n : Nat) (cells : List Host.Cell) : List Host.Cell :=
  cells.foldl (fun m c => Memory.write m (base + c.1) c.2) (Memory.zero m base n)

/-- Base of a place in the memory of its tier. -/
def Place.base (x : Place) : Nat := if x.tier = 2 then x.page * pageBytes else x.addr

/-- Copy one sector of a place to another place (R385). -/
def State.copySector (s : State) (x y : Place) (k : Nat) : State :=
  let cells := Memory.slice (if x.tier = 2 then s.mem.flash else s.mem.cells) (x.base + k * sectorBytes) sectorBytes 0
  if y.tier = 2 then
    { s with mem := { s.mem with flash := pasteCells s.mem.flash (y.base + k * sectorBytes) sectorBytes cells } }
  else { s with mem := { s.mem with cells := pasteCells s.mem.cells (y.base + k * sectorBytes) sectorBytes cells } }

/-- Write every dirty sector of a staged page to its home copy (R385). -/
def State.writeSectors (s : State) (p n : Nat) (g : Page) : State :=
  match g.a, g.b with
  | some a, some b =>
    let s := s.flushPage a false
    let g := (s.part p).pages.getD n g
    let s := if g.dirty ≠ 0 ∧ (s.mem.poison.at? a.key).isSome then s.poisonPlace b else s
    let s := (List.range 32).foldl (fun (s : State) k =>
      if bit g.dirty.toNat k then ((s.copySector a b k).addF ⟨slMover (n % 4) 8, 0, 48⟩ 256).flashWrote b 1 else s) s
    s.setPage p (n * pageBytes) { g with dirty := 0, state := .resident }
  | _, _ => s

/-- Drop the upper copy of a staged page: the home copy becomes the single one (R385). -/
def State.dropUpper (s : State) (p n : Nat) : State :=
  let g := (s.part p).pages.getD n Page.absent
  match g.a, g.b with
  | some a, some _ =>
    let s := (s.writeSectors p n g).forgetPage p n
    let s := (s.flushPage a true).freePlace a
    let g := (s.part p).pages.getD n g
    s.setPage p (n * pageBytes) { g with a := g.b, b := none, dirty := 0, state := .resident }
  | _, _ => s

/-- Move a single-home page to a place and free the old one (R386). -/
def State.movePage (s : State) (p n : Nat) (y : Place) : State :=
  let g := (s.part p).pages.getD n Page.absent
  match g.a with
  | some x =>
    let s := ((s.forgetPage p n).flushPage x true).copyPlace x y
    let s := s.addF ⟨slMover (n % 4) (if y.tier < x.tier then 0 else 8), 0, 48⟩ 8192
    let s := if (s.mem.poison.at? x.key).isSome then s.poisonPlace y else s
    let s := (s.flashWrote y 32).freePlace x
    let g := (s.part p).pages.getD n g
    s.setPage p (n * pageBytes) { g with a := some y, b := none, dirty := 0, state := .resident, dest := none, level := 0 }
  | none => s

/-- Room in a tier for one more copy of a partition: within its quota and with a free page. -/
def State.roomIn (s : State) (p tier : Nat) : Bool :=
  decide ((s.part p).use tier < (s.part p).quota tier) && (s.allocIn p tier).isSome

/-- One step of reclaim in a tier (R388): the first of its four actions that finds a page; `lim` is the rank
below which single-home and dirty pages may be taken. -/
def State.reclaimStep (s : State) (p tier lim : Nat) : Option State :=
  let q := s.part p
  let ok := q.pages.filter (fun x => s.reclaimable p x.1 x.2 (decide (99 ≤ lim)))
  let inA := ok.filter (fun x => match x.2.a with | some a => decide (a.tier = tier) | none => false)
  let staged := inA.filter (fun x => x.2.b.isSome)
  let clean := staged.filter (fun x => decide (x.2.dirty = 0))
  let dirty := staged.filter (fun x => decide (q.rankOf x.1 < lim))
  let homes := ok.filter (fun x => match x.2.b with | some b => decide (b.tier = tier) | none => false)
  let single := inA.filter (fun x => x.2.b.isNone && decide (q.rankOf x.1 < lim))
  match pickPage q clean, pickPage q dirty, pickPage q homes, pickPage q single with
  | some x, _, _, _ => some (s.dropUpper p x.1)
  | none, some x, _, _ => some (s.dropUpper p x.1)
  | none, none, some x, _ =>
    let s := match x.2.b with | some b => s.freePlace b | none => s
    some (s.setPage p (x.1 * pageBytes) { x.2 with b := none, dirty := 0, state := .resident })
  | none, none, none, some x =>
    let ts := match q.objOf x.1 with | some o => o.2.tiers | none => [0, 1, 2]
    match (ts.filter (fun t => decide (tier < t))).find? (s.roomIn p) with
    | some t =>
      match s.allocIn p t with
      | some (s, y) => some (s.movePage p x.1 y)
      | none => none
    | none => none
  | _, _, _, _ => none

/-- Reclaim in a tier until its use is at most `goal`, or nothing more can be reclaimed. -/
def State.reclaimTo (s : State) (p tier lim goal : Nat) : Nat → State
  | 0 => s
  | n + 1 =>
    if (s.part p).use tier ≤ goal then s
    else match s.reclaimStep p tier lim with
      | some s => s.reclaimTo p tier lim goal n
      | none => s

/-- A place in a tier for a copy of rank `lim`, reclaiming if need be (R378). -/
def State.placeIn (s : State) (p tier lim : Nat) : Option (State × Place) :=
  let q := s.part p
  if q.quota tier = 0 then none
  else
    let s := s.reclaimTo p tier lim (q.quota tier - 1) (q.pages.length + 1)
    if (s.part p).use tier < (s.part p).quota tier then s.allocIn p tier else none

/-- A place in the first tier of a list that has room. -/
def State.placeFirst (s : State) (p lim : Nat) : List Nat → Option (State × Place)
  | [] => none
  | t :: ts =>
    match s.placeIn p t lim with
    | some r => some r
    | none => s.placeFirst p lim ts

/-- First copy of an ABSENT page (R375, R378, R379): `none` when no tier has room.  With ROLE 1 and ACCESS 1 the
home copy goes below HBM (R377). -/
def State.firstCopy (s : State) (p off : Nat) : Option State :=
  match (s.part p).objAt off with
  | none => none
  | some o =>
    match s.placeFirst p (roleRank o.2.role o.2.access) o.2.tiers with
    | none => none
    | some (s, x) =>
      let s := (s.zeroPlace x).forgetPage p (off / pageBytes)
      some (s.setPage p off { (s.part p).page off with state := .resident, a := some x, b := none, dirty := 0,
                                                       used := s.mem.clock })

/-- Begin and finish the staging of a page into an upper tier (R381, R383): the upper copy takes the page's bytes. -/
def State.stageInto (s : State) (p n : Nat) (ts : List Nat) : Option State :=
  let q := s.part p
  let g := q.pages.getD n Page.absent
  match g.a with
  | none => none
  | some x =>
    if g.b.isSome then none
    else
      match s.placeFirst p (q.rankOf n) (ts.filter (fun t => decide (t < x.tier))) with
      | none => none
      | some (s, y) =>
        let g := (s.part p).pages.getD n g
        let s := s.forgetPage p n
        some (s.setPage p (n * pageBytes) { g with state := .staging, a := some y, b := some x, dirty := 0, arrived := 0 })

/-- All sectors of a page in STAGING arrive (R383): the upper copy is filled from the home copy. -/
def State.stagingDone (s : State) (p n : Nat) : State :=
  let g := (s.part p).pages.getD n Page.absent
  match g.a, g.b with
  | some y, some x =>
    let s := (s.flushPage x false).copyPlace x y
    let s := s.addF ⟨slMover (n % 4) 0, 0, 48⟩ 8192
    let s := if (s.mem.poison.at? x.key).isSome then s.poisonPlace y else s
    let g := (s.part p).pages.getD n g
    s.setPage p (n * pageBytes) { g with state := .resident, arrived := BitVec.allOnes 32 }
  | _, _ => s

/-! ## Objects (R373, R390, R405, R406) -/

/-- Page numbers of a partition's space (44 bits). -/
def spacePages : Nat := 2 ^ 44 / pageBytes

/-- A gap of `n` pages holds no object. -/
def Part.gapFree (p : Part) (b n : Nat) : Bool :=
  p.objects.all (fun o => decide (o.1 + o.2.pages * pageBytes ≤ b ∨ b + n * pageBytes ≤ o.1)) &&
    decide (b + n * pageBytes ≤ 2 ^ 44)

/-- Bases at which a new object could go: 0 and the ends of the objects; which one the 7208 takes is left open
(notes/assumptions/21.md). -/
def Part.bases (p : Part) (n : Nat) : List Nat :=
  ((0 :: p.objects.map (fun o => o.1 + o.2.pages * pageBytes)).filter (fun b => p.gapFree b n))

/-- A new object of a partition, when its commitment holds (R390). -/
def State.declare (s : State) (p : Nat) (o : Obj) : Option (State × Nat) :=
  let q := s.part p
  match s.choose (q.bases o.pages) with
  | none => none
  | some b =>
    let q' := { q with objects := q.objects.put b o }
    if q'.fits then some ((s.fresh).setPart p q', b) else none

/-- An object with a role and no hints. -/
def Obj.plain (pages role : Nat) : Obj :=
  { pages := pages, role := role, pin := 0, access := 0, window := 0, layers := [], imageId := none, loading := false,
    image := none, poisoned := false, freeing := false, nextWindow := none, nextLayers := none }

/-- Free every copy of an object's pages without write-back, and the object (R406); a page in use by a poisoned
physical page stays out of use by its poison mark (R345). -/
def State.freeNow (s : State) (p b : Nat) : State :=
  match (s.part p).objects.at? b with
  | none => s
  | some o =>
    let ns := (List.range o.pages).map (fun i => b / pageBytes + i)
    let gs := (s.part p).pages.filter (fun x => ns.contains x.1)
    let s := gs.foldl (fun (s : State) x =>
      match x.2.a with
      | some a => if a.tier = 2 then s else
          { s with mem := { s.mem with
            lines := s.mem.lines.keep (fun la _ => decide (la * 256 / pageBytes ≠ a.addr / pageBytes)),
            lineCells := Memory.zero s.mem.lineCells a.addr pageBytes } }
      | none => s) s
    let s := gs.foldl (fun (s : State) x => (x.2.a.toList ++ x.2.b.toList ++ x.2.dest.toList).foldl (fun (s : State) y => s.freePlace y) s) s
    let s := ns.foldl (fun (s : State) n => s.forgetPage p n) s
    let q := s.part p
    s.setPart p { q with objects := q.objects.del b, pages := q.pages.keep (fun n _ => !ns.contains n) }

/-- Any page of an object is held, staging or moving (R406, R413). -/
def State.objHeld (s : State) (p b : Nat) : Bool :=
  match (s.part p).objects.at? b with
  | none => false
  | some o => o.loading || (List.range o.pages).any (fun i =>
      s.held p (b / pageBytes + i) ||
      (match (s.part p).pages.at? (b / pageBytes + i) with
        | some g => decide (g.state = .moving ∨ g.state = .staging)
        | none => false))

/-- Free an object, now or when its holds end. -/
def State.freeObj (s : State) (p b : Nat) : State :=
  match (s.part p).objects.at? b with
  | none => s
  | some o =>
    if s.objHeld p b then s.setPart p { s.part p with objects := (s.part p).objects.put b { o with freeing := true } }
    else s.freeNow p b

/-- The destruction of a partition ends once its objects are gone: its lines are dropped without write-back, everything
that it held is free, its VF is unmapped, and the module leaves SERVICE with its last partition (R36, R295, R543). -/
def State.finishDestroy (s : State) (p : Nat) : State :=
  let q := s.part p
  if q.state = 3 ∧ q.objects.isEmpty = true then
    let s := (s.mem.lines.filter (fun l => decide (l.2.part = p))).foldl (fun (s : State) l => s.dropLine l.1) s
    let s := s.setPart p { Part.reset with retired := q.retired }
    let s := if s.mode = .service ∧ s.parts.all (fun x => decide (x.2.state = 0)) then s.setMode .ready else s
    match s.host.inProgress.find? (fun c => decide (dOpcode c.d = 0x0103 ∧ c.part = p ∧ c.started = true)) with
    | some c => s.finish c 0 0
    | none => s
  else s

/-- Complete what waited for holds: objects being freed, `object.free` commands on them, and partitions being
destroyed. -/
def State.sweepFrees (s : State) : State :=
  let s := s.parts.foldl (fun (s : State) q => q.2.objects.foldl (fun (s : State) o =>
    if o.2.freeing && !s.objHeld q.1 o.1 then
      let s := s.freeNow q.1 o.1
      match s.host.inProgress.find? (fun c => decide (dOpcode c.d = 0x0202 ∧ c.part = q.1 ∧ c.a = o.1 ∧ c.started = true)) with
      | some c => s.finish c 0 0
      | none => s
    else s) s) s
  s.parts.keys.foldl (fun (s : State) p => s.finishDestroy p) s

/-- Mark an object as holding a poisoned page: OBJECT_POISONED once (R413). -/
def State.markPoisoned (s : State) (p n : Nat) : State :=
  match (s.part p).objOf n with
  | none => s
  | some o =>
    let s := s.setPart p { s.part p with pages := (s.part p).pages.put n { (s.part p).pages.getD n Page.absent with poison := true } }
    if o.2.poisoned then s
    else
      (s.setPart p { s.part p with objects := (s.part p).objects.put o.1 { o.2 with poisoned := true } }).raise
        kSlObjectPoisoned (0x800 + p) { part := p, detail := o.1 }

/-- An error poisons a physical page: Sluice marks the page and object whose accesses use it (R339, R350, R413). -/
def State.poisonHome (s : State) (x : Place) : State :=
  let s := s.poisonPlace x
  s.parts.foldl (fun (s : State) q => q.2.pages.foldl (fun (s : State) g =>
    if g.2.a = some x ∨ (g.2.b = some x ∧ g.2.state = .staging) then s.markPoisoned q.1 g.1 else s) s) s

/-- A page of a partition is poisoned: by its record's mark or by the mark of the copy that accesses use (R339, R345). -/
def State.pagePoison (s : State) (p n : Nat) : Bool :=
  match (s.part p).pages.at? n with
  | none => false
  | some g => g.poison || (match g.a with | some x => (s.mem.poison.at? x.key).isSome | none => false)

end Sys2Proof.Machine
end

