-- ==== Sys2Proof/Machine/Trees.lean ====
section
/-! DEFINITION. Collective groups and the trees over their ranks (R485 to R492, R503). -/

namespace Sys2Proof.Machine

open Sys2Proof

/-- Key of a group: the partition that holds it and its GID. -/
def groupKey (p gid : Nat) : Nat := p * 65536 + gid

/-- A group of a partition. -/
def State.group? (s : State) (p gid : Nat) : Option Group := s.coll.groups.at? (groupKey p gid)

/-- Members of a group other than this one, with their ranks. -/
def Group.others (g : Group) : List (Nat × Nat × Nat) :=
  (g.members.zipIdx.filter (fun x => decide (x.2 ≠ g.rank))).map (fun x => (x.2, x.1.1, x.1.2))

/-- Chip of a rank. -/
def Group.chip (g : Group) (r : Nat) : Nat := ((g.members[r]?).map (fun m => m.1)).getD 0xFFFF

/-- Bytes of a chunk (R490). -/
def chunkBytes : Nat := 4096

/-- Shard size (R492). -/
def shardSize (n len : Nat) : Nat := (len + n * chunkBytes - 1) / (n * chunkBytes) * chunkBytes

/-- Parent of a rank in the tree with root `k` (R491). -/
def treeParent (n fanin k r : Nat) : Option Nat :=
  let r' := (r + n - k) % n
  if r' = 0 then none else some (((r' - 1) / fanin + k) % n)

/-- Children of a rank in the tree with root `k` (R491). -/
def treeChildren (n fanin k r : Nat) : List Nat :=
  let r' := (r + n - k) % n
  ((List.range fanin).map (fun i => fanin * r' + i + 1)).filterMap (fun x => if x < n then some ((x + k) % n) else none)

/-- The operation is a reduction: REDUCE, ALL_REDUCE, REDUCE_SCATTER. -/
def CollOp.reduces (o : CollOp) : Bool := decide (o.op = 0 ∨ o.op = 1 ∨ o.op = 3)

/-- Chunks of an operation; those of a PERMUTE are the units of its outgoing segments. -/
def CollOp.chunkCount (o : CollOp) : Nat :=
  if o.op = 5 then (o.segOut.map (fun g => g.units)).sum else (o.len + chunkBytes - 1) / chunkBytes

/-- Bytes of one chunk. -/
def CollOp.chunkLen (o : CollOp) (c : Nat) : Nat := min chunkBytes (o.len - chunkBytes * c)

/-- Root of the tree of a chunk (R491). -/
def CollOp.rootOf (o : CollOp) (n c : Nat) : Nat :=
  if o.op = 2 ∨ o.op = 3 then chunkBytes * c / shardSize n o.len else o.root

/-- Roots of the trees of an operation. -/
def CollOp.roots (o : CollOp) (n : Nat) : List Nat :=
  if o.op = 2 ∨ o.op = 3 then (List.range n).filter (fun k => decide (k * shardSize n o.len < o.len)) else [o.root]

/-- Ranks that an aborting member tells: parent, children and root of every tree in which it has a role, or the peers of
a permute's segments (R503). -/
def CollOp.tells (o : CollOp) (g : Group) : List Nat :=
  let n := g.members.length
  let l := if o.op = 5 then (o.segOut ++ o.segIn).map (fun x => x.peerRank)
    else (o.roots n).flatMap (fun k => (treeParent n g.fanin k g.rank).toList ++ treeChildren n g.fanin k g.rank ++ [k])
  (l.filter (fun r => decide (r ≠ g.rank))).eraseDups

/-- A COLL packet of an operation leaves for a rank (R495): its kind, its offset and its data. -/
def State.collSend (s : State) (o : CollOp) (kind rank seq : Nat) (data : List Byte) : State :=
  match s.group? o.part o.gid with
  | some g => s.emit (.coll kind (BitVec.ofNat 16 (g.chip rank)) (BitVec.ofNat 16 o.gid) (BitVec.ofNat 16 o.opseq) seq o.attempt data)
  | none => s

/-- ABORT goes out once to every rank that must hear of it. -/
def State.tellAbort (s : State) (o : CollOp) : State :=
  match s.group? o.part o.gid with
  | some g => (o.tells g).foldl (fun (s : State) r => s.collSend o 4 r 0 []) s
  | none => s

end Sys2Proof.Machine
end

