-- ==== Sys2Proof/Machine/Spill.lean ====
section
/-! DEFINITION. Shared operations of Spillway and of the rills: where contexts are, what they hold, discarding them,
handing out and returning tiles, stopping engines, ending launches, and the faults that do all this (R120 to R126,
R299 to R318, R428, R620 to R622, R628 to R633). -/

namespace Sys2Proof.Machine

open Sys2Proof

/-! ## Rills and partitions (R11, R20, R291) -/

/-- Rills of a partition, ascending. -/
def Part.rills (p : Part) : List Nat := (List.range 1024).filter (fun r => bit p.grant.cascades.toNat (r / 16))

/-- The rill is in service (R128). -/
def State.inService (s : State) (r : Nat) : Bool := decide (s.getF (rlOutOfService r) = 0)

/-- ARR cycles that a rill ran (R96). -/
def State.arrCycles (s : State) (r : Nat) : Nat :=
  ((s.terrace (r / 256)).cycles - (s.rill r).cyclesOff) / 100

/-- Scratchpad of a rill (R40). -/
def spadBase (r : Nat) : Nat := 0x040000000000 + r * 0x100000

/-! ## Where a context's region is (R85, R124) -/

/-- Rill whose scratchpad holds the context's region: until the copy of a save finishes (R124). -/
def Context.spadRill (c : Context) : Option Nat :=
  match c.loc with
  | .resident r _ => some r
  | .saving r => some r
  | .saved => none
  | .restoring _ => none

/-- Rill in whose frame 0 to 3 the context is. -/
def Context.rillOf (c : Context) : Option Nat :=
  match c.loc with
  | .resident r _ => some r
  | _ => none

/-- Byte of a context's region. -/
def State.regionByte (s : State) (c : Context) (off : Nat) : Byte :=
  match c.spadRill with
  | some r => Memory.read s.mem.cells (spadBase r + c.regionBase + off)
  | none => Memory.read c.region off

def State.regionRead (s : State) (c : Context) (off : Nat) : Nat → List Byte
  | 0 => []
  | n + 1 => s.regionByte c off :: s.regionRead c (off + 1) n

def State.regionLe (s : State) (c : Context) (off n : Nat) : Nat := leNat (s.regionRead c off n)

/-- Poison marks that remain after bytes [a, a + n) of a scratchpad are written: a whole lane written is clean
(R242). -/
def clearLanes (poison : List Nat) (a n : Nat) : List Nat :=
  poison.filter (fun l => !(decide (a ≤ l ∧ l + 4 ≤ a + n)))

/-- Write bytes into a rill's scratchpad. -/
def State.spadWrite (s : State) (r a : Nat) (bs : List Byte) : State :=
  let s := { s with mem := { s.mem with cells := Memory.writeN s.mem.cells (spadBase r + a) bs } }
  s.setRill r { s.rill r with poison := clearLanes (s.rill r).poison a bs.length }

/-- Write bytes into a context's region. -/
def State.regionWrite (s : State) (k off : Nat) (bs : List Byte) : State :=
  match s.ctx? k with
  | none => s
  | some c =>
    match c.spadRill with
    | some r => s.spadWrite r (c.regionBase + off) bs
    | none => s.setCtx k { c with region := Memory.writeN c.region off bs }

/-- A poisoned lane among bytes [a, a + n) of a rill's scratchpad (R241). -/
def State.poisonAt (s : State) (r a n : Nat) : Option Nat :=
  (s.rill r).poison.find? (fun l => decide (l < a + n ∧ a < l + 4))

/-! ## Threads -/

def Context.thread? (c : Context) (t : Nat) : Option Thread := c.threads[t]?

def Context.setThread (c : Context) (t : Nat) (h : Thread) : Context := { c with threads := c.threads.set t h }

/-- Change one thread of a context. -/
def State.updThread (s : State) (k t : Nat) (f : Thread → Thread) : State :=
  match s.ctx? k with
  | some c => match c.thread? t with
    | some h => s.setCtx k (c.setThread t (f h))
    | none => s
  | none => s

/-- Write s[rd] of a thread; s0 discards (R86). -/
def Thread.setReg (h : Thread) (rd : BitVec 5) (v : W64) : Thread :=
  if rd = 0 then h
  else if v = 0 then { h with regs := h.regs.del rd.toNat }
  else { h with regs := h.regs.put rd.toNat v }

/-- Read s[n]; s0 reads 0 (R86). -/
def Thread.reg (h : Thread) (n : BitVec 5) : W64 := if n = 0 then 0 else h.regs.getD n.toNat 0

/-- A new thread: READY at the entry PC (R299). -/
def Thread.fresh (pc : W64) : Thread :=
  { hw := 0, regs := [], preds := 0, pc := pc, st := .ready, wait := .none, yielding := 0, tile := none, restartPc := none }

/-- Classes marked in a mask of `sy.wait`: bit 0 MX, 1 VX, 2 LS, 3 FT; whether an operation of the thread is not
complete.  FT counts every slot of the thread not yet done. -/
def State.pendingClasses (s : State) (k t mask : Nat) (c : Context) : Bool :=
  match c.rillOf with
  | none => (bit mask 0 && c.mx.any (fun q => decide (q.thr = t))) || (bit mask 1 && c.vx.any (fun q => decide (q.thr = t))) ||
      (bit mask 3 && c.slots.any (fun x => decide (x.2.thr = t) && !x.2.done && !x.2.discard))
  | some r =>
    let v := s.rill r
    (bit mask 0 && (v.mxQ.any (fun q => decide (q.ctx = k ∧ q.thr = t)) || c.mx.any (fun q => decide (q.thr = t)) ||
      v.array.cur.any (fun q => decide (q.ctx = k ∧ q.thr = t)))) ||
    (bit mask 1 && (v.vxQ.any (fun q => decide (q.ctx = k ∧ q.thr = t)) || c.vx.any (fun q => decide (q.thr = t)) ||
      v.vector.cur.any (fun q => decide (q.ctx = k ∧ q.thr = t)))) ||
    (bit mask 2 && v.lsWait.any (fun q => decide (q.ctx = k ∧ q.thr = t))) ||
    (bit mask 3 && c.slots.any (fun x => decide (x.2.thr = t) && !x.2.done && !x.2.discard))

/-! ## Frames of a rill (R84, R121) -/

/-- Contexts that use a rill's resident frames, threads and region: resident, or in frame 4. -/
def State.ctxsOn (s : State) (r : Nat) : List (Nat × Context) :=
  s.ctxs.filter (fun c => match c.2.loc with
    | .resident q _ => decide (q = r)
    | .restoring q => decide (q = r)
    | .saving q => decide (q = r)
    | .saved => false)

/-- Contexts in frames 0 to 3, or about to be (a restore under way holds its frame and threads). -/
def State.usersOf (s : State) (r : Nat) : List (Nat × Context) :=
  (s.ctxsOn r).filter (fun c => match c.2.loc with
    | .saving _ => false
    | _ => true)

/-- Contexts resident in frames 0 to 3. -/
def State.residentOn (s : State) (r : Nat) : List (Nat × Context) :=
  (s.ctxsOn r).filter (fun c => match c.2.loc with
    | .resident _ _ => true
    | _ => false)

/-- Thread counts of the users of a rill. -/
def State.threadsUsed (s : State) (r : Nat) : Nat := ((s.usersOf r).map (fun c => c.2.threads.length)).sum

/-- Region bases of a rill at which `n` bytes are free. -/
def State.freeBases (s : State) (r n : Nat) (except : Option Nat) : List Nat :=
  ((List.range 16).map (fun i => i * 0x10000)).filter (fun b => decide (b + n ≤ 0x100000) &&
    (s.ctxsOn r).all (fun c => except == some c.1 || decide (c.2.regionBase + c.2.regionLen ≤ b ∨ b + n ≤ c.2.regionBase)))

/-- Slots that a context must adopt: taken and not done (R125). -/
def Context.openSlots (c : Context) : Nat := (c.slots.filter (fun x => !x.2.done)).length

/-- The context fits a rill (R313), `except` naming a context about to leave it. -/
def State.fitsRill (s : State) (r : Nat) (c : Context) (except : Option Nat) : Bool :=
  let us := (s.usersOf r).filter (fun u => except != some u.1)
  decide (us.length < 4) &&
  decide ((us.map (fun u => u.2.threads.length)).sum + c.threads.length ≤ 32) &&
  !(s.freeBases r c.regionLen except).isEmpty &&
  decide (((s.rill r).trackers.filter (fun x => except != some x.1)).length + c.openSlots ≤ 128) &&
  (!c.ownsArray || (match (s.rill r).array.owner with
    | none => true
    | some o => except == some o))

/-- Some of a list's members, in the order drawn; which is left open (notes/assumptions/21.md). -/
def State.chooseMany {α : Type} [DecidableEq α] (s : State) (l : List α) : Nat → State × List α
  | 0 => (s, [])
  | n + 1 =>
    match s.choose l with
    | none => (s, [])
    | some x =>
      let r := (s.fresh).chooseMany (l.filter (fun y => decide (y ≠ x))) n
      (r.1, x :: r.2)

/-- Free hardware threads of a rill. -/
def State.freeHw (s : State) (r : Nat) : List Nat :=
  let used := (s.residentOn r).flatMap (fun c => c.2.threads.map (fun h => h.hw))
  (List.range 32).filter (fun h => !used.contains h)

/-- Put a context into a free resident frame with hardware threads of its own (R121). -/
def State.enterFrame (s : State) (k r : Nat) : State :=
  match s.ctx? k with
  | none => s
  | some c =>
    let frames := (List.range 4).filter (fun f => ((s.rill r).frames.at? f).isNone)
    match s.choose frames with
    | none => s
    | some f =>
      let s := s.fresh
      let (s, hw) := s.chooseMany (s.freeHw r) c.threads.length
      let c := { c with loc := .resident r f, threads := (c.threads.zip hw).map (fun x => { x.1 with hw := x.2 }) }
      (s.setCtx k c).setRill r { s.rill r with frames := (s.rill r).frames.put f k }

/-- The 64 KiB parts of a region. -/
def regionParts (base len : Nat) : List Nat := (List.range (len / 0x10000)).map (fun i => base / 0x10000 + i)

/-- A region must be zeroed before partition `p` uses it: some part was last used by another, or by none (R246). -/
def State.needsZero (s : State) (r base len p : Nat) : Bool :=
  (regionParts base len).any (fun i => decide ((s.rill r).lastUser.at? i ≠ some p))

/-- Claim a region of a rill for a context: its base is one of the free ones. -/
def State.claimRegion (s : State) (k r : Nat) : State :=
  match s.ctx? k with
  | none => s
  | some c =>
    match s.choose (s.freeBases r c.regionLen none) with
    | none => s
    | some b => (s.fresh).setCtx k { c with regionBase := b, zeroing := s.needsZero r b c.regionLen (keyPart k) }

/-! ## Blocked contexts (R88, R314) -/

/-- R88. -/
def Context.blocked (c : Context) : Bool :=
  c.threads.all (fun h => decide (h.st ≠ .ready ∧ h.st ≠ .waitDep)) && c.threads.any (fun h => decide (h.st = .waitRemote))

/-- Note since when a resident context has been blocked (R316). -/
def State.noteBlocked (s : State) (k : Nat) : State :=
  match s.ctx? k with
  | none => s
  | some c =>
    let b := c.blocked && c.rillOf.isSome
    if b = c.blockedSince.isSome then s else s.setCtx k { c with blockedSince := if b then some s.now else none }

/-! ## Numbers (R120) -/

/-- Latest time at which a slot of the context that is not done can still be answered: 2 ms after its issue. -/
def Context.lastReply (c : Context) (now : Nat) : Nat :=
  c.slots.foldl (fun m x => if x.2.done then m else max m (x.2.issued + nsU 2000000)) now

/-- The context number is in use or not yet free again. -/
def State.numberBusy (s : State) (p n : Nat) : Bool :=
  (s.ctxs.at? (ctxKey p n)).isSome || ((s.part p).retired.at? n).isSome

/-- Lowest free context number of a partition. -/
def State.freeNumber (s : State) (p : Nat) : Option Nat :=
  (List.range 65536).find? (fun n => !s.numberBusy p n)

/-! ## Engines stopped for a context (R126, R164, R217) -/

/-- An array that no pass runs in; `acc` of the sets stands. -/
def MxArray.stop (a : MxArray) : MxArray :=
  { a with cur := none, phase := if a.phase = .selfCheck then .selfCheck else .idle, passNo := 0, set := 0, steps := 0,
           done := 0, w := [], streams := [] }

/-- Abandon the pass that runs in a rill's array (R164, R177). -/
def State.abandonPass (s : State) (r : Nat) : State :=
  let v := s.rill r
  if v.array.cur.isSome then ((s.addF (arAbandoned r) 1).creditRill r 4 1).setRill r { v with array := v.array.stop } else s

/-- Discard the context's MX and VX instructions that have not started (R126). -/
def State.discardQueued (s : State) (k r : Nat) : State :=
  let v := s.rill r
  s.setRill r { v with mxQ := v.mxQ.filter (fun q => decide (q.ctx ≠ k)), vxQ := v.vxQ.filter (fun q => decide (q.ctx ≠ k)) }

/-- The context's pass is running. -/
def State.runsPass (s : State) (k r : Nat) : Bool := (s.rill r).array.cur.any (fun q => decide (q.ctx = k))

/-- The context's VX instruction is running. -/
def State.runsVx (s : State) (k r : Nat) : Bool := (s.rill r).vector.cur.any (fun q => decide (q.ctx = k))

/-! ## Fault-return deques (R302, R307, R308) -/

def State.frq (s : State) (c : Nat) : List FrItem := s.frqs.getD c []
def State.frqOverflow (s : State) (c : Nat) : List FrItem := s.frqOver.getD c []

/-- Cascades of a partition, ascending. -/
def Part.cascadeList (p : Part) : List Nat := (List.range 64).filter (fun c => bit p.grant.cascades.toNat c)

/-- Every rill of a cascade is out of service. -/
def State.cascadeOut (s : State) (c : Nat) : Bool := (List.range 16).all (fun i => !s.inService (16 * c + i))

/-- The cascade leaves the partition in a pending resize. -/
def Part.leaving (p : Part) (c : Nat) : Bool :=
  match p.newGrant with
  | some g => !bit g.cascades.toNat c
  | none => false

/-- Cascade whose fault-return deque takes a tile returned on cascade `c` (R307). -/
def State.returnCascade (s : State) (p c : Nat) : Nat :=
  let q := s.part p
  if q.leaving c || s.cascadeOut c then
    ((q.cascadeList).find? (fun d => decide (d ≠ c))).getD c
  else c

/-- Put an item into a fault-return deque, or behind it on its overflow list (R308). -/
def State.pushFrq (s : State) (c : Nat) (x : FrItem) : State :=
  if (s.frq c).length < 256 ∧ (s.frqOverflow c).length = 0 then { s with frqs := s.frqs.put c (s.frq c ++ [x]) }
  else { s with frqOver := s.frqOver.put c (s.frqOverflow c ++ [x]) }

/-- Return a tile with RETRY set (R307). -/
def State.returnTile (s : State) (p c : Nat) (t : Tile) : State :=
  s.pushFrq (s.returnCascade p c) { part := p, tile := { t with retry := true } }

/-! ## Ending a launch -/

/-- A launch number that no launch has: contexts that only wait for their engines or their replies. -/
def noLaunch : Nat := 0x10000

/-- Give the array up when the context owns it. -/
def State.freeArray (s : State) (k r : Nat) : State :=
  let v := s.rill r
  if v.array.owner = some k then s.setRill r { v with array := { v.array with owner := none } } else s

/-- Free the frame that a context holds. -/
def State.leaveFrame (s : State) (k r : Nat) : State :=
  s.setRill r { s.rill r with frames := (s.rill r).frames.keep (fun _ v => decide (v ≠ k)) }

/-- Take a context out of its rill: frame, array, queues, waiting LS accesses, pass. -/
def State.evictCtx (s : State) (k : Nat) : State :=
  match s.ctx? k with
  | none => s
  | some c =>
    match c.loc with
    | .saved => s
    | .resident r _ =>
      let s := if s.runsPass k r then s.abandonPass r else s
      let s := (s.discardQueued k r).freeArray k r
      let s := s.setRill r { s.rill r with lsWait := (s.rill r).lsWait.filter (fun q => decide (q.ctx ≠ k)),
                                           vector := if s.runsVx k r then VxEngine.reset else (s.rill r).vector }
      s.leaveFrame k r
    | .saving r => s.leaveFrame k r
    | .restoring r => s.leaveFrame k r

/-- Slots whose reply waits for a restore to end (R124). -/
def Context.heldSlots (c : Context) : List Nat :=
  c.held.filterMap (fun i => match i with
    | .ftCompletion tag _ _ _ _ => some (tagSlot tag)
    | _ => none)

/-- The context is gone: kept only as long as replies to its slots may come, with the bytes that its outgoing
operations still read (R120, R384). -/
def State.dropCtx (s : State) (k : Nat) : State :=
  match s.ctx? k with
  | none => s
  | some c =>
    let s := s.evictCtx k
    let late := c.slots.keep (fun n x => !x.done && !c.heldSlots.contains n)
    let s := { s with host := { s.host with repliesDropped := s.host.repliesDropped + c.held.length } }
    if !late.isEmpty then
      let region := match c.spadRill with
        | some r => Memory.slice s.mem.cells (spadBase r + c.regionBase) c.regionLen 0
        | none => c.region
      s.setCtx k { c with loc := .saved, launch := noLaunch, threads := [], slots := late,
                          mx := [], vx := [], region := region, stopped := true, ownsArray := false, blockedSince := none,
                          acc0 := [], acc1 := [], held := [], zeroing := false }
    else
      let s := { s with ctxs := s.ctxs.del k }
      s.setPart (keyPart k) { s.part (keyPart k) with retired := (s.part (keyPart k)).retired.put (keyNum k) s.now }

/-- End a context with its launch: at once, or at the last write of its running VX instruction (R126, R217). -/
def State.endCtx (s : State) (k : Nat) : State :=
  match s.ctx? k with
  | none => s
  | some c =>
    match c.rillOf with
    | some r =>
      if s.runsVx k r then
        let s := if s.runsPass k r then s.abandonPass r else s
        let s := s.discardQueued k r
        s.setCtx k { c with launch := noLaunch, stopped := true }
      else s.dropCtx k
    | none => s.dropCtx k

/-- Keys of the contexts of a launch. -/
def State.ctxsOf (s : State) (p h : Nat) : List Nat :=
  (s.ctxs.filter (fun c => decide (keyPart c.1 = p ∧ c.2.launch = h))).map (fun c => c.1)

/-- Reductions, permutes and pace exchanges of a launch abort, with ABORT sent to their peers; nothing of them is kept to
be resumed (R503, R619). -/
def State.abortOps (s : State) (p h : Nat) : State :=
  let mine := s.coll.ops.filter (fun o => decide (o.part = p ∧ o.launch = some h) && !o.done)
  let s := mine.foldl (fun (s : State) o => ((if o.waiting then s else s.tellAbort o).addF (ceOpsAborted p) 1).credit p 35 1) s
  let others := fun (o : CollOp) => !(decide (o.part = p ∧ o.launch = some h))
  let s := (s.coll.reshards.filter (fun o => decide (o.part = p ∧ o.launch = h))).foldl (fun (s : State) o =>
    match o.staging with
    | some b => s.freeObj p b
    | none => s) s
  { s with coll := { s.coll with ops := s.coll.ops.filter others, aborted := s.coll.aborted.filter others,
                                 reshards := s.coll.reshards.filter (fun o => !(decide (o.part = p ∧ o.launch = h))) } }

/-- Commands that wait on a launch end with its status: fences (R551), pre-emptions, re-shards and handovers. -/
def State.endWaiters (s : State) (p h : Nat) (status : W32) : State :=
  (s.host.inProgress.filter (fun c => decide (c.part = p ∧ c.started = true ∧ dfld c.d 20 0 16 = h ∧
      (dOpcode c.d = 0x0403 ∨ dOpcode c.d = 0x0405 ∨ dOpcode c.d = 0x0603 ∨
        (dOpcode c.d = 0x0705 ∧ dfld c.d 17 0 1 = 0))))).foldl
    (fun (s : State) c => s.finish c status 0) s

/-- A launch completes: its contexts end, its items leave every deque, its buckets and operations go, its ROLE 6
object is freed, and its `graph.launch` is posted (R126, R299, R428, R549). -/
def State.endLaunch (s : State) (p h : Nat) (status : W32) (result : W64 := 0) : State :=
  match s.launch? p h with
  | none => s
  | some l =>
    let s := (s.ctxsOf p h).foldl (fun (s : State) k => s.endCtx k) s
    let out := fun (x : FrItem) => !(decide (x.part = p ∧ x.tile.launch = h))
    let s := { s with frqs := s.frqs.mapV (fun _ q => q.filter out), frqOver := s.frqOver.mapV (fun _ q => q.filter out) }
    let s := s.abortOps p h
    let q := s.part p
    let s := s.setPart p { q with launches := q.launches.del h, buckets := q.buckets.keep (fun _ b => decide (b.launch ≠ h)) }
    let s := s.freeObj p l.saveObj
    let s := s.endWaiters p h status
    match s.launchCmd? p h with
    | some c => s.finish c status result
    | none => s

/-! ## Escalation, recovery, compute-reset triggers (R618, R628, R631 to R633) -/

/-- A compute reset is triggered: everything stops; COMPUTE_RESET carries it out (R618). -/
def State.triggerReset (s : State) (code : W32) : State :=
  if s.pwr.resetting.isSome then s else { s with pwr := { s.pwr with resetting := some (s.now, code) } }

/-- The rill's self-check after a cascade reset has not ended (R621). -/
def State.resetCheck (s : State) (r : Nat) : Bool :=
  decide ((s.rill r).array.phase = .selfCheck) && (s.rill r).vector.selfCheck

/-- Every array and vector engine runs its self-check: in stage 8 of power-up (R613) and in a compute reset (R618). -/
def State.selfChecking (s : State) : Bool :=
  decide (s.grotto.powerStage = 8) || (s.pwr.resetting.isSome && s.pwr.cleared)

/-- A counted event (R628): whether it brings its window's count to ESC_COUNT. -/
def State.countEsc (s : State) (t : Nat) : State × Bool :=
  let w := s.grotto.slate.escWindowS * 1000000000
  let e := match s.pwr.esc with
    | some (t0, n) => if t < t0 + w then (t0, n + 1) else (t, 1)
    | none => (t, 1)
  ({ s with pwr := { s.pwr with esc := some e } }, decide (s.grotto.slate.escCount ≤ e.2))

/-- Withdrawal begins: a compute reset runs, and the module withdraws when it ends (R629): 1 ESCALATED, 2 die,
3 coolant THERMAL_TRIP. -/
def State.withdraw (s : State) (cause : Nat) (code : W32) : State :=
  let s := { s with pwr := { s.pwr with withdrawing := cause } }
  if s.pwr.resetting.isSome then { s with pwr := { s.pwr with resetting := some (s.now, code) } } else s.triggerReset code

/-- The scope lies inside another (R633). -/
def Scope.inside (a b : Scope) : Bool :=
  match a, b with
  | .rill r, .rill q => decide (r = q)
  | .rill r, .cascade c => decide (r / 16 = c)
  | .bank r k, .bank q j => decide (r = q ∧ k = j)
  | .bank r _, .rill q => decide (r = q)
  | .bank r _, .cascade c => decide (r / 16 = c)
  | .cascade c, .cascade d => decide (c = d)
  | .link n, .link m => decide (n = m)
  | .wellhead, .wellhead => true
  | _, _ => false

/-- Rills that a scope stops. -/
def Scope.rills : Scope → Nat
  | .rill _ => 1
  | .bank _ _ => 1
  | .cascade _ => 16
  | _ => 0

/-- Every granted cascade is in the union (R633). -/
def State.unionIsAll (s : State) (l : List Scope) : Bool :=
  let cs := s.parts.vals.flatMap Part.cascadeList
  !cs.isEmpty && cs.all (fun c => l.any (fun x => decide (x = .cascade c)))

/-- A fault of the single-fault class (R631): a recovery starts, absorbs it, or restarts over the union (R633). -/
def State.beginRecovery (s : State) (x : Scope) (code : W32) : State :=
  let s := s.addF pwEvents 1
  match s.pwr.recovery with
  | none => { s with pwr := { s.pwr with recovery := some { scopes := [x], start := s.now, isUnion := false } } }
  | some r =>
    if r.scopes.any (fun y => x.inside y) then s
    else
      let l := r.scopes ++ [x]
      let s := if r.isUnion then s else s.raise kPwDoubleFault 0xFFF
      if l.contains .wellhead || s.unionIsAll l then
        let s := { s with pwr := { s.pwr with recovery := none } }
        let (s, esc) := s.countEsc s.tbNs
        if esc then s.withdraw 1 (kPwEscalated.flint 0xFFF) else s.triggerReset code
      else { s with pwr := { s.pwr with recovery := some { r with scopes := l, isUnion := true } } }

/-! ## Returning the tiles of a context (R126) -/

/-- A thread that gives its tile up: it resumes at its last `sy.steal` or `sy.halt` and executes it again. -/
def Thread.giveUp (h : Thread) : Thread :=
  { h with tile := none, st := .ready, wait := .none, pc := h.restartPc.getD h.pc }

/-- The tiles that a context's threads hold. -/
def Context.tiles (c : Context) : List Tile := c.threads.filterMap (fun h => h.tile)

/-- Cascade of a context: of the rill that it is on, or the lowest of its partition. -/
def State.cascadeOf (s : State) (k : Nat) (c : Context) : Nat :=
  match c.loc with
  | .resident r _ => r / 16
  | .saving r => r / 16
  | .restoring r => r / 16
  | .saved => ((s.part (keyPart k)).cascadeList).headD 0

/-- The threads of a context after their tiles were returned: those that held one resume at their tile boundary,
and the slots they took since are released without being observed (R126). -/
def Context.afterReturn (c : Context) : Context :=
  let gave := (c.threads.zipIdx.filter (fun x => x.1.tile.isSome)).map (fun x => x.2)
  { c with threads := c.threads.map (fun h => if h.tile.isSome then h.giveUp else h),
           slots := (c.slots.mapV (fun _ x => if gave.contains x.thr && x.sinceTile then { x with discard := true } else x)).keep
             (fun _ x => !(x.discard && x.done)),
           mx := [], vx := [] }

/-- A fault of severity 2 reported against a context: its tiles are returned, its queued instructions discarded, its
pass abandoned (R126, R164). -/
def State.recoverCtx (s : State) (k : Nat) : State :=
  match s.ctx? k with
  | none => s
  | some c =>
    if c.launch = noLaunch then s
    else
      let cas := s.cascadeOf k c
      let s := c.tiles.foldl (fun (s : State) t => s.returnTile (keyPart k) cas t) s
      let s := match c.rillOf with
        | some r =>
          let s := if s.runsPass k r then s.abandonPass r else s
          let s := s.discardQueued k r
          s.setRill r { s.rill r with lsWait := (s.rill r).lsWait.filter (fun q =>
            !(decide (q.ctx = k) && (c.threads.getD q.thr (Thread.fresh 0)).tile.isSome)) }
        | none => s
      (s.setCtx k c.afterReturn).noteBlocked k

/-- The tiles of every context of a rill go to fault-return deques. -/
def State.recoverRill (s : State) (r : Nat) : State :=
  (s.ctxsOn r).foldl (fun (s : State) c => s.recoverCtx c.1) s

/-! ## A rill out of service (R309, R622) -/

/-- The items of a rill's work deques and tile lists move to a fault-return deque with RETRY as it is (R309). -/
def State.moveDeques (s : State) (r : Nat) : State :=
  s.parts.foldl (fun (s : State) p => p.2.launches.foldl (fun (s : State) l =>
    let items := l.2.deques.getD r [] ++ l.2.lists.getD r []
    let s := items.foldl (fun (s : State) t => s.pushFrq (s.returnCascade p.1 (r / 16)) { part := p.1, tile := t }) s
    match s.launch? p.1 l.1 with
    | some m => s.setLaunch p.1 l.1 { m with deques := m.deques.del r, lists := m.lists.del r }
    | none => s) s) s

/-- Partition that holds a cascade. -/
def State.partOfCascade (s : State) (c : Nat) : Option Nat :=
  (s.parts.find? (fun p => decide (p.2.state ≠ 0) && bit p.2.grant.cascades.toNat c)).map (fun p => p.1)

/-- A partition without a rill in service ends its launches with NO_RILLS (R622). -/
def State.checkRills (s : State) (p : Nat) : State :=
  let q := s.part p
  if q.state ≠ 0 ∧ (q.rills.any s.inService) = false then
    q.launches.keys.foldl (fun (s : State) h =>
      (s.raise kPwNoRills 0xFFF { part := p }).endLaunch p h (kPwNoRills.flint 0xFFF)) s
  else s

/-- OUT_OF_SERVICE becomes 1 (R309): deque items move, and a stop is requested of the rill's contexts. -/
def State.outOfService (s : State) (r : Nat) : State :=
  if s.inService r then
    let s := (s.setF (rlOutOfService r) 1).moveDeques r
    let s := (s.residentOn r).foldl (fun (s : State) c =>
      match s.ctx? c.1 with
      | some x => s.setCtx c.1 { x with stopReq := true }
      | none => s) s
    match s.partOfCascade (r / 16) with
    | some p => s.checkRills p
    | none => s
  else s

/-! ## Lost contexts (R620) -/

/-- PC at which a launch's threads start (R548). -/
def Part.entryOf (p : Part) (l : Launch) : W64 :=
  match p.graphs.at? l.graph with
  | some g => BitVec.ofNat 64 (g.code + g.entryPc)
  | none => 0

/-- A context as the Wellhead creates it, with an image of its own and no place yet (R299). -/
def newCtx (h threads region image : Nat) (pc : W64) (now : Nat) : Context :=
  { loc := .saved, launch := h, regionBase := 0, regionLen := region, threads := List.replicate threads (Thread.fresh pc),
    slots := [], mode := 0, panel := none, stopped := false, stopReq := false, ownsArray := false, acc0 := [], acc1 := [],
    mx := [], vx := [], region := [], lostLanes := false, tbSave := now, stopping := false, held := [], image := image,
    blockedSince := none, zeroing := false }

/-- A context is lost with its rill's thread state: its tiles are returned, and the Wellhead re-creates it under a new
number (R620). -/
def State.loseCtx (s : State) (k : Nat) : State :=
  match s.ctx? k with
  | none => s
  | some c =>
    let p := keyPart k
    let cas := s.cascadeOf k c
    let s := c.tiles.foldl (fun (s : State) t => s.returnTile p cas t) s
    let number := s.freeNumber p
    let s := s.dropCtx k
    match s.launch? p c.launch, number with
    | some l, some n => s.setCtx (ctxKey p n) (newCtx c.launch c.threads.length c.regionLen c.image ((s.part p).entryOf l) s.clk.tb)
    | _, _ => s

/-! ## Faults of a thread (R126) -/

/-- Who a code raised on a thread is about. -/
def State.aboutCtx (_s : State) (k : Nat) : About := { part := keyPart k }

/-- A fault of severity 3 raised by a thread: it enters FAULT, its context stops, and the launch completes with the
code (R126). -/
def State.jobFault (s : State) (k t : Nat) (code : W32) : State :=
  match s.ctx? k with
  | none => s
  | some c =>
    let s := s.updThread k t (fun h => { h with st := .fault, wait := .none })
    let s := match s.ctx? k with
      | some x => s.setCtx k { x with stopped := true }
      | none => s
    let s := match c.rillOf with
      | some r => (if s.runsPass k r then s.abandonPass r else s).discardQueued k r
      | none => s
    s.endLaunch (keyPart k) c.launch code

/-- A thread raises a cause of its rill (R135). -/
def State.threadFault (s : State) (k t r : Nat) (c : Cause) : State :=
  (s.raise c r (s.aboutCtx k)).jobFault k t (c.flint r)

/-- A thread raises a code that a completion carries, with its rill filled in when the instance is 0xFFF (R119, R472);
a code of severity 2 starts recovery of the context. -/
def State.raiseStatus (s : State) (k t r : Nat) (status : W32) : State :=
  let code := observedCode status r
  let s := s.raiseCode (codeSev code) (codeUnit code) (codeInst code) code (s.aboutCtx k)
  if codeSev code = 3 then s.jobFault k t code
  else if codeSev code = 2 then s.recoverCtx k
  else s

end Sys2Proof.Machine
end

