-- ==== Sys2Proof/Machine/Wake.lean ====
section
/-! DEFINITION. Threads that wait: what ends each wait, observing completions, and the poison of scratchpad lanes that
a read meets (R87, R97, R99, R108, R118, R119, R241). -/

namespace Sys2Proof.Machine

open Sys2Proof

/-! ## Observing completions (R118, R119) -/

/-- The thread goes on after the instruction at its PC. -/
def Thread.advance (h : Thread) : Thread := { h with st := .ready, wait := .none, pc := h.pc + 8 }

/-- Slots of a thread that `sy.wait` and `sy.fence` observe: done, not to be discarded. -/
def Context.doneOf (c : Context) (t : Nat) : List (Nat × Slot) :=
  c.slots.filter (fun x => decide (x.2.thr = t) && x.2.done && !x.2.discard)

/-- Observe every completion of a thread together: the failed one with the lowest slot number is raised, the others
are logged (R119). -/
def State.observeAll (s : State) (k t r : Nat) : State :=
  match s.ctx? k with
  | none => s
  | some c =>
    let ds := c.doneOf t
    let s := s.setCtx k { c with slots := c.slots.keep (fun n _ => !(ds.any (fun x => decide (x.1 = n)))) }
    match ds.filter (fun x => decide (x.2.status ≠ 0)) with
    | [] => s
    | x :: rest =>
      let s := rest.foldl (fun (s : State) y =>
        let code := observedCode y.2.status r
        s.logCode (codeSev code) code (s.aboutCtx k)) s
      s.raiseStatus k t r x.2.status

/-! ## Ends of waits -/

/-- Threads of a context that a barrier counts: not FREE or IDLE (R108). -/
def Context.barThreads (c : Context) : List Thread := c.threads.filter (fun h => decide (h.st ≠ .free ∧ h.st ≠ .idle))

/-- Every counted thread waits at barrier `n`. -/
def Context.barFull (c : Context) (n : Nat) : Bool := c.barThreads.all (fun h => decide (h.wait = .bar n))

/-- Release barrier `n`. -/
def Context.releaseBar (c : Context) (n : Nat) : Context :=
  { c with threads := c.threads.map (fun h => if h.wait = .bar n then h.advance else h) }

/-- WAIT_REMOTE when an awaited operation targets another module, else WAIT_LOCAL (R87). -/
def waitCode (remote : Bool) : TState := if remote then .waitRemote else .waitLocal

/-- An awaited FT operation of the thread targets another module. -/
def Context.awaitsRemote (c : Context) (t : Nat) (w : Wait) : Bool :=
  match w with
  | .slot n _ => (c.slots.at? n).any (fun x => x.op.remote && !x.done)
  | .classes m => bit m 3 && c.slots.any (fun x => decide (x.2.thr = t) && x.2.op.remote && !x.2.done && !x.2.discard)
  | _ => false

/-- End a thread's wait when its condition holds. -/
def State.wakeThread (s : State) (k t r : Nat) : State :=
  match s.ctx? k with
  | none => s
  | some c =>
    match c.thread? t with
    | none => s
    | some h =>
      let v := s.rill r
      match h.wait with
      | .slot n rd =>
        match c.slots.at? n with
        | none => s.threadFault k t r kRlIllegalOperand
        | some x =>
          if x.done then
            let c := { c with slots := c.slots.del n }
            let s := s.setCtx k (c.setThread t (if x.status = 0 then (h.setReg rd x.value).advance else h.advance))
            if x.status = 0 then s else s.raiseStatus k t r x.status
          else s.setCtx k (c.setThread t { h with st := waitCode x.op.remote })
      | .classes m =>
        if s.pendingClasses k t m c then s.setCtx k (c.setThread t { h with st := waitCode (c.awaitsRemote t h.wait) })
        else
          let s := s.setCtx k (c.setThread t h.advance)
          if bit m 3 then s.observeAll k t r else s
      | .bar n => if c.barFull n then s.setCtx k (c.releaseBar n) else s
      | .acquire =>
        if c.stopping then s
        else if v.array.owner.isNone then
          (s.setRill r { v with array := { v.array with owner := some k } }).setCtx k (c.setThread t h.advance)
        else if v.array.owner = some k then s.setCtx k (c.setThread t h.advance)
        else s
      | .mxRoom => if v.mxQ.length + b2n v.array.cur.isSome < 8 then s.setCtx k (c.setThread t { h with st := .ready, wait := .none }) else s
      | .vxRoom => if v.vxQ.length + b2n v.vector.cur.isSome < 8 then s.setCtx k (c.setThread t { h with st := .ready, wait := .none }) else s
      | .ftRoom =>
        if v.trackers.length < 128 ∧ c.slots.length < 128 then s.setCtx k (c.setThread t { h with st := .ready, wait := .none })
        else s
      | .ls =>
        if v.lsWait.any (fun q => decide (q.ctx = k ∧ q.thr = t)) then s
        else s.setCtx k (c.setThread t { h with st := .ready, wait := .none })
      | _ => s

/-- End the waits of a resident context whose conditions hold, threads by number. -/
def State.wakeCtx (s : State) (k : Nat) : State :=
  match s.ctx? k with
  | none => s
  | some c =>
    match c.rillOf with
    | none => s
    | some r =>
      if c.stopped then s
      else ((List.range c.threads.length).foldl (fun (s : State) t => s.wakeThread k t r) s).noteBlocked k

/-- Resident contexts of a rill, those first whose turn a free array is: which one is left open
(notes/assumptions/21.md). -/
def State.wakeOrder (s : State) (r : Nat) : List Nat :=
  let ks := (s.residentOn r).map (fun c => c.1)
  let wants := ks.filter (fun k => (s.ctx? k).any (fun c => c.threads.any (fun h => decide (h.wait = .acquire))))
  match s.choose wants with
  | some k => k :: ks.filter (fun j => decide (j ≠ k))
  | none => ks

/-- One pass over the resident contexts of a rill. -/
def State.wakeOnce (s : State) (r : Nat) : State := (s.wakeOrder r).foldl (fun (s : State) k => s.wakeCtx k) s.fresh

/-! ## Leaving for frame 4 (R166, R181, R313) -/

/-- An uncorrectable accumulator entry is read (R178, R181). -/
def State.accHit (s : State) (r : Nat) (w : About) : State :=
  ((s.satF (arEccUncorrected r) 1).raise kArAccUncorrected r w).beginRecovery (.rill r) (kArAccUncorrected.flint r)

/-- A set as a save copies it: an uncorrectable entry has a value that is left open (notes/assumptions/21.md). -/
def State.savedSet (s : State) (a : MxArray) (set : Nat) : Tab W32 :=
  (a.badAcc.filter (fun x => decide (x.1 = set))).foldl
    (fun t x => Tab.put t x.2 (BitVec.ofNat 32 (Config.pick (s.free + x.2)))) (if set = 0 then a.acc0 else a.acc1)

/-- The thread state of a context that stops moves to frame 4 once its engines are done with it: its resident frame
and threads are free, and the array when it owned it (R313). -/
def State.tryMove (s : State) (k : Nat) : State :=
  match s.ctx? k with
  | none => s
  | some c0 =>
    match c0.loc with
    | .resident r f =>
      let v := s.rill r
      if c0.stopping && !s.runsPass k r && !s.runsVx k r && !v.lsWait.any (fun q => decide (q.ctx = k)) &&
          (v.frames.at? 4).isNone then
        let owns := decide (v.array.owner = some k)
        let s := if owns && !v.array.badAcc.isEmpty then (s.accHit r (s.aboutCtx k)).recoverCtx k else s
        match s.ctx? k with
        | none => s
        | some c =>
          let c := { c with loc := .saving r, ownsArray := owns, blockedSince := none, tbSave := s.clk.tb,
                            acc0 := if owns then s.savedSet v.array 0 else [],
                            acc1 := if owns then s.savedSet v.array 1 else [] }
          let w := s.rill r
          (s.setCtx k c).setRill r { w with frames := (w.frames.del f).put 4 k,
                                            array := if owns then { w.array with owner := none } else w.array }
      else s
    | _ => s

/-- Every stopping context of a rill, frame 4 permitting. -/
def State.tryMoves (s : State) (r : Nat) : State :=
  (s.residentOn r).foldl (fun (s : State) c => s.tryMove c.1) s

/-- End the waits of every resident context of a rill, a second pass letting a thread use the room that the first one
made; then let the contexts that stop leave, and others take the array. -/
def State.wakeRill (s : State) (r : Nat) : State := (((s.wakeOnce r).wakeOnce r).tryMoves r).wakeOnce r

/-! ## Poisoned lanes (R241) -/

/-- A requester read a poisoned lane: UNCORRECTED is counted and raised (R241, R250, R251). -/
def State.poisonHit (s : State) (r lane : Nat) (w : About) : State :=
  let s := s.satF (spEccUncorrected r) 1
  let s := (s.setF (spEccOffset r) lane).setF (spEccKind r) 1
  s.raise kSpUncorrected r w

/-- A recoverable fault of a context that lies in one scratchpad bank (R631). -/
def State.bankFault (s : State) (k r lane : Nat) : State :=
  ((s.poisonHit r lane (s.aboutCtx k)).beginRecovery (.bank r (lane / 16 % 128)) (kSpUncorrected.flint r)).recoverCtx k

/-- The 32 bytes of a descriptor in a context's region (R109). -/
def State.descAt (s : State) (c : Context) (off : Nat) : BitVec 256 := BitVec.ofNat 256 (s.regionLe c off 32)

/-- SHAPE of a mode (R101). -/
def modeShape (m : BitVec 32) : Nat := bits m.toNat 15 2

/-- A descriptor of a resident context by R110: the descriptor, or why not. -/
inductive DescRead where
  | ok (t : BitVec 256)
  | bad
  | poisoned (lane : Nat)
  deriving DecidableEq, Repr

/-- Read and check a tile descriptor (R110). -/
def State.readDesc (s : State) (c : Context) (r off : Nat) (memory : Bool) : DescRead :=
  if off % 32 ≠ 0 ∨ c.regionLen < off + 32 then .bad
  else match s.poisonAt r (c.regionBase + off) 32 with
    | some lane => .poisoned lane
    | none =>
      let t := s.descAt c off
      if tileOk off c.regionLen (modeShape c.mode) memory t then .ok t else .bad

end Sys2Proof.Machine
end

