-- ==== Sys2Proof/Machine/Rill.lean ====
section
/-! DEFINITION. Issue of a rill instruction (R86, R89, R91 to R97, R113) and the scalar class (R95, R96). -/

namespace Sys2Proof

/-! ## Fields of an issue (R92, R93, R95) -/

/-- The guard of R93. -/
def Issue.guard (x : Issue) (h : Machine.Thread) : Bool :=
  xor (if x.pg = 0 then true else Machine.bit h.preds.toNat x.pg.toNat) x.pn

/-- Sign-extended immediate. -/
def Issue.sext (x : Issue) : W64 := x.imm.signExtend 64

/-- opb (R95). -/
def Issue.opb (x : Issue) (h : Machine.Thread) : W64 := if x.i then x.sext else h.reg x.rb

/-- Fields that an SC operation with opb leaves unused are 0: RB with I = 1, IMM with I = 0 (R94). -/
def Issue.opbBad (x : Issue) : Bool := if x.i then decide (x.rb ≠ 0) else decide (x.imm ≠ 0)

/-- The registers of an instruction. -/
def Issue.regs (x : Issue) : List (BitVec 5) := [x.rd, x.ra, x.rb]

/-- Target of `br` and `jal`. -/
def Issue.target (x : Issue) (h : Machine.Thread) : W64 := h.pc + x.sext * 8

end Sys2Proof

namespace Sys2Proof.Machine

open Sys2Proof

/-! ## Issue ports (R89) -/

/-- Threads of a rill that are READY: hardware number and yielding bits. -/
def State.readyHw (s : State) (r : Nat) : List (Nat × BitVec 2) :=
  (s.residentOn r).flatMap (fun c =>
    if c.2.stopped || c.2.stopping || c.2.zeroing then []
    else (c.2.threads.filter (fun h => decide (h.st = .ready))).map (fun h => (h.hw, h.yielding)))

/-- First of some hardware threads at or after a pointer. -/
def firstFrom (l : List Nat) (ptr : Nat) : Option Nat :=
  ((List.range 32).map (fun i => (ptr + i) % 32)).find? (fun h => l.contains h)

/-- Threads READY for a port: those that it has passed or that do not yield. -/
def readyFor (l : List (Nat × BitVec 2)) (port : Nat) : List Nat :=
  (l.filter (fun x => !bit x.2.toNat port)).map (fun x => x.1)

/-- A pointer that moves from `ptr` past `h` passes hardware thread `x`. -/
def passes (ptr h x : Nat) : Bool := decide ((x + 32 - ptr) % 32 ≤ (h + 32 - ptr) % 32)

/-- Clear a port's yielding bit of every thread of a rill that satisfies a test. -/
def State.passYield (s : State) (r port : Nat) (f : Nat → Bool) : State :=
  (s.residentOn r).foldl (fun (s : State) c => match s.ctx? c.1 with
    | some x => s.setCtx c.1 { x with threads := x.threads.map (fun h =>
        if f h.hw then { h with yielding := BitVec.ofNat 2 (setBits h.yielding.toNat port 1 0) } else h) }
    | none => s) s

/-- A port that finds no READY thread other than yielding ones passes them all. -/
def State.passIdle (s : State) (r : Nat) : State :=
  [0, 1].foldl (fun (s : State) p => if (readyFor (s.readyHw r) p).isEmpty then s.passYield r p (fun _ => true) else s) s

/-- A port takes hardware thread `h`: port 0 when `h` is the first that it finds, else port 1. -/
def State.takePort (s : State) (r h : Nat) : State :=
  let v := s.rill r
  if firstFrom (readyFor (s.readyHw r) 0) v.port0 = some h then
    (s.setRill r { v with port0 := (h + 1) % 32 }).passYield r 0 (passes v.port0 h)
  else (s.setRill r { v with port1 := (h + 1) % 32 }).passYield r 1 (passes v.port1 h)

/-! ## Conditions of an issue -/

/-- The ARR side runs: no compute reset under way, not HELD, and the module in READY or SERVICE (R35, R618, R626). -/
def State.running (s : State) : Bool :=
  s.pwr.resetting.isNone && !s.pwr.held && (decide (s.mode = .ready) || decide (s.mode = .service))

/-- The context and thread that an issue names can issue: resident, not stopped, its region ready, the thread READY
and passed by a port when it yields. -/
def State.issuer? (s : State) (x : Issue) : Option (Nat × Context × Thread) :=
  match s.ctx? (ctxKey x.part x.ctx) with
  | none => none
  | some c =>
    match c.rillOf, c.thread? x.thr with
    | some r, some h =>
      if s.running && !c.stopped && !c.stopping && !c.zeroing && decide (h.st = .ready) then some (r, c, h) else none
    | _, _ => none

/-- Line of a PC (R86). -/
def lineOf (pc : Nat) : Nat := pc / 256 * 256

/-- The PC lies in the code object of the launch's graph and is aligned (R135 FETCH). -/
def State.fetchOk (s : State) (p h : Nat) (pc : Nat) : Bool :=
  match s.launch? p h with
  | none => false
  | some l => match (s.part p).graphs.at? l.graph with
    | none => false
    | some g => match (s.part p).objects.at? g.code with
      | none => false
      | some o => decide (pc % 8 = 0 ∧ g.code ≤ pc ∧ pc < g.code + o.pages * pageBytes)

/-- What a row says of its instruction word: whether R94 makes it illegal, the registers that it reads and writes, and
whether it waits for every waiting LS access of its thread (R97, R113). -/
structure Shape where
  illegal : Bool
  regs : List (BitVec 5)
  afterLs : Bool
  deriving DecidableEq, Repr

/-- An earlier LS access of the thread that still waits for its bank holds this instruction up (R97). -/
def State.lsHolds (s : State) (k t r : Nat) (f : Shape) : Bool :=
  (s.rill r).lsWait.any (fun q => decide (q.ctx = k ∧ q.thr = t) &&
    (f.afterLs || (decide (q.rd ≠ 0) && f.regs.contains q.rd)))

/-- The effect of an instruction that executes: key, thread number, rill, context and thread at issue. -/
abbrev Effect := State → Nat → Nat → Nat → Context → Thread → State

/-- Count an instruction issued, unless its thread waits for room to issue it (R87, R644). -/
def State.countIssue (s : State) (k t : Nat) : State :=
  match (s.ctx? k).bind (fun c => c.thread? t) with
  | some h => if h.wait = .mxRoom ∨ h.wait = .vxRoom ∨ h.wait = .ftRoom then s else s.credit (keyPart k) 2 1
  | none => s.credit (keyPart k) 2 1

/-- Issue one instruction (R86, R89, R93, R94, R97). -/
def State.issue (s : State) (x : Issue) (f : Shape) (eff : Effect) : State :=
  match s.issuer? x with
  | none => s
  | some (r, _, h0) =>
    let k := ctxKey x.part x.ctx
    let s := if h0.yielding = 0 then s else s.passIdle r
    match s.ctx? k with
    | none => s
    | some c =>
      match c.thread? x.thr with
      | none => s
      | some h =>
        if h.yielding = 3 then s
        else
          let s := s.takePort r h.hw
          match s.ctx? k with
          | none => s
          | some c =>
            match c.thread? x.thr with
            | none => s
            | some h =>
              let pc := h.pc.toNat
              if !s.fetchOk x.part c.launch pc then s.threadFault k x.thr r kRlFetch
              else if !(s.rill r).icache.contains (x.part, lineOf pc) then
                (s.setCtx k (c.setThread x.thr { h with st := .waitDep, wait := .line (lineOf pc) })).noteBlocked k
              else if f.illegal then s.threadFault k x.thr r kRlIllegalInstr
              else if s.lsHolds k x.thr r f then s.setCtx k (c.setThread x.thr { h with st := .waitDep, wait := .ls })
              else if x.guard h then ((eff s k x.thr r c h).countIssue k x.thr).noteBlocked k
              else (s.credit x.part 2 1).setCtx k (c.setThread x.thr h.advance)

/-! ## The instruction cache (R86) -/

/-- Lines of the 64 KiB cache (R83). -/
def icacheLines : Nat := 256

/-- A fill arrives: the line is held, in place of another when the cache is full, and the threads of the partition
that wait for it are released. -/
def icacheFill (part ctx thr : Nat) (s : State) : State :=
  let k := ctxKey part ctx
  match s.ctx? k with
  | none => s
  | some c =>
    match c.rillOf, c.thread? thr with
    | some r, some h =>
      match h.wait with
      | .line off =>
        let v := s.rill r
        let ok := (s.part part).inObject off 256
        if !ok then s
        else
          let cache := if v.icache.length < icacheLines then v.icache
            else match s.choose v.icache with
              | some x => v.icache.filter (fun y => decide (y ≠ x))
              | none => v.icache
          let s := (s.fresh).setRill r { v with icache := cache ++ [(part, off)] }
          (s.residentOn r).foldl (fun (s : State) x =>
            if keyPart x.1 = part then
              match s.ctx? x.1 with
              | some c => (s.setCtx x.1 { c with threads := c.threads.map (fun h =>
                  if h.wait = .line off then { h with st := .ready, wait := .none } else h) }).noteBlocked x.1
              | none => s
            else s) s
      | _ => s
    | _, _ => s

def execIcacheFill (part ctx thr : Nat) (s : State) : Host.Outcome State Fault Refusal := .next (icacheFill part ctx thr s)

/-! ## Scalar class (R95) -/

/-- An SC instruction that gives s[RD] a value of s[RA] and opb. -/
def State.scalar (s : State) (x : Issue) (f : W64 → W64 → W64) : State :=
  s.issue x ⟨x.opbBad, x.regs, false⟩ (fun s k t _ c h =>
    s.setCtx k (c.setThread t ((h.setReg x.rd (f (h.reg x.ra) (x.opb h))).advance)))

/-- p[n] of a thread; p0 reads 1 (R86). -/
def Thread.pred (h : Thread) (n : Nat) : Bool := if n % 8 = 0 then true else bit h.preds.toNat (n % 8)

/-- Write p[n]; p0 discards (R86). -/
def Thread.setPred (h : Thread) (n : Nat) (v : Bool) : Thread :=
  if n % 8 = 0 then h else { h with preds := BitVec.ofNat 8 (setBits h.preds.toNat (n % 8) 1 (b2n v)) }

/-- An SC instruction that sets p[RD[2:0]] by comparing s[RA] and opb. -/
def State.compare (s : State) (x : Issue) (f : W64 → W64 → Bool) : State :=
  s.issue x ⟨x.opbBad || decide (8 ≤ x.rd.toNat), [x.ra, x.rb], false⟩ (fun s k t _ c h =>
    s.setCtx k (c.setThread t ((h.setPred x.rd.toNat (f (h.reg x.ra) (x.opb h))).advance)))

/-- An SC instruction over predicates; `one` says that RB is not used. -/
def State.predOp (s : State) (x : Issue) (one : Bool) (f : Bool → Bool → Bool) : State :=
  let bad := x.i || decide (x.imm ≠ 0 ∨ 8 ≤ x.rd.toNat ∨ 8 ≤ x.ra.toNat ∨ 8 ≤ x.rb.toNat) || (one && decide (x.rb ≠ 0))
  s.issue x ⟨bad, [], false⟩ (fun s k t _ c h =>
    s.setCtx k (c.setThread t ((h.setPred x.rd.toNat (f (h.pred x.ra.toNat) (h.pred x.rb.toNat))).advance)))

def nop (x : Issue) (cls : BitVec 4) (op : BitVec 8) (s : State) : State :=
  s.issue x ⟨decide (cls ≠ 0 ∨ op ≠ 0 ∨ x.rd ≠ 0 ∨ x.ra ≠ 0 ∨ x.rb ≠ 0 ∨ x.imm ≠ 0) || x.i, [], false⟩
    (fun s k t _ c h => s.setCtx k (c.setThread t h.advance))

def divuOp (a b : W64) : W64 := if b = 0 then BitVec.allOnes 64 else a / b
def remuOp (a b : W64) : W64 := if b = 0 then a else a % b
def mulhuOp (a b : W64) : W64 := BitVec.ofNat 64 (a.toNat * b.toNat / 2 ^ 64)
def mulhOp (a b : W64) : W64 := BitVec.ofInt 64 (a.toInt * b.toInt / 2 ^ 64)
def shlOp (a b : W64) : W64 := a <<< (b.toNat % 64)
def shrOp (a b : W64) : W64 := a >>> (b.toNat % 64)
def sraOp (a b : W64) : W64 := a.sshiftRight (b.toNat % 64)
def minOp (a b : W64) : W64 := if a.slt b then a else b
def maxOp (a b : W64) : W64 := if a.slt b then b else a

def li (x : Issue) (s : State) : State :=
  s.issue x ⟨decide (x.ra ≠ 0 ∨ x.rb ≠ 0) || x.i, [x.rd], false⟩
    (fun s k t _ c h => s.setCtx k (c.setThread t ((h.setReg x.rd x.sext).advance)))

/-- (IMM << 32) | s[RD][31:0]. -/
def lihOp (imm : BitVec 32) (d : W64) : W64 := BitVec.ofNat 64 (imm.toNat * 2 ^ 32 + d.toNat % 2 ^ 32)

def lih (x : Issue) (s : State) : State :=
  s.issue x ⟨decide (x.ra ≠ 0 ∨ x.rb ≠ 0) || x.i, [x.rd], false⟩
    (fun s k t _ c h => s.setCtx k (c.setThread t ((h.setReg x.rd (lihOp x.imm (h.reg x.rd))).advance)))

def sel (x : Issue) (s : State) : State :=
  s.issue x ⟨x.i || decide (8 ≤ x.imm.toNat), x.regs, false⟩
    (fun s k t _ c h => s.setCtx k (c.setThread t
      ((h.setReg x.rd (if h.pred x.imm.toNat then h.reg x.ra else h.reg x.rb)).advance)))

def br (x : Issue) (s : State) : State :=
  s.issue x ⟨decide (x.rd ≠ 0 ∨ x.ra ≠ 0 ∨ x.rb ≠ 0) || x.i, [], false⟩
    (fun s k t _ c h => s.setCtx k (c.setThread t { h with pc := x.target h }))

def jal (x : Issue) (s : State) : State :=
  s.issue x ⟨decide (x.ra ≠ 0 ∨ x.rb ≠ 0) || x.i, [x.rd], false⟩
    (fun s k t _ c h => s.setCtx k (c.setThread t { h.setReg x.rd (h.pc + 8) with pc := x.target h }))

/-- A jump to a target that is not aligned to 8 bytes raises FETCH. -/
def jr (x : Issue) (s : State) : State :=
  s.issue x ⟨decide (x.rd ≠ 0 ∨ x.rb ≠ 0 ∨ x.imm ≠ 0) || x.i, [x.ra], false⟩
    (fun s k t r c h =>
      if (h.reg x.ra).toNat % 8 ≠ 0 then s.threadFault k t r kRlFetch
      else s.setCtx k (c.setThread t { h with pc := h.reg x.ra }))

/-- The special values of R96. -/
def State.special (s : State) (k t r : Nat) (c : Context) (n : Nat) : Nat :=
  match n with
  | 0 => t
  | 1 => c.threads.length
  | 2 => keyNum k
  | 3 => keyPart k
  | 4 => r
  | 5 => s.fabric.chip
  | 6 => s.tbNs
  | 7 => s.arrCycles r
  | 8 => c.regionBase
  | _ => c.regionLen

def rdsr (x : Issue) (s : State) : State :=
  s.issue x ⟨decide (x.ra ≠ 0 ∨ x.rb ≠ 0 ∨ 10 ≤ x.imm.toNat) || x.i, [x.rd], false⟩
    (fun s k t r c h => s.setCtx k (c.setThread t
      ((h.setReg x.rd (BitVec.ofNat 64 (s.special k t r c x.imm.toNat))).advance)))

def execNop (x : Issue) (cls : BitVec 4) (op : BitVec 8) (s : State) : Host.Outcome State Fault Refusal := .next (nop x cls op s)
def execAdd (x : Issue) (s : State) : Host.Outcome State Fault Refusal := .next (s.scalar x (fun a b => a + b))
def execSub (x : Issue) (s : State) : Host.Outcome State Fault Refusal := .next (s.scalar x (fun a b => a - b))
def execMul (x : Issue) (s : State) : Host.Outcome State Fault Refusal := .next (s.scalar x (fun a b => a * b))
def execMulhu (x : Issue) (s : State) : Host.Outcome State Fault Refusal := .next (s.scalar x mulhuOp)
def execMulh (x : Issue) (s : State) : Host.Outcome State Fault Refusal := .next (s.scalar x mulhOp)
def execDivu (x : Issue) (s : State) : Host.Outcome State Fault Refusal := .next (s.scalar x divuOp)
def execRemu (x : Issue) (s : State) : Host.Outcome State Fault Refusal := .next (s.scalar x remuOp)
def execAnd (x : Issue) (s : State) : Host.Outcome State Fault Refusal := .next (s.scalar x (fun a b => a &&& b))
def execOr (x : Issue) (s : State) : Host.Outcome State Fault Refusal := .next (s.scalar x (fun a b => a ||| b))
def execXor (x : Issue) (s : State) : Host.Outcome State Fault Refusal := .next (s.scalar x (fun a b => a ^^^ b))
def execShl (x : Issue) (s : State) : Host.Outcome State Fault Refusal := .next (s.scalar x shlOp)
def execShr (x : Issue) (s : State) : Host.Outcome State Fault Refusal := .next (s.scalar x shrOp)
def execSra (x : Issue) (s : State) : Host.Outcome State Fault Refusal := .next (s.scalar x sraOp)
def execMin (x : Issue) (s : State) : Host.Outcome State Fault Refusal := .next (s.scalar x minOp)
def execMax (x : Issue) (s : State) : Host.Outcome State Fault Refusal := .next (s.scalar x maxOp)
def execLi (x : Issue) (s : State) : Host.Outcome State Fault Refusal := .next (li x s)
def execLih (x : Issue) (s : State) : Host.Outcome State Fault Refusal := .next (lih x s)
def execSel (x : Issue) (s : State) : Host.Outcome State Fault Refusal := .next (sel x s)
def execSetpEq (x : Issue) (s : State) : Host.Outcome State Fault Refusal := .next (s.compare x (fun a b => a == b))
def execSetpNe (x : Issue) (s : State) : Host.Outcome State Fault Refusal := .next (s.compare x (fun a b => a != b))
def execSetpLt (x : Issue) (s : State) : Host.Outcome State Fault Refusal := .next (s.compare x (fun a b => a.slt b))
def execSetpLtu (x : Issue) (s : State) : Host.Outcome State Fault Refusal := .next (s.compare x (fun a b => a.ult b))
def execSetpLe (x : Issue) (s : State) : Host.Outcome State Fault Refusal := .next (s.compare x (fun a b => a.sle b))
def execSetpLeu (x : Issue) (s : State) : Host.Outcome State Fault Refusal := .next (s.compare x (fun a b => a.ule b))
def execPand (x : Issue) (s : State) : Host.Outcome State Fault Refusal := .next (s.predOp x false (fun a b => a && b))
def execPor (x : Issue) (s : State) : Host.Outcome State Fault Refusal := .next (s.predOp x false (fun a b => a || b))
def execPxor (x : Issue) (s : State) : Host.Outcome State Fault Refusal := .next (s.predOp x false (fun a b => xor a b))
def execPnot (x : Issue) (s : State) : Host.Outcome State Fault Refusal := .next (s.predOp x true (fun a _ => !a))
def execBr (x : Issue) (s : State) : Host.Outcome State Fault Refusal := .next (br x s)
def execJal (x : Issue) (s : State) : Host.Outcome State Fault Refusal := .next (jal x s)
def execJr (x : Issue) (s : State) : Host.Outcome State Fault Refusal := .next (jr x s)
def execRdsr (x : Issue) (s : State) : Host.Outcome State Fault Refusal := .next (rdsr x s)

end Sys2Proof.Machine
end

