-- ==== Sys2Proof/Machine/Scratch.lean ====
section
/-! DEFINITION. The scratchpad class and the events of the scratchpad banks (R97, R98, R228 to R246, R254). -/

namespace Sys2Proof.Machine

open Sys2Proof

/-! ## One access at its bank (R97, R111, R112, R235, R236, R241, R242) -/

/-- Bytes that an LS OP moves (R97). -/
def lsBytes (op : Nat) : Nat :=
  match op with
  | 0x00 | 0x04 | 0x08 => 1
  | 0x01 | 0x05 | 0x09 => 2
  | 0x02 | 0x06 | 0x0A | 0x10 | 0x12 | 0x13 => 4
  | _ => 8

/-- Bank of a scratchpad offset (R229). -/
def bankOf (a : Nat) : Nat := a / 16 % 128

/-- The access reads its lanes: all but a store of whole lanes (R230). -/
def lsReads (op : Nat) : Bool := !(decide (op = 0x0A ∨ op = 0x0B))

/-- Value that a load or atomic returns to s[RD] (R97). -/
def lsResult (op old : Nat) : W64 :=
  match op with
  | 0x04 => BitVec.ofInt 64 (toSigned 8 old)
  | 0x05 => BitVec.ofInt 64 (toSigned 16 old)
  | 0x06 => BitVec.ofInt 64 (toSigned 32 old)
  | _ => BitVec.ofNat 64 old

/-- Value that a store or atomic writes, from the old value and s[RB]. -/
def lsStored (op old data : Nat) : Option Nat :=
  match op with
  | 0x08 | 0x09 | 0x0A | 0x0B => some data
  | 0x10 => some ((old + data) % 2 ^ 32)
  | 0x11 => some ((old + data) % 2 ^ 64)
  | 0x12 => some (addFp32 (old % 2 ^ 32) (data % 2 ^ 32))
  | 0x13 => some (data % 2 ^ 32)
  | 0x14 => some data
  | _ => none

/-- The operation writes s[RD]. -/
def lsWritesRd (op : Nat) : Bool := decide (op < 8 ∨ 0x10 ≤ op)

/-- Perform an access whose bank has been granted; `off` is the offset in the rill's scratchpad. -/
def State.lsPerform (s : State) (r : Nat) (q : LsReq) : State :=
  let n := lsBytes q.op
  match (if lsReads q.op then s.poisonAt r q.off n else none) with
  | some lane => s.bankFault q.ctx r lane
  | none =>
    let old := Memory.le s.mem.cells (spadBase r + q.off) n
    let s := match lsStored q.op old q.data.toNat with
      | some v => s.spadWrite r q.off (leBytes n v)
      | none => s
    let s := if 0x10 ≤ q.op then s.addF (spAtomics r) 1 else s
    if lsWritesRd q.op then s.updThread q.ctx q.thr (fun h => h.setReg q.rd (lsResult q.op old)) else s

/-- Fields that an LS operation leaves unused are 0 (R94): RB for a load, RD for a store. -/
def lsIllegal (x : Issue) (op : Nat) : Bool :=
  x.i || (if op < 8 then decide (x.rb ≠ 0) else if op < 0x10 then decide (x.rd ≠ 0) else false)

/-- Issue an LS instruction: checked by R98, granted at once when its bank is free, else queued for it. -/
def State.lsIssue (s : State) (x : Issue) (op : Nat) (free : Bool) : State :=
  s.issue x ⟨lsIllegal x op, x.regs, true⟩ (fun s k t r c h =>
    let a := (h.reg x.ra + x.sext).toNat
    let n := lsBytes op
    if a % n ≠ 0 then s.threadFault k t r kRlMisaligned
    else if c.regionLen < a + n then s.threadFault k t r kRlRegion
    else
      let q : LsReq := { ctx := k, thr := t, op := op, off := c.regionBase + a, rd := if lsWritesRd op then x.rd else 0,
                         data := h.reg x.rb }
      let s := s.setCtx k (c.setThread t h.advance)
      if free then
        let s := s.setRill r { s.rill r with bankPtr := (s.rill r).bankPtr.put (bankOf q.off) ((h.hw + 1) % 32) }
        (s.lsPerform r q).wakeRill r
      else s.setRill r { s.rill r with lsWait := (s.rill r).lsWait ++ [q] })

def execLdB (x : Issue) (free : Bool) (s : State) : Host.Outcome State Fault Refusal := .next (s.lsIssue x 0x00 free)
def execLdH (x : Issue) (free : Bool) (s : State) : Host.Outcome State Fault Refusal := .next (s.lsIssue x 0x01 free)
def execLdW (x : Issue) (free : Bool) (s : State) : Host.Outcome State Fault Refusal := .next (s.lsIssue x 0x02 free)
def execLdD (x : Issue) (free : Bool) (s : State) : Host.Outcome State Fault Refusal := .next (s.lsIssue x 0x03 free)
def execLdBs (x : Issue) (free : Bool) (s : State) : Host.Outcome State Fault Refusal := .next (s.lsIssue x 0x04 free)
def execLdHs (x : Issue) (free : Bool) (s : State) : Host.Outcome State Fault Refusal := .next (s.lsIssue x 0x05 free)
def execLdWs (x : Issue) (free : Bool) (s : State) : Host.Outcome State Fault Refusal := .next (s.lsIssue x 0x06 free)
def execStB (x : Issue) (free : Bool) (s : State) : Host.Outcome State Fault Refusal := .next (s.lsIssue x 0x08 free)
def execStH (x : Issue) (free : Bool) (s : State) : Host.Outcome State Fault Refusal := .next (s.lsIssue x 0x09 free)
def execStW (x : Issue) (free : Bool) (s : State) : Host.Outcome State Fault Refusal := .next (s.lsIssue x 0x0A free)
def execStD (x : Issue) (free : Bool) (s : State) : Host.Outcome State Fault Refusal := .next (s.lsIssue x 0x0B free)
def execAtomAddW (x : Issue) (free : Bool) (s : State) : Host.Outcome State Fault Refusal := .next (s.lsIssue x 0x10 free)
def execAtomAddD (x : Issue) (free : Bool) (s : State) : Host.Outcome State Fault Refusal := .next (s.lsIssue x 0x11 free)
def execAtomAddF (x : Issue) (free : Bool) (s : State) : Host.Outcome State Fault Refusal := .next (s.lsIssue x 0x12 free)
def execAtomSwapW (x : Issue) (free : Bool) (s : State) : Host.Outcome State Fault Refusal := .next (s.lsIssue x 0x13 free)
def execAtomSwapD (x : Issue) (free : Bool) (s : State) : Host.Outcome State Fault Refusal := .next (s.lsIssue x 0x14 free)

/-! ## Grants (R231, R232) -/

/-- Hardware thread of a waiting access. -/
def State.hwOf (s : State) (q : LsReq) : Nat :=
  match s.ctx? q.ctx with
  | some c => (c.threads.getD q.thr (Thread.fresh 0)).hw
  | none => 0

/-- The bank grants the waiting access of the first hardware thread at or after its pointer. -/
def lsBankGrant (r bank : Nat) (s : State) : State :=
  let qs := (s.rill r).lsWait.filter (fun q => decide (bankOf q.off = bank))
  match firstFrom (qs.map s.hwOf) ((s.rill r).bankPtr.getD bank 0) with
  | none => s
  | some h =>
    match qs.find? (fun q => decide (s.hwOf q = h)) with
    | none => s
    | some q =>
      let v := s.rill r
      let s := s.setRill r { v with lsWait := v.lsWait.erase q, bankPtr := v.bankPtr.put bank ((h + 1) % 32) }
      (s.lsPerform r q).wakeRill r

def execLsBankGrant (rill bank : Nat) (s : State) : Host.Outcome State Fault Refusal := .next (if s.pwr.held then s else lsBankGrant rill bank s)

/-! ## Errors of lanes (R240 to R243, R254) -/

/-- Contexts whose region holds a scratchpad offset. -/
def State.ctxsAt (s : State) (r a : Nat) : List Nat :=
  ((s.ctxsOn r).filter (fun c => decide (c.2.regionBase ≤ a ∧ a < c.2.regionBase + c.2.regionLen) &&
    (match c.2.loc with | .restoring _ => false | _ => true))).map (fun c => c.1)

/-- A bank that needs replacing: by a spare, whose copy BANK_REPLACED ends, or SPAD_HARD when none is left (R243). -/
def State.needBank (s : State) (r : Nat) : State :=
  if s.getF (spSparesUsed r) < 2 then s
  else
    let s := s.setF (spHard r) 1
    let s := s.raise kSpSpadHard r
    let s := s.beginRecovery (.rill r) (kSpSpadHard.flint r)
    (s.recoverRill r).outOfService r

/-- Count the first finding of an uncorrectable error in a bank (R243). -/
def State.countBank (s : State) (r bank : Nat) : State :=
  let v := s.rill r
  if v.hitBanks.contains bank then s.needBank r else s.setRill r { v with hitBanks := v.hitBanks ++ [bank] }

/-- A correctable error of a lane: returned and rewritten corrected, counted and raised (R240, R250, R251). -/
def scratchpadCorrected (r off : Nat) (byScrubber : Bool) (s : State) : State :=
  let s := s.satF (if byScrubber then spEccScrub r else spEccCorrected r) 1
  let s := (s.setF (spEccOffset r) off).setF (spEccKind r) 0
  s.raise (if byScrubber then kSpScrubCorrected else kSpCorrected) r

def execScratchpadCorrected (rill off : Nat) (byScrubber : Bool) (s : State) : Host.Outcome State Fault Refusal :=
  .next (scratchpadCorrected rill off byScrubber s)

/-- The copy to a spare ends: the spare answers the bank from now on, with its words and poison marks (R243). -/
def bankReplaced (r bank : Nat) (s : State) : State :=
  let n := s.getF (spSparesUsed r)
  if n < 2 ∧ (s.rill r).hitBanks.contains bank then
    let s := (s.setF (spSparesUsed r) (n + 1)).setF (spSpareBank r n) bank
    let s := s.setRill r { s.rill r with hitBanks := (s.rill r).hitBanks.filter (fun b => decide (b ≠ bank)) }
    (s.raise kSpBankReplaced r).beginRecovery (.bank r bank) (kSpBankReplaced.flint r)
  else s

def execBankReplaced (rill bank : Nat) (s : State) : Host.Outcome State Fault Refusal := .next (bankReplaced rill bank s)

/-- The scrubber reads a row of a bank without an error: nothing changes (R244). -/
def scrubRead (_r _bank : Nat) (s : State) : State := s

def execScrubRead (rill bank : Nat) (s : State) : Host.Outcome State Fault Refusal := .next (scrubRead rill bank s)

/-- Zeroing of a region ends: its bytes are 0, its marks clear, and the context's threads may issue (R246). -/
def regionZeroed (p c : Nat) (s : State) : State :=
  let k := ctxKey p c
  match s.ctx? k with
  | none => s
  | some x =>
    let at? := match x.loc with
      | .resident r _ => some r
      | .restoring r => some r
      | _ => none
    match at? with
    | none => s
    | some r =>
      if x.zeroing then
        let s := { s with mem := { s.mem with cells := Memory.zero s.mem.cells (spadBase r + x.regionBase) x.regionLen } }
        let v := s.rill r
        let last := (regionParts x.regionBase x.regionLen).foldl (fun t i => Tab.put t i p) v.lastUser
        let s := s.setRill r { v with lastUser := last, poison := clearLanes v.poison x.regionBase x.regionLen }
        s.setCtx k { x with zeroing := false }
      else s

def execRegionZeroed (part ctx : Nat) (s : State) : Host.Outcome State Fault Refusal := .next (regionZeroed part ctx s)

end Sys2Proof.Machine
end

