-- ==== Sys2Proof/Machine/Tiles.lean ====
section
/-! DEFINITION. Tiles: ending one, the end of a phase, window staging, the steal search and the handing over of a tile
(R300 to R310, R393, R394, R431, R440). -/

namespace Sys2Proof.Machine

open Sys2Proof

/-! ## Norm tables (R429 to R431) -/

/-- A slot of zeros. -/
def NormSlot.zero : NormSlot :=
  { g2red := 0, g2 := 0, u2 := 0, w2 := 0, elemsRed := 0, elemsOpt := 0, nonfinite := 0 }

/-- Binary64 addition with RNE (R430). -/
def addFp64 (a b : W64) : W64 :=
  BitVec.ofNat 64 (fp64.round .rne false (addV (fp64.decode a.toNat) (fp64.decode b.toNat)).1).1

/-- Sum of two slots. -/
def NormSlot.add (a b : NormSlot) : NormSlot :=
  { g2red := addFp64 a.g2red b.g2red, g2 := addFp64 a.g2 b.g2, u2 := addFp64 a.u2 b.u2, w2 := addFp64 a.w2 b.w2,
    elemsRed := a.elemsRed + b.elemsRed, elemsOpt := a.elemsOpt + b.elemsOpt,
    nonfinite := min (a.nonfinite + b.nonfinite) 0xFFFFFFFF }

/-- A table with contributions added slot by slot. -/
def mergeNorms (t buf : Tab NormSlot) : Tab NormSlot :=
  buf.foldl (fun t x => t.put x.1 ((t.getD x.1 NormSlot.zero).add x.2)) t

/-- Cascade buffers write back into the bank of the current step (R429, R431). -/
def Launch.writeNorms (l : Launch) : Launch :=
  if l.step % 2 = 0 then { l with norm0 := mergeNorms l.norm0 l.normBuf, normBuf := [] }
  else { l with norm1 := mergeNorms l.norm1 l.normBuf, normBuf := [] }

/-! ## Windows (R392 to R395, R438) -/

/-- Stage every page of a layer into HBM, or not at all. -/
def State.stagePages (s : State) (p : Nat) : List Nat → Option State
  | [] => some s
  | n :: ns =>
    let g := (s.part p).pages.getD n Page.absent
    match g.a with
    | some x =>
      if x.tier ≠ 0 ∧ g.b.isNone ∧ g.state = .resident ∧ !s.held p n then
        match s.stageInto p n [0] with
        | some s => s.stagePages p ns
        | none => none
      else s.stagePages p ns
    | none => s.stagePages p ns

/-- Page numbers of a layer of an object. -/
def Obj.layerNums (o : Obj) (b l : Nat) : List Nat :=
  let r := o.layerPages l
  (List.range r.2).map (fun i => b / pageBytes + r.1 + i)

/-- Stage the layers of a launch's window, nearest first; a layer that does not fit shrinks the window (R394). -/
def State.stageLayers (s : State) (p h : Nat) : List (Nat × Nat) → State
  | [] => s
  | w :: ws =>
    match (s.part p).objects.at? w.1 with
    | none => s.stageLayers p h ws
    | some o =>
      if o.access = 1 ∧ (o.role = 1 ∨ o.role = 2) ∧ o.pin = 0 ∧ !o.layers.isEmpty then
        match s.stagePages p (o.layerNums w.1 w.2) with
        | some s => s.stageLayers p h ws
        | none =>
          match s.launch? p h with
          | some l =>
            if l.windowShrunk then s
            else (s.setLaunch p h { l with windowShrunk := true }).raise kSlWindowShrunk (0x800 + p) { part := p }
          | none => s
      else s.stageLayers p h ws

/-- Staging for the phase of a launch that counts as released, and the phases after it (R393, R438). -/
def State.windowStaging (s : State) (p h : Nat) : State :=
  match s.launch? p h with
  | some l => s.stageLayers p h ((s.part p).launchLayers l)
  | none => s

/-- Drop the staged copies of layers that the ended phase read and the window no longer covers (R393). -/
def State.windowDrops (s : State) (p _h : Nat) (ended : List (Nat × Nat)) : State :=
  ended.foldl (fun (s : State) w =>
    match (s.part p).objects.at? w.1 with
    | none => s
    | some o =>
      let still := ((s.part p).windowLayers).contains w
      if o.role = 1 ∧ o.access = 1 ∧ !still then
        (o.layerNums w.1 w.2).foldl (fun (s : State) n =>
          let g := (s.part p).pages.getD n Page.absent
          if g.b.isSome ∧ g.state ≠ .staging ∧ g.state ≠ .moving ∧ !s.held p n then s.dropUpper p n else s) s
      else s) s

/-- Eager write-back of an offloaded activation layer: a home copy below HBM takes every sector (R440). -/
def State.offload (s : State) (p : Nat) (ended later : List (Nat × Nat)) : State :=
  ended.foldl (fun (s : State) w =>
    match (s.part p).objects.at? w.1 with
    | none => s
    | some o =>
      if o.role = 2 ∧ o.access = 1 ∧ o.pin = 0 ∧ !o.layers.isEmpty ∧ later.contains w then
        (o.layerNums w.1 w.2).foldl (fun (s : State) n =>
          let g := (s.part p).pages.getD n Page.absent
          match g.a with
          | some x =>
            if x.tier = 0 ∧ g.state = .resident then
              match g.b with
              | some _ => s.setPage p (n * pageBytes) { g with state := .writingBack }
              | none =>
                match s.placeFirst p ((s.part p).rankOf n) [1, 2] with
                | some (s, y) => s.setPage p (n * pageBytes)
                    { (s.part p).pages.getD n g with b := some y, dirty := BitVec.allOnes 32, state := .writingBack }
                | none => s
            else s
          | none => s) s
      else s) s

/-! ## The end of a tile and of a phase (R300, R306, R431) -/

/-- The step of a launch has no tile left that has not ended. -/
def Part.stepOver (p : Part) (l : Launch) : Bool :=
  match p.graphs.at? l.graph with
  | some g => decide (g.phases.length ≤ l.phase)
  | none => true

/-- Threads in `sy.steal` of a resident context get 0 (R306). -/
def Context.noWork (c : Context) : Context :=
  { c with threads := c.threads.map (fun h => match h.wait with
      | .steal rd => (h.setReg rd 0).advance
      | _ => h) }

/-- The phase of a launch ends (R300, R393, R431, R440). -/
def State.phaseEnd (s : State) (p h : Nat) : State :=
  match s.launch? p h with
  | none => s
  | some l =>
    match (s.part p).graphs.at? l.graph with
    | none => s
    | some g =>
      let here := match g.phases[l.phase]? with | some ph => ph.windows | none => []
      let later := (g.phases.drop (l.phase + 1)).flatMap (fun ph => ph.windows)
      let l := { l.writeNorms with phase := l.phase + 1, released := false, ended := [] }
      let s := s.setLaunch p h l
      let s := ((s.offload p here later).windowDrops p h here).windowStaging p h
      if (s.part p).stepOver l then
        (s.ctxsOf p h).foldl (fun (s : State) k => match s.ctx? k with
          | some c => match c.rillOf with
            | some _ => s.setCtx k c.noWork
            | none => s
          | none => s) s
      else s

/-- The thread's current tile ends, if it holds one. -/
def State.endTile (s : State) (k t : Nat) : State :=
  match s.ctx? k with
  | none => s
  | some c =>
    match (c.thread? t).bind (fun h => h.tile) with
    | none => s
    | some ti =>
      let s := s.updThread k t (fun h => { h with tile := none })
      let p := keyPart k
      match s.launch? p ti.launch with
      | none => s
      | some l =>
        let l := { l with ended := if l.ended.contains ti.index then l.ended else ti.index :: l.ended }
        let s := s.setLaunch p ti.launch l
        match (s.part p).graphs.at? l.graph with
        | none => s
        | some g => match g.phases[l.phase]? with
          | some ph => if l.released && decide (ph.tileCount ≤ l.ended.length) then s.phaseEnd p ti.launch else s
          | none => s

/-! ## The search (R303 to R308) -/

/-- Launch whose slot it is in a partition with a cyclic schedule; `none` for every launch (R321 to R323). -/
def Part.slotLaunch (p : Part) : Option Nat :=
  match p.schedule with
  | none => none
  | some c =>
    let i := if c.early then (c.slot + 1) % c.entries.length else c.slot
    (c.entries[i]?).map (fun e => e.launch)

/-- Spillway hands tiles of a launch to a rill (R128, R295, R309, R311, R321). -/
def State.handsOut (s : State) (p h r : Nat) : Bool :=
  let q := s.part p
  s.inService r && (decide (q.state = 1) || decide (q.state = 2)) &&
  (match q.slotLaunch with | some x => decide (x = h) | none => true) &&
  (match q.launches.at? h with | some l => !l.parked | none => false)

/-- Candidates from a rotating pointer on. -/
def fromPtr (l : List Nat) (ptr : Nat) : List Nat := l.filter (fun x => decide (ptr ≤ x)) ++ l.filter (fun x => decide (x < ptr))

/-- Take the first item of a launch from a fault-return deque. -/
def takeFrq (h : Nat) : List FrItem → Option (FrItem × List FrItem)
  | [] => none
  | x :: t =>
    if x.tile.launch = h then some (x, t)
    else match takeFrq h t with
      | some (y, t) => some (y, x :: t)
      | none => none

/-- Cascades and rills searched at a level of R304. -/
def Part.searchAt (p : Part) (r lv : Nat) : List Nat × List Nat :=
  let cs := p.cascadeList
  match lv with
  | 1 => ([r / 16], p.rills.filter (fun q => decide (q / 16 = r / 16 ∧ q ≠ r)))
  | 2 => (cs.filter (fun c => decide (c / 16 = r / 256 ∧ c ≠ r / 16)),
          p.rills.filter (fun q => decide (q / 256 = r / 256 ∧ q / 16 ≠ r / 16)))
  | _ => (cs.filter (fun c => decide (c / 16 ≠ r / 256)), p.rills.filter (fun q => decide (q / 256 ≠ r / 256)))

/-- Move a rill's pointer past a candidate. -/
def State.setStealPtr (s : State) (r i v : Nat) : State :=
  s.setRill r { s.rill r with stealPtr := (s.rill r).stealPtr.put i v }

/-- Take a tile at a level: fault-return deques first, then the back of other rills' deques (R303 to R305). -/
def State.takeAt (s : State) (p h r lv : Nat) : Option (State × Tile) :=
  let q := s.part p
  let cand := q.searchAt r lv
  let ptr := (s.rill r).stealPtr
  match (fromPtr cand.1 (ptr.getD (2 * lv) 0)).find? (fun c => (takeFrq h (s.frq c)).isSome) with
  | some c =>
    match takeFrq h (s.frq c) with
    | some (x, rest) =>
      some ((({ s with frqs := s.frqs.put c rest }.setStealPtr r (2 * lv) (c + 1)).satF (swSteals r lv) 1).credit p (21 + lv) 1, x.tile)
    | none => none
  | none =>
    match s.launch? p h with
    | none => none
    | some l =>
      match (fromPtr cand.2 (ptr.getD (2 * lv + 1) 0)).find? (fun z => !(l.deques.getD z []).isEmpty) with
      | some z =>
        let dq := l.deques.getD z []
        match dq.getLast? with
        | some t =>
          let s := s.setLaunch p h { l with deques := l.deques.put z dq.dropLast }
          some (((s.setStealPtr r (2 * lv + 1) (z + 1)).satF (swSteals r lv) 1).credit p (21 + lv) 1, { t with stolen := true })
        | none => none
      | none => none

/-- The whole search of a thread on a rill: its own deque, then the levels in order. -/
def State.takeTile (s : State) (p h r : Nat) : Option (State × Tile) :=
  if s.handsOut p h r then
    match s.launch? p h with
    | none => none
    | some l =>
      match l.deques.getD r [] with
      | t :: rest => some (((s.setLaunch p h { l with deques := l.deques.put r rest }).satF (swSteals r 0) 1).credit p 21 1, t)
      | [] =>
        match s.takeAt p h r 1, s.takeAt p h r 2, s.takeAt p h r 3 with
        | some x, _, _ => some x
        | none, some x, _ => some x
        | none, none, x => x
  else none

/-! ## Handing over (R301) -/

/-- The 32-byte work item (R301). -/
def Tile.item (t : Tile) : List Byte :=
  leBytes 4 t.index ++ leBytes 2 t.phase ++ [BitVec.ofNat 8 (b2n t.retry + 2 * b2n t.stolen), 0] ++ leBytes 24 t.args.toNat

/-- Give a thread a tile: its work item is written and s[rd] names it. -/
def State.giveTile (s : State) (k t : Nat) (ti : Tile) (rd : BitVec 5) (pc : W64) : State :=
  let s := s.regionWrite k (0x400 + 32 * t) ti.item
  s.updThread k t (fun h =>
    { h.setReg rd (BitVec.ofNat 64 (0x400 + 32 * t)) with tile := some ti, st := .ready, wait := .none, pc := pc })

/-- A tile is handed to a thread in WAIT_TILE or IDLE, or its `sy.steal` returns 0 when the step has no more work
(R87, R306). -/
def tileHandover (p c t : Nat) (s : State) : State :=
  let k := ctxKey p c
  match s.ctx? k with
  | none => s
  | some x =>
    match x.rillOf, x.thread? t with
    | some r, some h =>
      if x.stopped || x.stopping || x.zeroing || s.pwr.resetting.isSome || s.pwr.held then s
      else
        match h.wait with
        | .steal rd =>
          match s.launch? p x.launch with
          | none => s
          | some l =>
            if (s.part p).stepOver l then (s.setCtx k (x.setThread t ((h.setReg rd 0).advance))).wakeRill r
            else match s.takeTile p x.launch r with
              | some (s, ti) => (s.giveTile k t ti rd (h.pc + 8)).wakeRill r
              | none => s
        | .halt rd =>
          match s.takeTile p x.launch r with
          | some (s, ti) => (s.giveTile k t ti rd h.pc).wakeRill r
          | none => s
        | _ => s
    | _, _ => s

def execTileHandover (part ctx thr : Nat) (s : State) : Host.Outcome State Fault Refusal := .next (tileHandover part ctx thr s)

/-- Items of a launch's tile list move into a rill's deque as room appears (R302). -/
def tileListRefill (p h r : Nat) (s : State) : State :=
  match s.launch? p h with
  | none => s
  | some l =>
    let dq := l.deques.getD r []
    let ls := l.lists.getD r []
    let n := 256 - dq.length
    s.setLaunch p h { l with deques := l.deques.put r (dq ++ ls.take n), lists := l.lists.put r (ls.drop n) }

def execTileListRefill (part launch rill : Nat) (s : State) : Host.Outcome State Fault Refusal :=
  .next (if s.pwr.held then s else tileListRefill part launch rill s)

/-- The oldest overflow item moves into its fault-return deque (R308). -/
def frqOverflowMove (c : Nat) (s : State) : State :=
  match s.frqOverflow c with
  | [] => s
  | x :: rest =>
    if (s.frq c).length < 256 then
      { s with frqs := s.frqs.put c (s.frq c ++ [x]), frqOver := s.frqOver.put c rest }
    else s

def execFrqOverflowMove (cascade : Nat) (s : State) : Host.Outcome State Fault Refusal := .next (if s.pwr.held then s else frqOverflowMove cascade s)

end Sys2Proof.Machine
end

