-- ==== Sys2Proof/Machine/Sync.lean ====
section
/-! DEFINITION. The sync class (R108, R306), and register-file errors of a rill (R135). -/

namespace Sys2Proof.Machine

open Sys2Proof

/-- Wait for classes of operations, FT completions counting as observed. -/
def State.waitClasses (s : State) (k t r mask : Nat) (c : Context) (h : Thread) : State :=
  let s := s.setCtx k (c.setThread t { h with st := .waitLocal, wait := .classes mask })
  (s.wakeThread k t r).wakeRill r

/-- Registers RD, RA and RB are 0. -/
def Issue.noRegs (x : Issue) : Bool := decide (x.rd = 0 ∧ x.ra = 0 ∧ x.rb = 0)

/-- Classes that `sy.fence` waits for: 0 LS, 1 FT, 2 both with MX and VX. -/
def fenceMask (n : Nat) : Nat := if n = 0 then 4 else if n = 1 then 8 else 15

def syFence (x : Issue) (s : State) : State :=
  s.issue x ⟨x.i || !Issue.noRegs x || decide (3 ≤ x.imm.toNat), [], false⟩
    (fun s k t r c h => s.waitClasses k t r (fenceMask x.imm.toNat) c h)

def syWait (x : Issue) (s : State) : State :=
  s.issue x ⟨x.i || !Issue.noRegs x || decide (16 ≤ x.imm.toNat), [], false⟩
    (fun s k t r c h => s.waitClasses k t r x.imm.toNat c h)

def sySlot (x : Issue) (s : State) : State :=
  s.issue x ⟨x.i || decide (x.rb ≠ 0 ∨ x.imm ≠ 0), [x.ra, x.rd], false⟩
    (fun s k t r c h =>
      let n := (h.reg x.ra).toNat % 128
      match c.slots.at? n with
      | none => s.threadFault k t r kRlIllegalOperand
      | some z =>
        if z.discard then s.threadFault k t r kRlIllegalOperand
        else
          let s := s.setCtx k (c.setThread t { h with st := waitCode z.op.remote, wait := .slot n x.rd })
          (s.wakeThread k t r).wakeRill r)

def syBar (x : Issue) (s : State) : State :=
  s.issue x ⟨x.i || !Issue.noRegs x || decide (16 ≤ x.imm.toNat), [], false⟩
    (fun s k t r c h => (s.setCtx k (c.setThread t { h with st := .waitLocal, wait := .bar x.imm.toNat })).wakeRill r)

/-- Slots taken from now on count as taken since this tile boundary (R126). -/
def Context.newTile (c : Context) (t : Nat) : Context :=
  { c with slots := c.slots.mapV (fun _ z => if z.thr = t then { z with sinceTile := false } else z) }

/-- End the thread's tile at the instruction at its PC, which becomes its restart point. -/
def State.tileEnds (s : State) (k t : Nat) : State :=
  let s := s.endTile k t
  match s.ctx? k with
  | some c => (s.setCtx k (c.newTile t)).updThread k t (fun h => { h with restartPc := some h.pc })
  | none => s

def sySteal (x : Issue) (s : State) : State :=
  s.issue x ⟨x.i || decide (x.ra ≠ 0 ∨ x.rb ≠ 0 ∨ x.imm ≠ 0), [x.rd], false⟩
    (fun s k t r c h =>
      let s := s.tileEnds k t
      match s.launch? (keyPart k) c.launch with
      | none => s
      | some l =>
        if (s.part (keyPart k)).stepOver l then (s.updThread k t (fun h => (h.setReg x.rd 0).advance)).wakeRill r
        else match s.takeTile (keyPart k) c.launch r with
          | some (s, ti) => (s.giveTile k t ti x.rd (h.pc + 8)).wakeRill r
          | none => (s.updThread k t (fun h => { h with st := .waitTile, wait := .steal x.rd })).wakeRill r)

def syYield (x : Issue) (s : State) : State :=
  s.issue x ⟨x.i || !Issue.noRegs x || decide (x.imm ≠ 0), [], false⟩
    (fun s k t _ c h => s.setCtx k (c.setThread t { h.advance with yielding := 3 }))

def syHalt (x : Issue) (s : State) : State :=
  s.issue x ⟨x.i || decide (x.ra ≠ 0 ∨ x.rb ≠ 0 ∨ x.imm ≠ 0), [x.rd], false⟩
    (fun s k t r _ _ =>
      let s := s.tileEnds k t
      (s.updThread k t (fun h => { h with st := .idle, wait := .halt x.rd, pc := h.pc + 8 })).wakeRill r)

def execSyFence (x : Issue) (s : State) : Host.Outcome State Fault Refusal := .next (syFence x s)
def execSyWait (x : Issue) (s : State) : Host.Outcome State Fault Refusal := .next (syWait x s)
def execSySlot (x : Issue) (s : State) : Host.Outcome State Fault Refusal := .next (sySlot x s)
def execSyBar (x : Issue) (s : State) : Host.Outcome State Fault Refusal := .next (syBar x s)
def execSySteal (x : Issue) (s : State) : Host.Outcome State Fault Refusal := .next (sySteal x s)
def execSyYield (x : Issue) (s : State) : Host.Outcome State Fault Refusal := .next (syYield x s)
def execSyHalt (x : Issue) (s : State) : Host.Outcome State Fault Refusal := .next (syHalt x s)

/-! ## Register-file errors (R134, R135, R620, R631) -/

def regCorrected (r : Nat) (s : State) : State := (s.satF (rlEccCorrected r) 1).raise kRlRegCorrected r

def execRegCorrected (rill : Nat) (s : State) : Host.Outcome State Fault Refusal := .next (regCorrected rill s)

/-- The rill goes out of service; its contexts are lost, their tiles returned and the contexts re-created. -/
def regUncorrected (r : Nat) (s : State) : State :=
  let s := (s.raise kRlRegUncorrected r).beginRecovery (.rill r) (kRlRegUncorrected.flint r)
  let s := (s.residentOn r).foldl (fun (s : State) c => s.loseCtx c.1) s
  s.outOfService r

def execRegUncorrected (rill : Nat) (s : State) : Host.Outcome State Fault Refusal := .next (regUncorrected rill s)

end Sys2Proof.Machine
end

