-- ==== Sys2Proof/Machine/StreamTable.lean ====
section
/-! DEFINITION. The stream table: its entries, the cascade stream caches, the checks of a use, norm contributions, and
the table's events (R255 to R263, R272, R282, R284, R290). -/

namespace Sys2Proof.Machine

open Sys2Proof

/-! ## Fields of an entry (R258) -/

/-- `w` bits from bit `lo` of byte `n` of an entry. -/
def eFld (e : BitVec 1024) (n lo w : Nat) : Nat := bits e.toNat (8 * n + lo) w

/-- The entry with such a field set. -/
def eSet (e : BitVec 1024) (n lo w v : Nat) : BitVec 1024 := BitVec.ofNat 1024 (setBits e.toNat (8 * n + lo) w v)

def eState (e : BitVec 1024) : Nat := eFld e 0 0 3
def eGeneration (e : BitVec 1024) : Bool := decide (eFld e 0 3 1 = 1)
def ePart (e : BitVec 1024) : Nat := eFld e 0 4 4
def eGen (e : BitVec 1024) : Nat := eFld e 2 0 16
def eRank (e : BitVec 1024) : Nat := eFld e 4 0 8
def eAfmt (e : BitVec 1024) : Nat := eFld e 5 0 4
def eScaleExp (e : BitVec 1024) : Int := toSigned 8 (eFld e 6 0 8)
def eObj (e : BitVec 1024) : Nat := eFld e 8 0 44
def eKey (e : BitVec 1024) : Nat := eFld e 16 0 64
def eHyper (e : BitVec 1024) : BitVec 256 := BitVec.ofNat 256 (eFld e 24 0 256)
def eStep (e : BitVec 1024) : Nat := eFld e 56 0 32
def eMaxPos (e : BitVec 1024) : Nat := eFld e 60 0 32
def eLink (e : BitVec 1024) : Nat := eFld e 84 0 14
def eLinkValid (e : BitVec 1024) : Bool := decide (eFld e 84 15 1 = 1)

def State.entry (s : State) (n : Nat) : BitVec 1024 := s.streams.getD n 0

def State.setEntry (s : State) (n : Nat) (e : BitVec 1024) : State :=
  { s with streams := if e = 0 then s.streams.del n else s.streams.put n e }

/-- Raise a cause of the stream table with its stream number (R287, R290). -/
def State.raiseStream (s : State) (c : Cause) (inst n : Nat) (w : About) : State :=
  let first := !bit (s.reg stFault) 32 && decide (2 ≤ c.sev)
  let s := s.raise c inst { w with detail := n }
  if first then s.setF stFaultStream n else s

/-! ## Copies and norms (R260, R261, R272) -/

def State.copies (s : State) (c : Nat) : Tab StreamCopy := s.streamCaches.getD c []

def State.copy? (s : State) (c n : Nat) : Option StreamCopy := (s.copies c).at? n

def State.setCopies (s : State) (c : Nat) (t : Tab StreamCopy) : State :=
  { s with streamCaches := s.streamCaches.put c t }

/-- Streams whose copies the running passes and VX instructions of a cascade hold (R261). -/
def State.heldStreams (s : State) (c : Nat) : List Nat :=
  (List.range 16).flatMap (fun i => (s.rill (16 * c + i)).array.streams ++ (s.rill (16 * c + i)).vector.streams)

/-- The entry with norm contributions added, each with RNE in FP32; NORM_ELEMS saturates (R258, R272). -/
def addNorms (e : BitVec 1024) (g2 u2 w2 : W32) (elems : Nat) : BitVec 1024 :=
  let e := eSet e 64 0 32 (addFp32 (eFld e 64 0 32) g2.toNat)
  let e := eSet e 68 0 32 (addFp32 (eFld e 68 0 32) u2.toNat)
  let e := eSet e 72 0 32 (addFp32 (eFld e 72 0 32) w2.toNat)
  eSet e 76 0 32 (min (eFld e 76 0 32 + elems) 0xFFFFFFFF)

/-- The copy without contributions. -/
def StreamCopy.clean (x : StreamCopy) : StreamCopy := { x with g2 := 0, u2 := 0, w2 := 0, elems := 0 }

/-- A copy writes its contributions back to the table; a BROKEN entry takes none (R280). -/
def State.writeCopy (s : State) (c n : Nat) : State :=
  match s.copy? c n with
  | none => s
  | some x =>
    let e := s.entry n
    let s := if x.elems = 0 ∨ eState e = 4 then s else s.setEntry n (addNorms e x.g2 x.u2 x.w2 x.elems)
    s.setCopies c ((s.copies c).put n x.clean)

/-- Cascades of the module. -/
def cascadeCount : Nat := 64

/-- Every copy of an entry writes back. -/
def State.writeCopies (s : State) (n : Nat) : State :=
  (List.range cascadeCount).foldl (fun (s : State) c => s.writeCopy c n) s

/-- Every copy of an entry is updated to the table's value (R262). -/
def State.updateCopies (s : State) (n : Nat) : State :=
  (List.range cascadeCount).foldl (fun (s : State) c =>
    match s.copy? c n with
    | some x => s.setCopies c ((s.copies c).put n { x with entry := s.entry n })
    | none => s) s

/-- A copy takes the place of the least recently used one that no use holds, whose contributions are written back
(R261); with all 64 held, the fill waits. -/
def State.fillCopy (s : State) (c n : Nat) : State :=
  if (s.copy? c n).isSome then s
  else
    let held := s.heldStreams c
    let free := (s.copies c).filter (fun x => !held.contains x.1)
    let victim := free.foldl (fun (b : Option (Nat × StreamCopy)) x =>
      match b with
      | none => some x
      | some y => if x.2.used < y.2.used then some x else some y) none
    let room := if (s.copies c).length < 64 then some s
      else match victim with
        | some v => let s := s.writeCopy c v.1; some (s.setCopies c ((s.copies c).del v.1))
        | none => none
    match room with
    | none => s
    | some s =>
      let s := s.addF (stMiss c) 1
      let x : StreamCopy := { entry := s.entry n, g2 := 0, u2 := 0, w2 := 0, elems := 0, used := s.mem.clock }
      { s.setCopies c ((s.copies c).put n x) with mem := { s.mem with clock := s.mem.clock + 1 } }

/-- A use reads a copy: it is the most recently used one, and is counted (R260). -/
def State.touchCopy (s : State) (c n : Nat) : State :=
  match s.copy? c n with
  | none => s
  | some x =>
    let s := s.addF (stHit c) 1
    { s.setCopies c ((s.copies c).put n { x with used := s.mem.clock }) with
      mem := { s.mem with clock := s.mem.clock + 1 } }

/-- A copy takes contributions of a `vx.opt` (R272). -/
def State.contribute (s : State) (c n : Nat) (g2 u2 w2 : W32) (elems : Nat) : State :=
  match s.copy? c n with
  | none => s
  | some x => s.setCopies c ((s.copies c).put n { x with
      g2 := BitVec.ofNat 32 (addFp32 x.g2.toNat g2.toNat), u2 := BitVec.ofNat 32 (addFp32 x.u2.toNat u2.toNat),
      w2 := BitVec.ofNat 32 (addFp32 x.w2.toNat w2.toNat), elems := min (x.elems + elems) 0xFFFFFFFF })

/-! ## Closing (R280) and busy objects (R406) -/

/-- The object at `b` may not be freed: a stream that is not FREE, other than `except`, names it, or it holds the save
image of a live context (R406). -/
def State.objBusy (s : State) (p b : Nat) (except : Option Nat) : Bool :=
  let len := match (s.part p).objects.at? b with | some o => o.pages * pageBytes | none => 0
  s.streams.any (fun e => decide (eState e.2 ≠ 0 ∧ ePart e.2 = p ∧ b ≤ eObj e.2 ∧ eObj e.2 < b + len) && except != some e.1) ||
  s.ctxs.any (fun c => decide (keyPart c.1 = p ∧ c.2.launch ≠ noLaunch ∧ b ≤ c.2.image ∧ c.2.image < b + len))

/-- No running use holds a copy of the entry. -/
def State.released (s : State) (n : Nat) : Bool := (List.range cascadeCount).all (fun c => !(s.heldStreams c).contains n)

/-- The entry leaves every copy and becomes FREE; its object goes with FREE_OBJ (R280). -/
def State.finishClose (s : State) (n : Nat) (freeObj : Bool) : State :=
  let s := s.writeCopies n
  let s := (List.range cascadeCount).foldl (fun (s : State) c => s.setCopies c ((s.copies c).del n)) s
  let e := s.entry n
  let s := if freeObj then
      match (s.part (ePart e)).objAt (eObj e) with
      | some o => if s.objBusy (ePart e) o.1 (some n) then s else s.freeObj (ePart e) o.1
      | none => s
    else s
  s.setEntry n (eSet e 0 0 3 0)

/-- `stream.close` commands whose entry no use holds any more complete (R280). -/
def State.sweepCloses (s : State) : State :=
  (s.host.inProgress.filter (fun c => decide (dOpcode c.d = 0x0502 ∧ c.started = true))).foldl (fun (s : State) c =>
    let n := dfld c.d 16 0 14
    if eState (s.entry n) = 2 ∧ s.released n = true then
      let last := eStep (s.entry n)
      (s.finishClose n (dfld c.d 18 0 1 = 1)).finish c 0 (BitVec.ofNat 64 last)
    else s) s

/-! ## Using an entry (R263) -/

/-- Who uses an entry. -/
inductive StreamUse where
  | seg
  | opt
  | spring
  deriving DecidableEq, Repr

/-- Check 4 of R263. -/
def StreamUse.kindOk (u : StreamUse) (e : BitVec 1024) : Bool :=
  match u with
  | .seg => !eGeneration e || eLinkValid e
  | .opt => !eGeneration e
  | .spring => true

/-- Checks 1 to 4 of R263, in order. -/
def checkEntry (e : BitVec 1024) (part : Nat) (kindOk : Bool) : Option Cause :=
  if eState e = 4 then some kStStreamBroken
  else if eState e ≠ 1 ∧ eState e ≠ 3 then some kStStreamClosed
  else if ePart e ≠ part then some kStStreamForeign
  else if !kindOk then some kStKindMismatch
  else none

/-- What a use of a stream finds: the entry whose settings it takes with its stream number and the streams held, a
missing copy, or a failed check with the stream that failed it. -/
inductive UseResult where
  | ok (stream : Nat) (e : BitVec 1024) (held : List Nat)
  | missing (stream : Nat)
  | failed (c : Cause) (stream : Nat)
  deriving DecidableEq, Repr

/-- The use of a stream on a cascade by a context of a partition (R263, R268). -/
def State.useStream (s : State) (c part n : Nat) (u : StreamUse) : UseResult :=
  match s.copy? c n with
  | none => .missing n
  | some x =>
    match checkEntry x.entry part (u.kindOk x.entry) with
    | some k => .failed k n
    | none =>
      if u = .seg ∧ eGeneration x.entry = true then
        match s.copy? c (eLink x.entry) with
        | none => .missing (eLink x.entry)
        | some y =>
          match checkEntry y.entry part (!eGeneration y.entry) with
          | some k => .failed k (eLink x.entry)
          | none => .ok (eLink x.entry) y.entry [n, eLink x.entry]
      else .ok n x.entry [n]

/-! ## Events of the table -/

/-- A fill arrives at a cascade's cache (R260, R261). -/
def streamCacheFill (c n : Nat) (s : State) : State := if c < cascadeCount ∧ n < 16384 then s.fillCopy c n else s

def execStreamCacheFill (cascade stream : Nat) (s : State) : Host.Outcome State Fault Refusal :=
  .next (streamCacheFill cascade stream s)

/-- An uncorrectable error: a copy is discarded, counted as corrected and fetched again; the table's entry becomes
BROKEN, and so do the copies that later uses read (R282, R290). -/
def entryUncorrected (n : Nat) (copyOf : Option Nat) (s : State) : State :=
  match copyOf with
  | some c =>
    match s.copy? c n with
    | none => s
    | some _ =>
      let s := s.setCopies c ((s.copies c).del n)
      let s := (s.satF stEccCorrected 1).raiseStream kStEntryCorrected 0xFFF n { part := ePart (s.entry n) }
      s.fillCopy c n
  | none =>
    if n < 16384 then
      let s := s.setEntry n (eSet (s.entry n) 0 0 3 4)
      let s := (s.satF stEccUncorrected 1).raiseStream kStEntryUncorrected 0xFFF n { part := ePart (s.entry n) }
      s.updateCopies n
    else s

def execEntryUncorrected (stream : Nat) (copyOf : Option Nat) (s : State) : Host.Outcome State Fault Refusal :=
  .next (entryUncorrected stream copyOf s)

/-- ST_CTRL.FLUSH (R284). -/
def stFlush (s : State) : State :=
  (List.range cascadeCount).foldl (fun (s : State) c =>
    (s.copies c).foldl (fun (s : State) x => s.writeCopy c x.1) s) s

def execStFlush (s : State) : Host.Outcome State Fault Refusal := .next (stFlush s)

end Sys2Proof.Machine
end

