-- ==== Sys2Proof/Machine/Pass.lean ====
section
/-! DEFINITION. Arithmetic of one array pass: how operands enter, the terms of each AOP, and how they combine into an
accumulator entry (R60 to R75, R136, R144, R158, R266). -/

namespace Sys2Proof.Machine

open Sys2Proof

/-! ## The mode (R61, R101) -/

def modeFmtA (m : BitVec 32) : Nat := bits m.toNat 28 4
def modeFmtB (m : BitVec 32) : Nat := bits m.toNat 24 4
def modePass (m : BitVec 32) : Nat := bits m.toNat 22 2
def modeRne (m : BitVec 32) : Bool := bit m.toNat 21
def modeDenorm (m : BitVec 32) : Bool := bit m.toNat 20
def modeAop (m : BitVec 32) : Nat := bits m.toNat 17 3
def modeSeg (m : BitVec 32) : Bool := bit m.toNat 14

/-- Operand class (R60): 0 16-bit, 1 8-bit float, 2 narrow, 3 integer; 4 for a FMT that is no input. -/
def fmtClass (f : Nat) : Nat :=
  if f ≤ 3 then 0 else if f ≤ 7 ∨ f = 0xB then 1 else if f ≤ 0xA then 2 else if f = 0xC then 3 else 4

/-- Terms of a cell in each K-step (R136, R144). -/
def classLanes (c : Nat) : Nat := if c = 0 then 1 else if c = 2 then 4 else 2

/-- Group size g (R60). -/
def classGroup (c : Nat) : Nat := 16 * classLanes c

/-- The fields of `mx.cfg` are legal (R60 to R62, R72, R101). -/
def cfgOk (m : BitVec 32) : Bool :=
  let c := fmtClass (modeFmtA m)
  decide (c ≤ 3 ∧ fmtClass (modeFmtB m) = c ∧ modePass m ≠ 0 ∧ modeAop m ≤ 5) &&
  (decide (modePass m = 1) || decide (modeAop m = 0 ∧ c = 0)) &&
  (decide (c ≠ 3) || decide (modeAop m = 0 ∨ modeAop m = 5))

/-! ## Elements of stored tiles (R54, R59, R677) -/

/-- The encoding of element (i, j) of a tile whose ADDR is at `base` in a memory. -/
def tileRaw (m : List Host.Cell) (base : Nat) (t : BitVec 256) (i j : Nat) : Nat :=
  let e := elemAt t i j
  bits (Memory.le m (base + e.1) e.2.2) e.2.1 (fmtBits (tFmt t))

/-- The scale byte of the block of element (i, j). -/
def tileScale (m : List Host.Cell) (base : Nat) (t : BitVec 256) (i j : Nat) : Nat :=
  if isMx (tFmt t) then (Memory.read m (base + scaleAt t i j)).toNat else 127

/-! ## Entering the array (R63 to R66, R74) -/

/-- Which image of an operand a pass takes. -/
inductive Image where
  /-- By R63. -/
  | entered
  | hi
  | lo
  deriving DecidableEq, Repr

/-- One operand element as the cells see it. -/
def enterVal (fmt : Nat) (im : Image) (rne denorm : Bool) (raw scale : Nat) : Val × Flags :=
  if fmt = 0 then
    let f0 := (fp32.flushIn denorm raw).2
    let x := if f0.fz then raw / 2 ^ 31 * 2 ^ 31 else raw
    match im with
    | .entered => let y := fp32ToFp19 x rne; (fp19.decode y.1, f0.or y.2)
    | .hi => (fp19.decode (split32 x).1, f0)
    | .lo => (fp19.decode (split32 x).2, f0)
  else
    match im with
    | .lo => (.fin false 0 0, {})
    | _ => let v := readElem fmt denorm raw; (if isMx fmt then scaled v.1 scale else v.1, v.2)

/-- Images of A and B in pass `n` of `p` passes (R66). -/
def passImages (p n : Nat) : Image × Image :=
  match p, n with
  | 2, 1 => (.entered, .lo)
  | 2, _ => (.entered, .hi)
  | 3, 1 => (.lo, .hi)
  | 3, 2 => (.hi, .lo)
  | 3, _ => (.hi, .hi)
  | _, _ => (.entered, .entered)

/-! ## Terms and their combination (R67, R69, R70, R72, R73, R158) -/

/-- Finite and not zero. -/
def Val.ordinary : Val → Bool
  | .fin _ m _ => decide (m ≠ 0)
  | _ => false

/-- The product of a MAC term: exact, scaled by 2^`se`, an exact zero when it has a lo factor and a factor is zero,
infinite or NaN (R66, R266). -/
def macTerm (lo : Bool) (se : Int) (a b : Val) : Term :=
  if lo && !(a.ordinary && b.ordinary) then ⟨.fin false 0 0, false⟩
  else ⟨((mulV a b).1).scale se, a.isNan || b.isNan⟩

/-- A value rounded to FP32 with RNE, as a value. -/
def round32 (denorm : Bool) (v : Val × Flags) : Val × Flags :=
  let r := fp32.round .rne denorm v.1
  (fp32.decode r.1, v.2.or r.2)

/-- Min (AOP 3) or max (AOP 4) of an entry and one term (R72, R74). -/
def minmaxStep (max denorm : Bool) (acc : Nat) (t : Val) : Nat × Flags :=
  if (fp32.decode acc).isNan then (acc, {})
  else if t.isNan then (fp32.canonNan, {})
  else
    let h := fp32.flushIn denorm acc
    let held := if h.2.fz then acc / 2 ^ 31 * 2 ^ 31 else acc
    if (if max then ltV h.1 t else ltV t h.1) then ((fp32.round .rne false t).1, h.2) else (held, h.2)

/-- Saturating add into an INT32 entry (R73). -/
def addInt32 (acc : Nat) (n : Int) : Nat × Flags := satInt 32 (toSigned 32 acc + n)

/-- The integer of a value that is one. -/
def Val.toInt : Val → Int
  | .fin n m e => let x : Int := truncTo m e 0; if n then -x else x
  | _ => 0

/-- Groups added one after the other, flags gathered. -/
def foldGroups {α : Type} (f : Nat → α → Nat × Flags) (acc : Nat) (l : List α) : Nat × Flags :=
  l.foldl (fun (p : Nat × Flags) x => let r := f p.1 x; (r.1, p.2.or r.2)) (acc, {})

/-- One output element over the pass's K: entry before, entry after, flags (R158). -/
def passElem (aop cls : Nat) (denorm lo : Bool) (se : Int) (acc : Nat) (as bs : List Val) : Nat × Flags :=
  let g := classGroup cls
  let ab := as.zip bs
  match aop with
  | 0 =>
    if cls = 3 then
      foldGroups (fun a grp => addInt32 a ((grp.map (fun (x : Val × Val) => x.1.toInt * x.2.toInt)).sum)) acc
        (groupsOf g ab.length ab)
    else addGroups denorm g acc (ab.map (fun x => macTerm lo se x.1 x.2))
  | 1 =>
    let ds := ab.map (fun x => round32 denorm (subV x.1 x.2))
    let r := addGroups denorm g acc (ds.map (fun d => ⟨d.1.abs, d.1.isNan⟩))
    (r.1, ds.foldl (fun f d => f.or d.2) r.2)
  | 2 =>
    let ds := ab.map (fun x => round32 denorm (subV x.1 x.2))
    let r := addGroups denorm g acc (ds.map (fun d => ⟨(mulV d.1 d.1).1, d.1.isNan⟩))
    (r.1, ds.foldl (fun f d => f.or d.2) r.2)
  | 5 =>
    foldGroups (fun a grp => addInt32 a ((grp.filter (fun (x : Val × Val) => ltV x.2 x.1)).length : Nat)) acc
      (groupsOf g ab.length ab)
  | n =>
    let ds := ab.map (fun x => round32 denorm (addV x.1 x.2))
    let r := foldGroups (fun a d => minmaxStep (decide (n = 4)) denorm a d) acc (ds.map (fun d => d.1))
    (r.1, ds.foldl (fun f d => f.or d.2) r.2)

/-- All operand elements of one tile as they enter: the first `rows` rows of `K` elements. -/
def enterTile (m : List Host.Cell) (base : Nat) (t : BitVec 256) (im : Image) (rne denorm : Bool) :
    List (List (Val × Flags)) :=
  (List.range (tRows t)).map (fun i => (List.range (tCols t)).map (fun k =>
    enterVal (tFmt t) im rne denorm (tileRaw m base t i k) (tileScale m base t i k)))

/-- Flags of entered operands. -/
def gatherFlags (l : List (List (Val × Flags))) : Flags :=
  l.foldl (fun f row => row.foldl (fun f x => f.or x.2) f) {}

/-- The rows of W that a pass commits, by entry, and the flags it sets (R147, R160). -/
def passRows (mode : BitVec 32) (pass : Nat) (se : Int) (acc : Tab W32) (as bs : List (List (Val × Flags))) :
    Tab W32 × Flags :=
  let c := shapeCols (modeShape mode)
  let im := passImages (modePass mode) pass
  let lo := decide (im.1 = .lo) || decide (im.2 = .lo)
  let rows := as.zipIdx.flatMap (fun a => bs.zipIdx.map (fun b =>
    let p := a.2 * c + b.2
    let r := passElem (modeAop mode) (fmtClass (modeFmtA mode)) (modeDenorm mode) lo se (acc.getD p 0).toNat
      (a.1.map (fun x => x.1)) (b.1.map (fun x => x.1))
    (p, r)))
  (rows.map (fun x => (x.1, BitVec.ofNat 32 x.2.1)),
    rows.foldl (fun f x => f.or x.2.2) ((gatherFlags as).or (gatherFlags bs)))

/-- A set with one entry written; an entry that holds +0 is not listed. -/
def putAcc (t : Tab W32) (p : Nat) (v : W32) : Tab W32 := if v = 0 then t.del p else t.put p v

end Sys2Proof.Machine
end

