-- ==== Sys2Proof/Machine/Matrix.lean ====
section
/-! DEFINITION. The matrix class and the events of the array (R99 to R103, R136 to R169, R180, R181, R264 to R268). -/

namespace Sys2Proof.Machine

open Sys2Proof

/-! ## The array's state -/

def MxArray.acc (a : MxArray) (set : Nat) : Tab W32 := if set = 0 then a.acc0 else a.acc1

def MxArray.setAcc (a : MxArray) (set : Nat) (t : Tab W32) : MxArray :=
  if set = 0 then { a with acc0 := t } else { a with acc1 := t }

def State.setArray (s : State) (r : Nat) (a : MxArray) : State := s.setRill r { s.rill r with array := a }

/-- Take the front entry out of the MX queue. -/
def State.popMx (s : State) (r : Nat) : State := s.setRill r { s.rill r with mxQ := (s.rill r).mxQ.drop 1 }

/-- An earlier LS access of the thread still waits for its bank (R113). -/
def State.lsPending (s : State) (q : QEntry) (r : Nat) : Bool :=
  (s.rill r).lsWait.any (fun x => decide (x.ctx = q.ctx ∧ x.thr = q.thr))

/-- A descriptor names accumulator set `a`. -/
def namesSet (t : BitVec 256) (a : Nat) : Bool := decide (tSpace t = 2 + a)

/-- The running VX instruction names set `a`. -/
def VxEngine.names (v : VxEngine) (a : Nat) : Bool := namesSet v.dDesc a || namesSet v.aDesc a || namesSet v.bDesc a

/-- An earlier VX instruction of the context that reads or writes set `a`, or may (R114, R151). -/
def State.vxAhead (s : State) (q : QEntry) (r a : Nat) : Bool :=
  let v := s.rill r
  v.vxQ.any (fun x => decide (x.ctx = q.ctx ∧ x.order < q.order)) ||
    (v.vector.cur.any (fun x => decide (x.ctx = q.ctx ∧ x.order < q.order)) && v.vector.names a)

/-- Identity of an AOP (R150). -/
def aopIdentity (aop : Nat) : W32 := if aop = 3 then 0x7F800000 else if aop = 4 then 0xFF800000 else 0

/-- Every entry of a set at the identity. -/
def identitySet (aop : Nat) : Tab W32 :=
  if aop = 3 ∨ aop = 4 then (List.range 4096).map (fun p => (p, aopIdentity aop)) else []

/-! ## The front of the queue (R103, R141, R150, R171, R181) -/

/-- The front entry is turned away: its array is disabled, or its context does not own it (R99, R181). -/
def State.mxRefuse (s : State) (r : Nat) (q : QEntry) : Option State :=
  if q.op = 9 then none
  else if s.getF (arDisable r) = 1 then
    some ((((s.popMx r).raise kArArrayDisabled r (s.aboutCtx q.ctx)).beginRecovery (.rill r)
      (kArArrayDisabled.flint r)).recoverCtx q.ctx)
  else if (s.rill r).array.owner ≠ some q.ctx then some ((s.popMx r).threadFault q.ctx q.thr r kRlNotOwner)
  else none

/-- One entry other than `mx.stream` takes effect, or waits. -/
def State.mxTake (s : State) (r : Nat) (q : QEntry) : Option State :=
  match s.ctx? q.ctx with
  | none => some (s.popMx r)
  | some c =>
    match q.op with
    | 0 => some ((s.popMx r).setCtx q.ctx { c with mode := q.imm })
    | 1 =>
      if s.lsPending q r then none
      else match s.readDesc c r q.a.toNat false with
        | .ok t =>
          if tSpace t = 0 then some ((s.popMx r).setCtx q.ctx { c with panel := some t })
          else some ((s.popMx r).threadFault q.ctx q.thr r kRlBadDescriptor)
        | .bad => some ((s.popMx r).threadFault q.ctx q.thr r kRlBadDescriptor)
        | .poisoned lane => some ((s.popMx r).bankFault q.ctx r lane)
    | 3 =>
      let set := bits q.imm.toNat 0 1
      if s.vxAhead q r set then none
      else
        let s := s.popMx r
        let a := (s.rill r).array
        some (s.setArray r { a.setAcc set (identitySet (modeAop c.mode)) with
          badAcc := a.badAcc.filter (fun x => decide (x.1 ≠ set)) })
    | 9 =>
      let s := s.popMx r
      let a := (s.rill r).array
      some (if a.owner = some q.ctx then s.setArray r { a with owner := none } else s)
    | _ => none

/-- Entries at the front take effect in queue order while the array is free (R103); fuel is the queue's length. -/
def State.mxPump (s : State) (r : Nat) : Nat → State
  | 0 => s
  | n + 1 =>
    if (s.rill r).array.cur.isSome || !s.running then s
    else match (s.rill r).mxQ with
      | [] => s
      | q :: _ =>
        match s.mxRefuse r q with
        | some s => s.mxPump r n
        | none =>
          match s.mxTake r q with
          | some s => s.mxPump r n
          | none => s

/-- Run the queue's front, then end the waits that this allows. -/
def State.mxGo (s : State) (r : Nat) : State := ((s.mxPump r 64).wakeRill r).sweepCloses

/-! ## Issue of the matrix class (R94, R99 to R103) -/

/-- Room for one more entry (R103). -/
def Rill.mxRoom (v : Rill) : Bool := decide (v.mxQ.length + b2n v.array.cur.isSome < 8)

/-- Put an MX instruction into the queue, or wait for room. -/
def State.mxEnqueue (s : State) (x : Issue) (op k t r : Nat) (c : Context) (h : Thread) : State :=
  let v := s.rill r
  if v.mxRoom then
    let q : QEntry := { ctx := k, thr := t, op := op, d := 0, a := h.reg x.ra, b := 0, imm := x.imm, order := v.order }
    let s := s.setCtx k (c.setThread t h.advance)
    (s.setRill r { v with mxQ := v.mxQ ++ [q], order := v.order + 1 }).mxGo r
  else s.setCtx k (c.setThread t { h with st := .waitQueue, wait := .mxRoom })

/-- An MX instruction that only the array's owner may issue. -/
def State.mxIssue (s : State) (x : Issue) (op : Nat) (illegal : Bool) (ok : Bool) : State :=
  s.issue x ⟨illegal, [x.ra], false⟩ (fun s k t r c h =>
    if (s.rill r).array.owner ≠ some k then s.threadFault k t r kRlNotOwner
    else if !ok then s.threadFault k t r kRlIllegalOperand
    else s.mxEnqueue x op k t r c h)

/-- RD, RB and I are 0. -/
def mxFields (x : Issue) : Bool := x.i || decide (x.rd ≠ 0 ∨ x.rb ≠ 0)

def mxCfg (x : Issue) (s : State) : State :=
  s.mxIssue x 0 (mxFields x || decide (x.ra ≠ 0 ∨ bits x.imm.toNat 0 14 ≠ 0)) (cfgOk x.imm)

def mxLoad (x : Issue) (s : State) : State := s.mxIssue x 1 (mxFields x || decide (x.imm ≠ 0)) true

/-- IMM [31:16], [7:5], [4:3] and [2] are 0 in an issued `mx.stream` (R167, R264). -/
def mxStream (x : Issue) (s : State) : State :=
  s.mxIssue x 2 (mxFields x || decide (bits x.imm.toNat 2 6 ≠ 0 ∨ bits x.imm.toNat 16 16 ≠ 0)) true

def mxInit (x : Issue) (s : State) : State :=
  s.mxIssue x 3 (mxFields x || decide (x.ra ≠ 0 ∨ 2 ≤ x.imm.toNat)) true

/-- `mx.acquire` acts at issue; while another context owns the array it waits in WAIT_LOCAL (R99). -/
def mxAcquire (x : Issue) (s : State) : State :=
  s.issue x ⟨mxFields x || decide (x.ra ≠ 0 ∨ x.imm ≠ 0), [], false⟩ (fun s k t r c h =>
    let a := (s.rill r).array
    if a.owner.isNone then (s.setCtx k (c.setThread t h.advance)).setArray r { a with owner := some k }
    else if a.owner = some k then s.setCtx k (c.setThread t h.advance)
    else s.setCtx k (c.setThread t { h with st := .waitLocal, wait := .acquire }))

/-- `mx.release` of a context that does not own the array has no effect (R99). -/
def mxRelease (x : Issue) (s : State) : State :=
  s.issue x ⟨mxFields x || decide (x.ra ≠ 0 ∨ x.imm ≠ 0), [], false⟩ (fun s k t r c h =>
    if (s.rill r).array.owner = some k then s.mxEnqueue x 9 k t r c h
    else s.setCtx k (c.setThread t h.advance))

def execMxCfg (x : Issue) (s : State) : Host.Outcome State Fault Refusal := .next (mxCfg x s)
def execMxLoad (x : Issue) (s : State) : Host.Outcome State Fault Refusal := .next (mxLoad x s)
def execMxStream (x : Issue) (s : State) : Host.Outcome State Fault Refusal := .next (mxStream x s)
def execMxInit (x : Issue) (s : State) : Host.Outcome State Fault Refusal := .next (mxInit x s)
def execMxAcquire (x : Issue) (s : State) : Host.Outcome State Fault Refusal := .next (mxAcquire x s)
def execMxRelease (x : Issue) (s : State) : Host.Outcome State Fault Refusal := .next (mxRelease x s)

/-! ## The start of a pass (R140 to R147, R161 to R163, R264 to R268) -/

/-- Fields of the IMM of `mx.stream` (R100, R167, R264). -/
def immSet (m : BitVec 32) : Nat := bits m.toNat 0 1
def immUp (m : BitVec 32) : Bool := bit m.toNat 1
def immDone (m : BitVec 32) : Nat := bits m.toNat 3 2
def immTarget (m : BitVec 32) : Nat := bits m.toNat 8 8
def immWithDone (m : BitVec 32) (n : Nat) : BitVec 32 := BitVec.ofNat 32 (setBits m.toNat 3 2 n)

/-- K-steps of a pass over K indices (R144). -/
def kSteps (cls k : Nat) : Nat := (k + classLanes cls - 1) / classLanes cls

/-- The operands agree with the mode and each other (R143). -/
def passOk (m imm : BitVec 32) (a b : BitVec 256) : Bool :=
  decide (modePass m ≠ 0) && decide (tCols a = tCols b) &&
  decide (tRows a ≤ shapeRows (modeShape m) ∧ tRows b ≤ shapeCols (modeShape m)) &&
  decide (tFmt a = modeFmtA m ∧ tFmt b = modeFmtB m) &&
  decide (kSteps (fmtClass (modeFmtA m)) (tCols a) ≤ 4096) &&
  (if modeSeg m then tSv a && decide (modePass m = 1 ∧ modeAop m = 0)
   else decide (immUp imm = false ∧ immTarget imm = 0))

/-- The operands of a SEG pass agree with the stream's rank (R265). -/
def rankOk (m imm : BitVec 32) (a b : BitVec 256) (e : BitVec 1024) : Bool :=
  if immUp imm then decide (tRows b ≤ shapeCols (modeShape m) ∧ tCols b = eRank e ∧ tCols a = eRank e)
  else decide (tRows b = eRank e ∧ eRank e ≤ shapeCols (modeShape m) ∧ tCols b = tCols a)

/-- The 16 bytes of a tag (R267). -/
def tagFor (stream : Nat) (e : BitVec 1024) (imm : BitVec 32) (b : BitVec 256) : Nat :=
  stream % 2 ^ 14 + eGen e * 2 ^ 16 + immTarget imm * 2 ^ 32 + b2n (immUp imm) * 2 ^ 40 + tRows b * 2 ^ 64 + tCols b * 2 ^ 80

/-- A poisoned lane among the bytes that a tile covers, in a rill's scratchpad (R241). -/
def State.tilePoison (s : State) (r base : Nat) (t : BitVec 256) : Option Nat :=
  (tRanges t).findSome? (fun x => s.poisonAt r (base + tAddr t + x.1) x.2)

/-- What stands in the way of a pass, or the operands and the stream's entry with which it runs. -/
inductive PassCheck where
  | run (a b : BitVec 256) (use : Option (Nat × BitVec 1024 × List Nat))
  | fault (k : Cause)
  | poison (lane : Nat)
  | stream (k : Cause) (n : Nat)
  | wait
  deriving DecidableEq, Repr

/-- The panel descriptor of a pass: bound, or beside the A tile's in SEG mode (R141, R264, R267). -/
def State.panelOf (s : State) (c : Context) (r : Nat) (q : QEntry) : Option DescRead :=
  if modeSeg c.mode then
    match s.readDesc c r (q.a.toNat + 32) false with
    | .ok t => some (if tSpace t = 0 ∧ 16 ≤ tAddr t then .ok t else .bad)
    | x => some x
  else c.panel.map DescRead.ok

/-- The checks of a pass in order: descriptors (R110), R143, the stream (R263), its rank (R265). -/
def State.passCheck (s : State) (c : Context) (r : Nat) (q : QEntry) : PassCheck :=
  match s.readDesc c r q.a.toNat false with
  | .bad => .fault kRlBadDescriptor
  | .poisoned lane => .poison lane
  | .ok a =>
    if tSpace a ≠ 0 then .fault kRlBadDescriptor
    else match s.panelOf c r q with
      | none => .fault kRlIllegalOperand
      | some .bad => .fault kRlBadDescriptor
      | some (.poisoned lane) => .poison lane
      | some (.ok b) =>
        if !passOk c.mode q.imm a b then .fault kRlIllegalOperand
        else if modeSeg c.mode then
          match s.useStream (r / 16) (keyPart q.ctx) (tStream a) .seg with
          | .missing _ => .wait
          | .failed k n => .stream k n
          | .ok n e held =>
            if !rankOk c.mode q.imm a b e then .stream kStRankMismatch n
            else if tFmt b ≠ eAfmt e then .fault kRlIllegalOperand
            else .run a b (some (n, e, held))
        else .run a b none

/-- A cause of the stream table stops a thread's instruction (R263, R290). -/
def State.streamFault (s : State) (k t r : Nat) (c : Cause) (n : Nat) : State :=
  (s.raiseStream c r n (s.aboutCtx k)).jobFault k t (c.flint r)

/-- The pass runs: its operands are read, and the rows that it will commit are formed. -/
def State.runPass (s : State) (c : Context) (r : Nat) (q : QEntry) (a b : BitVec 256)
    (use : Option (Nat × BitVec 1024 × List Nat)) : State :=
  let base := spadBase r + c.regionBase
  let set := immSet q.imm
  let arr := (s.rill r).array
  let lost := (s.addF (arAbandoned r) 1).creditRill r 4 1
  match (match s.tilePoison r c.regionBase a with | some l => some l | none => s.tilePoison r c.regionBase b) with
  | some lane => lost.bankFault q.ctx r lane
  | none =>
    let stale := match use with
      | some u => decide (Memory.le s.mem.cells (base + tAddr b - 16) 16 ≠ tagFor u.1 u.2.1 q.imm b)
      | none => false
    if stale then lost.streamFault q.ctx q.thr r kStStaleAdapter ((use.map (fun u => u.1)).getD 0)
    else if arr.badAcc.any (fun x => decide (x.1 = set)) then (lost.accHit r (s.aboutCtx q.ctx)).recoverCtx q.ctx
    else
      let n := immDone q.imm + 1
      let im := passImages (modePass c.mode) n
      let se := match use with
        | some u => if immUp q.imm then eScaleExp u.2.1 else 0
        | none => 0
      let as := enterTile s.mem.cells (base + tAddr a) a im.1 (modeRne c.mode) (modeDenorm c.mode)
      let bs := enterTile s.mem.cells (base + tAddr b) b im.2 (modeRne c.mode) (modeDenorm c.mode)
      let w := passRows c.mode n se (arr.acc set) as bs
      let held := match use with | some u => u.2.2 | none => []
      let s := held.foldl (fun (s : State) x => s.touchCopy (r / 16) x) s
      (s.setArray r { arr with cur := some q, phase := .running, passNo := n, set := set,
                               steps := kSteps (fmtClass (modeFmtA c.mode)) (tCols a), done := 0, w := w.1,
                               streams := held }).orFlags (arReg r 0x20) w.2

/-- Start the pass of an `mx.stream` that is in the array, or refuse it; a pass that waits leaves the state as it is. -/
def State.startPass (s : State) (c : Context) (r : Nat) (q : QEntry) : Option State :=
  match s.passCheck c r q with
  | .wait => none
  | .fault k => some (s.threadFault q.ctx q.thr r k)
  | .poison lane => some (s.bankFault q.ctx r lane)
  | .stream k n => some (s.streamFault q.ctx q.thr r k n)
  | .run a b use => some (s.runPass c r q a b use)

/-- MX_PASS_START: the array starts the `mx.stream` at the front of the queue (R143, R145). -/
def mxPassStart (r : Nat) (s : State) : State :=
  let s := s.mxPump r 64
  if (s.rill r).array.cur.isSome || decide ((s.rill r).array.phase ≠ .idle) || !s.running then s.wakeRill r
  else match (s.rill r).mxQ with
    | [] => s.wakeRill r
    | q :: _ =>
      match s.ctx? q.ctx with
      | none => s.wakeRill r
      | some c =>
        if q.op ≠ 2 ∨ s.lsPending q r = true ∨ s.vxAhead q r (immSet q.imm) = true then s.wakeRill r
        else match (s.popMx r).startPass c r q with
          | none => s.wakeRill r
          | some s => s.mxGo r

def execMxPassStart (rill : Nat) (s : State) : Host.Outcome State Fault Refusal := .next (if s.pwr.held then s else mxPassStart rill s)

/-! ## The end of a pass (R145, R148, R161, R164 to R167) -/

/-- Write the rows of the pass into its set; every entry of the set is written (R145, R147). -/
def MxArray.commit (a : MxArray) : MxArray :=
  { a.setAcc a.set (a.w.foldl (fun t x => putAcc t x.1 x.2) (a.acc a.set)) with
    badAcc := a.badAcc.filter (fun x => decide (x.1 ≠ a.set)) }

/-- Record an `mx.stream` with passes left first in the context's image (R167). -/
def Context.recordPass (c : Context) (q : QEntry) (n : Nat) : Context :=
  { c with mx := { q with imm := immWithDone q.imm n } :: c.mx }

/-- PASS_COMMITTED: the last row is written. -/
def passCommitted (r : Nat) (s : State) : State :=
  let a := (s.rill r).array
  match a.cur with
  | none => s
  | some q =>
    let s := ((s.setArray r a.commit.stop).addF (arCommitted r) 1).creditRill r 3 1
    match s.ctx? q.ctx with
    | none => s.mxGo r
    | some c =>
      if modePass c.mode ≤ a.passNo then s.mxGo r
      else if c.stopping then (s.setCtx q.ctx (c.recordPass q a.passNo)).mxGo r
      else
        let q := { q with imm := immWithDone q.imm a.passNo }
        match s.startPass c r q with
        | some s => s.mxGo r
        | none => (s.setRill r { s.rill r with mxQ := q :: (s.rill r).mxQ }).wakeRill r

def execPassCommitted (rill : Nat) (s : State) : Host.Outcome State Fault Refusal := .next (if s.pwr.held then s else passCommitted rill s)

/-- ARRAY_STOP_REQUEST: with more than 1,024 K-steps left the pass is abandoned and recorded, else it is finished
(R166, R167). -/
def arrayStopRequest (r n : Nat) (s : State) : State :=
  let a := (s.rill r).array
  match a.cur with
  | none => s
  | some q =>
    match s.ctx? q.ctx with
    | none => s
    | some c =>
      if n ≤ a.steps ∧ c.stopping = true then
        if a.steps - n ≤ 1024 then s.setArray r { a with done := n }
        else ((s.abandonPass r).setCtx q.ctx (c.recordPass q (a.passNo - 1))).mxGo r
      else s

def execArrayStopRequest (rill stepsDone : Nat) (s : State) : Host.Outcome State Fault Refusal :=
  .next (arrayStopRequest rill stepsDone s)

/-! ## Errors of the array (R164, R169, R178, R180, R181) -/

/-- Causes that CELL_CORRECTED may carry. -/
def arCorrectedCause (c : BitVec 8) : Cause :=
  if c = 2 then kArFeederCorrected else if c = 3 then kArAccCorrected else kArCellCorrected

def cellCorrected (r : Nat) (cause : BitVec 8) (s : State) : State :=
  (s.satF (arEccCorrected r) 1).raise (arCorrectedCause cause) r

def execCellCorrected (rill : Nat) (cause : BitVec 8) (s : State) : Host.Outcome State Fault Refusal :=
  .next (cellCorrected rill cause s)

/-- An uncorrectable error in a cell or a feeder: the pass is abandoned, its tile returned, and the self-check runs
before another pass starts. -/
def State.arrayError (s : State) (r : Nat) (k : Cause) : State :=
  let cur := (s.rill r).array.cur
  let w := match cur with
    | some q => s.aboutCtx q.ctx
    | none => {}
  let s := ((s.satF (arEccUncorrected r) 1).raise k r w).beginRecovery (.rill r) (k.flint r)
  let s := match cur with
    | some q => (s.abandonPass r).recoverCtx q.ctx
    | none => s
  (s.setArray r { (s.rill r).array with phase := .selfCheck }).mxGo r

def execCellUncorrected (rill : Nat) (s : State) : Host.Outcome State Fault Refusal :=
  .next (s.arrayError rill kArCellUncorrected)

def execFeederUncorrected (rill : Nat) (s : State) : Host.Outcome State Fault Refusal :=
  .next (s.arrayError rill kArFeederUncorrected)

/-- The self-check ends; a failed one disables the array and takes the rill out of service. -/
def arraySelfCheckDone (r : Nat) (passed : Bool) (s : State) : State :=
  let a := (s.rill r).array
  if a.phase = .selfCheck then
    let s := s.setArray r { a with phase := .idle }
    if passed then s.mxGo r
    else
      let s := (s.setF (arDisable r) 1).raise kArArrayHard r
      ((s.beginRecovery (.rill r) (kArArrayHard.flint r)).recoverRill r).outOfService r
  else if s.selfChecking && !passed then ((s.setF (arDisable r) 1).raise kArArrayHard r).outOfService r
  else s

def execArraySelfCheckDone (rill : Nat) (passed : Bool) (s : State) : Host.Outcome State Fault Refusal :=
  .next (arraySelfCheckDone rill passed s)

end Sys2Proof.Machine
end

