-- ==== Sys2Proof/Machine/Special.lean ====
section
/-! DEFINITION. The functions that the vector engine computes to within 2 ulp of FP32 (R194, R196, R197, R212), and
Spring (R208, R210).

Each function is evaluated in fixed point with 400 fraction bits, rounded to FP32, and then moved by the free value
`Config.ulpChoice` of at most 2 ulp (notes/assumptions/20.md). -/

namespace Sys2Proof.Machine

open Sys2Proof

/-! ## Fixed point with 400 fraction bits -/

def fixBits : Nat := 400

/-- One in fixed point. -/
def fixOne : Int := (2 ^ fixBits : Nat)

def fixMul (a b : Int) : Int := a * b / fixOne

def fixDiv (a b : Int) : Int := if b = 0 then 0 else a * fixOne / b

/-- Fixed-point reading of a finite value whose exponent is moderate. -/
def Val.toFix : Val → Int
  | .fin n m e =>
    let x : Int := truncTo m e (-(fixBits : Int))
    if n then -x else x
  | _ => 0

/-- The value of a fixed-point number. -/
def fixVal (x : Int) : Val := .fin (decide (x < 0)) x.natAbs (-(fixBits : Int))

/-- Sum of z^(2n+1) / (2n+1) for n from `n` on, `z2` being z². -/
def atanhGo (z2 : Int) : Nat → Nat → Int → Int
  | 0, _, _ => 0
  | f + 1, n, p => p / ((2 * n + 1 : Nat) : Int) + atanhGo z2 f (n + 1) (fixMul p z2)

/-- 2 atanh z, for |z| at most 1/3. -/
def ln1p (z : Int) : Int := 2 * atanhGo (fixMul z z) 140 0 z

/-- ln 2 = 2 atanh (1/3). -/
def ln2 : Int := ln1p (fixOne / 3)

/-- Alternating sum of z^(2n+1) / (2n+1). -/
def atanGo (z2 : Int) : Nat → Nat → Int → Int
  | 0, _, _ => 0
  | f + 1, n, p => p / ((2 * n + 1 : Nat) : Int) - atanGo z2 f (n + 1) (fixMul p z2)

/-- π by Machin's formula. -/
def fixPi : Int :=
  16 * atanGo (fixOne / 25) 100 0 (fixOne / 5) - 4 * atanGo (fixOne / 57121) 40 0 (fixOne / 239)

/-- Sum of x^n / n! from term `n` on. -/
def expGo (x : Int) : Nat → Nat → Int → Int
  | 0, _, _ => 0
  | f + 1, n, p => p + expGo x f (n + 1) (fixMul p x / ((n + 1 : Nat) : Int))

/-- e^x of a fixed-point number, clamped where FP32 has long overflowed or vanished. -/
def expV (x : Int) : Val :=
  if x > 1000 * fixOne then .fin false 1 2000
  else if x < -1000 * fixOne then .fin false 1 (-2000)
  else
    let k := x / ln2
    (fixVal (expGo (x - k * ln2) 110 0 fixOne)).scale k

/-- ln of a positive finite value. -/
def lnV (m : Nat) (e : Int) : Val :=
  let l : Int := Nat.log2 m
  let y : Int := truncTo m (-l) (-(fixBits : Int))
  fixVal ((l + e) * ln2 + ln1p (fixDiv (y - fixOne) (y + fixOne)))

/-- Σ (−1)^n x^(2n+s) / (2n+s)! : cosine for s = 0, sine for s = 1. -/
def trigGo (x2 : Int) : Nat → Nat → Int → Int
  | 0, _, _ => 0
  | f + 1, n, p => p - trigGo x2 f (n + 2) (fixMul p x2 / (((n + 1) * (n + 2) : Nat) : Int))

/-- Cosine and sine of π/2 × f for 0 ≤ f < 1 in fixed point. -/
def cosSinQ (f : Int) : Int × Int :=
  let x := fixMul (fixPi / 2) f
  (trigGo (fixMul x x) 70 0 fixOne, trigGo (fixMul x x) 70 1 x)

/-- Cosine and sine of 2π u / 2^24. -/
def cosSin (u : Nat) : Int × Int :=
  let cs := cosSinQ (((u % 2 ^ 22 : Nat) : Int) * (2 ^ (fixBits - 22) : Nat))
  match u / 2 ^ 22 % 4 with
  | 0 => (cs.1, cs.2)
  | 1 => (-cs.2, cs.1)
  | 2 => (-cs.1, -cs.2)
  | _ => (cs.2, -cs.1)

/-! ## The result in FP32, within 2 ulp (R196) -/

/-- FP32 pattern moved by a number of ulp along the line of values. -/
def moveUlp (x : Nat) (d : Int) : Nat :=
  let o : Int := if bit x 31 then -((x % 2 ^ 31 : Nat) : Int) else ((x % 2 ^ 31 : Nat) : Int)
  let o := max (-0x7F800000) (min 0x7F800000 (o + d))
  if o < 0 ∨ (o = 0 ∧ bit x 31 = true) then 2 ^ 31 + o.natAbs else o.natAbs

/-- The 2 ulp result of a function for its sources. -/
def within2 (fn : Nat) (a b : Nat) (v : Val) : Val :=
  let x := (fp32.round .rne false v).1
  let d : Int := ((Config.ulpChoice fn (BitVec.ofNat 32 a) (BitVec.ofNat 32 b) % 5 : Nat) : Int) - 2
  fp32.decode (moveUlp x d)

/-- sigmoid of a fixed-point number. -/
def sigmoidFix (x : Int) : Val :=
  let e := expV (-x)
  (divV (.fin false 1 0) (addV (.fin false 1 0) e).1).1

/-- A finite value as a fixed-point number, held within ±2000 (beyond which the functions below have reached their
limits in FP32). -/
def Val.argFix (v : Val) : Int :=
  match v with
  | .fin n m e =>
    if m ≠ 0 ∧ 11 ≤ v.exp then (if n then -2000 * fixOne else 2000 * fixOne) else (Val.fin n m e).toFix
  | _ => 0

/-- x × sigmoid(t). -/
def timesSigmoid (x : Val) (t : Int) : Val := (mulV x (sigmoidFix t)).1

/-- 2 × 0.7978845608 × (x + 0.044715 x³), the argument of GELU's sigmoid form. -/
def geluArg (x : Val) : Int :=
  if x.exp ≥ 11 ∧ !x.isZero then x.argFix
  else
    let f := x.toFix
    let c := fixMul (fixMul f f) f
    2 * 7978845608 * (f + c * 44715 / 1000000) / 10000000000

/-- tanh of a finite value: (e^2x − 1) ÷ (e^2x + 1). -/
def tanhVal (x : Val) : Val :=
  if x.isZero then x
  else
    let e := expV (2 * x.argFix)
    (divV (subV e (.fin false 1 0)).1 (addV e (.fin false 1 0)).1).1

/-- The exact (to 400 bits) value of functions 0x11 to 0x18 on a source that is not NaN, with its flags (R197). -/
def specialFn (fn : Nat) (x : Val) : Val × Flags :=
  match fn, x with
  | 0x11, .inf n => (if n then .fin true 0 0 else .inf false, {})
  | 0x12, .inf n => (if n then .fin true 0 0 else .inf false, {})
  | 0x13, .inf n => (if n then .fin false 0 0 else .fin false 1 0, {})
  | 0x14, .inf n => (.fin n 1 0, {})
  | 0x15, .inf n => (if n then .fin false 0 0 else .inf false, {})
  | 0x16, .inf n => if n then (.nan, { nv := true }) else (.inf false, {})
  | 0x17, .inf n => if n then (.nan, { nv := true }) else (.fin false 0 0, {})
  | 0x18, .inf n => (.fin n 0 0, {})
  | 0x11, v => (timesSigmoid v (geluArg v), {})
  | 0x12, v => (timesSigmoid v v.argFix, {})
  | 0x13, v => (sigmoidFix v.argFix, {})
  | 0x14, v => (tanhVal v, {})
  | 0x15, v => (expV v.argFix, {})
  | 0x16, .fin n m e => if m = 0 then (.inf true, {}) else if n then (.nan, { nv := true }) else (lnV m e, {})
  | 0x17, .fin n m e =>
    if m = 0 then (.inf n, {}) else if n then (.nan, { nv := true })
    else ((divV (.fin false 1 0) (sqrtV (.fin false m e)).1).1, {})
  | 0x18, .fin n m e => if m = 0 then (.inf n, {}) else ((divV (.fin false 1 0) (.fin n m e)).1, {})
  | _, v => (v, {})

/-- A function of R194 within 2 ulp; `a` is the raw source. -/
def special2 (fn a : Nat) (x : Val) : Val × Flags :=
  let (v, f) := specialFn fn x
  match v, x with
  | .fin n m e, .fin _ _ _ => (within2 fn a 0 (.fin n m e), f)
  | v, _ => (v, f)

/-! ## Spring (R208, R210) -/

def rotl32 (x : W32) (n : Nat) : W32 := x.rotateLeft n

/-- State of a Spring round: x[0..3] and the key halves. -/
structure SpringSt where
  x0 : W32
  x1 : W32
  x2 : W32
  x3 : W32
  ka : W32
  kb : W32
  deriving DecidableEq, Repr

/-- One round of Spring. -/
def springRound (q : SpringSt) : SpringSt :=
  let m := q.x1 * 0x8b3e6d47
  let n := q.x3 * 0x5c9a13f1
  let x0 := rotl32 (q.x0 ^^^ n) 11 + q.x2
  let x2 := rotl32 (q.x2 ^^^ m) 19 + x0
  let x1 := q.x1 + (rotl32 x0 7 ^^^ q.ka)
  let x3 := q.x3 + (rotl32 x2 25 ^^^ q.kb)
  { x0 := x0, x1 := x1, x2 := x2, x3 := x3, ka := rotl32 q.ka 5 + 0x47a1d935, kb := rotl32 q.kb 13 + 0x0e2b8c5d }

def springRounds : Nat → SpringSt → SpringSt
  | 0, q => q
  | n + 1, q => springRounds n (springRound q)

/-- The 128-bit output for a counter and key, as its four words (R208). -/
def spring (c0 c1 c2 c3 : W32) (k : W64) : List W32 :=
  let ka := k.extractLsb' 0 32
  let kb := k.extractLsb' 32 32
  let q := springRounds 10 { x0 := c0 ^^^ ka, x1 := c1 ^^^ kb, x2 := c2 + ka, x3 := c3 + kb, ka := ka, kb := kb }
  [q.x0, q.x1, q.x2, q.x3]

/-- Word `i` of group `n` of the stream of a Spring block and key (R210). -/
def springWord (base : W64) (salt : W32) (k : W64) (n i : Nat) : W32 :=
  (spring (BitVec.ofNat 32 n) salt (base.extractLsb' 0 32) (base.extractLsb' 32 32) k).getD i 0

/-- The 16 bits that element `e` takes (R210). -/
def draw16 (base : W64) (salt : W32) (k : W64) (e : Nat) : Nat :=
  (springWord base salt k (e / 8) (e % 8 / 2)).toNat / 2 ^ (16 * (e % 2)) % 65536

/-- The 32 bits that element `e` takes (R210). -/
def draw32 (base : W64) (salt : W32) (k : W64) (e : Nat) : Nat := (springWord base salt k (e / 4) (e % 4)).toNat

/-- A normal draw from a pair of words: its exact value for the cosine or the sine (R212). -/
def normalVal (w0 w1 : Nat) (sine : Bool) : Val :=
  let u1 := w0 / 256 + 1
  let l := (lnV u1 (-24)).flip.scale 1
  let r := (sqrtV l).1
  let cs := cosSin (w1 / 256)
  (mulV r (fixVal (if sine then cs.2 else cs.1))).1

end Sys2Proof.Machine
end

