-- ==== Sys2Proof/Machine/VxArith.lean ====
section
/-! DEFINITION. Element arithmetic of the vector engine: `vx.ew`, `vx.fma`, `vx.cvt`, `vx.red`, `vx.opt` and `vx.rng`
(R193 to R201, R206, R207, R212, R214). -/

namespace Sys2Proof.Machine

open Sys2Proof

/-! ## `vx.ew` (R194 to R197, R214) -/

/-- FUNC is listed (R194). -/
def ewListed (f : Nat) : Bool := decide (f ≤ 0x0C ∨ (0x10 ≤ f ∧ f ≤ 0x19) ∨ f = 0x20)

/-- FUNC reads src2. -/
def ewBinary (f : Nat) : Bool := [0x01, 0x02, 0x03, 0x04, 0x05, 0x0A, 0x0C, 0x19].contains f

/-- FUNC takes INT32 elements. -/
def ewInt (f : Nat) : Bool := decide (f ≤ 0x0C ∨ f = 0x10)

/-- An INT32 function on integers, before saturation; `c` is the constant. -/
def ewIntOp (f : Nat) (a b c : Int) : Int :=
  match f with
  | 0x01 => a + b
  | 0x02 => a - b
  | 0x03 => a * b
  | 0x04 => if a < b then b else a
  | 0x05 => if b < a then b else a
  | 0x06 => a + c
  | 0x07 => a * c
  | 0x08 => (a.natAbs : Int)
  | 0x09 => -a
  | 0x0A => if b < a then 1 else 0
  | 0x0B => if c < a then 1 else 0
  | 0x0C => if a = b then 1 else 0
  | 0x10 => if 0 < a then a else 0
  | _ => a

/-- The constants 1 and +0. -/
def oneV : Val := .fin false 1 0
def zeroV : Val := .fin false 0 0

/-- A comparison's result. -/
def boolV (b : Bool) : Val := if b then oneV else zeroV

/-- Functions 0x01 to 0x0C and RELU on values, exact (R196, R197). -/
def ewExact (f : Nat) (a b c : Val) : Val × Flags :=
  match f with
  | 0x01 => addV a b
  | 0x02 => subV a b
  | 0x03 => mulV a b
  | 0x04 => (if a.isNan || b.isNan then .nan else if ltV a b then b else a, {})
  | 0x05 => (if a.isNan || b.isNan then .nan else if ltV b a then b else a, {})
  | 0x06 => addV a c
  | 0x07 => mulV a c
  | 0x0A => (boolV (ltV b a), {})
  | 0x0B => (boolV (ltV c a), {})
  | 0x0C => (boolV (eqV a b), {})
  | _ => (if a.isNan then .nan else if ltV zeroV a then a else zeroV, {})

/-- s = 65,536 ÷ (65,536 − P), rounded with RNE to FP32 (R214). -/
def dropScale (p : Nat) : Val :=
  fp32.decode (fp32.round .rne false (divV (.fin false 65536 0) (.fin false (65536 - p) 0)).1).1

/-- One element of `vx.ew` in a float format. -/
def ewFloat (f fmt : Nat) (denorm : Bool) (c draw x y : Nat) : Nat × Flags :=
  let top := 2 ^ (fmtBits fmt - 1)
  if f = 0x00 then (x, {})
  else if f = 0x08 then (x % top, {})
  else if f = 0x09 then ((x + top) % (2 * top), {})
  else if f = 0x20 ∧ draw < c then (0, {})
  else
    let a := readElem fmt denorm x
    let b := if ewBinary f then readElem fmt denorm y else (zeroV, {})
    let k := if f = 0x06 ∨ f = 0x07 ∨ f = 0x0B then readElem 0x2 denorm c else (zeroV, {})
    let v : Val × Flags :=
      if f = 0x20 then mulV a.1 (dropScale c)
      else if f = 0x19 then
        if a.1.isNan || b.1.isNan then (.nan, {})
        else let z := special2 0x12 x a.1; let w := mulV z.1 b.1; (w.1, z.2.or w.2)
      else if 0x11 ≤ f then (if a.1.isNan then (.nan, {}) else special2 f x a.1)
      else ewExact f a.1 b.1 k.1
    let e := roundElem fmt .rne denorm v.1
    (e.1, (((a.2.or b.2).or k.2).or v.2).or e.2)

/-- One element of `vx.ew`. -/
def ewElem (f fmt : Nat) (denorm : Bool) (c draw x y : Nat) : Nat × Flags :=
  if fmt = 0xD then satInt 32 (ewIntOp f (toSigned 32 x) (toSigned 32 y) (toSigned 16 c))
  else ewFloat f fmt denorm c draw x y

/-! ## `vx.fma` (R198) -/

def fmaElem (fmt : Nat) (denorm : Bool) (x y z : Nat) : Nat × Flags :=
  if fmt = 0xD then satInt 32 (toSigned 32 x * toSigned 32 y + toSigned 32 z)
  else
    let a := readElem fmt denorm x
    let b := readElem fmt denorm y
    let d := readElem fmt denorm z
    let m := mulV a.1 b.1
    let v := addV m.1 d.1
    let e := roundElem fmt .rne denorm v.1
    (e.1, ((((a.2.or b.2).or d.2).or m.2).or v.2).or e.2)

/-! ## `vx.cvt` (R77 to R80, R199) -/

/-- A stored element as a source value. -/
def sourceVal (fmt : Nat) (denorm : Bool) (raw scale : Nat) : Val × Flags :=
  let v := readElem fmt denorm raw
  (if isMx fmt then scaled v.1 scale else v.1, v.2)

/-- One element into a format that is not MX. -/
def cvtElem (sf df rnd : Nat) (denorm : Bool) (draw raw scale : Nat) : Nat × Flags :=
  if sf = df then (raw, {})
  else
    let v := sourceVal sf denorm raw scale
    let e := roundElem df (modeAt rnd [draw] 0) denorm v.1
    (e.1, v.2.or e.2)

/-! ## `vx.red` (R200, R201) -/

/-- One step of MAX or MIN over values that are not NaN: the first of equal extremes stays. -/
def extreme (max : Bool) (a b : Val) : Val := if (if max then ltV a b else ltV b a) then b else a

/-- Position of the largest of a list, or of its first NaN. -/
def argmaxGo : List Val → Nat → Nat → Val → Nat
  | [], _, best, _ => best
  | v :: t, i, best, bv => if v.isNan then i else if ltV bv v then argmaxGo t (i + 1) i v else argmaxGo t (i + 1) best bv

def argmax : List Val → Nat
  | [] => 0
  | v :: t => if v.isNan then 0 else argmaxGo t 1 0 v

/-- The terms of SUM, SUMSQ and SUMABS. -/
def redTerm (rop : Nat) (v : Val) : Val := if rop = 3 then (mulV v v).1 else if rop = 5 then v.abs else v

/-- A sum over a float source: groups of 16 into an FP32 accumulator, rounded once to the destination. -/
def redSum (df : Nat) (denorm : Bool) (init : Option Nat) (ts : List Val) : Nat × Flags :=
  let st : Nat × Flags := match init with
    | none => (0, {})
    | some x => if df = 0 then (x, {})
      else let v := readElem df denorm x; ((fp32.round .rne false v.1).1, v.2)
  let g := addGroups denorm 16 st.1 (ts.map (fun v => ⟨v, v.isNan⟩))
  if df = 0 then (g.1, st.2.or g.2)
  else
    let e := roundElem df .rne denorm (fp32.decode g.1)
    (e.1, (st.2.or g.2).or e.2)

/-- A sum over an INT32 source. -/
def redSumInt (df : Nat) (denorm : Bool) (init : Option Nat) (ts : List Int) : Nat × Flags :=
  let n := ts.sum
  if df = 0xD then satInt 32 (n + (match init with | some x => toSigned 32 x | none => 0))
  else
    let v : Val × Flags := match init with
      | some x => let a := readElem df denorm x; let r := addV a.1 (intVal n); (r.1, a.2.or r.2)
      | none => (intVal n, {})
    let e := roundElem df .rne denorm v.1
    (e.1, v.2.or e.2)

/-- One result of `vx.red` from the elements along the axis, in ascending position. -/
def redElem (rop sf df : Nat) (denorm : Bool) (init : Option Nat) (xs : List Nat) : Nat × Flags :=
  let vs := xs.map (readElem sf denorm)
  let fl := vs.foldl (fun (f : Flags) v => f.or v.2) {}
  match rop with
  | 4 => (argmax (vs.map (fun v => v.1)), fl)
  | 1 | 2 =>
    let st := match init with
      | some x => [readElem df denorm x]
      | none => []
    let all := (st ++ vs).map (fun v => v.1)
    let v := if all.any Val.isNan then Val.nan else (all.drop 1).foldl (extreme (decide (rop = 1))) (all.headD zeroV)
    let e := roundElem df .rne denorm v
    (e.1, (st.foldl (fun (f : Flags) v => f.or v.2) fl).or e.2)
  | _ =>
    let r := if sf = 0xD then
        redSumInt df denorm init (xs.map (fun x =>
          let i := toSigned 32 x
          if rop = 3 then i * i else if rop = 5 then (i.natAbs : Int) else i))
      else redSum df denorm init (vs.map (fun v => redTerm rop v.1))
    let nv : Flags := {}
    (r.1, (fl.or nv).or r.2)

/-! ## `vx.opt` (R205 to R207) -/

/-- An FP32 operation with RNE on FP32 patterns. -/
def op32 (denorm : Bool) (f : Val → Val → Val × Flags) (x y : Nat × Flags) : Nat × Flags :=
  let a := fp32.flushIn denorm x.1
  let b := fp32.flushIn denorm y.1
  let v := f a.1 b.1
  let e := fp32.round .rne denorm v.1
  (e.1, ((((x.2.or y.2).or a.2).or b.2).or v.2).or e.2)

/-- Hyperparameter `i` of the 32 bytes of R205: 0 LR, 1 BETA1, 2 BETA2, 3 EPS, 4 WD, 5 C1, 6 C2, 7 GSCALE. -/
def hyperOf (h : BitVec 256) (i : Nat) : Nat × Flags := (bits h.toNat (32 * i) 32, {})

/-- What one element of `vx.opt` gives: the new parameter in FP32, m, v, and g after GSCALE; then flags. -/
structure OptOut where
  w : Nat
  m : Nat
  v : Nat
  g : Nat
  fl : Flags
  deriving DecidableEq, Repr

/-- One element of `vx.opt`, on FP32 patterns. -/
def optElem (adam denorm : Bool) (h : BitVec 256) (w grad m v : Nat) : OptOut :=
  let mul := op32 denorm mulV
  let add := op32 denorm addV
  let sub := op32 denorm subV
  let p := fun (x : Nat) => ((x, {}) : Nat × Flags)
  let one := p 0x3F800000
  let lr := hyperOf h 0
  let b1 := hyperOf h 1
  let b2 := hyperOf h 2
  let wd := hyperOf h 4
  let g := mul (p grad) (hyperOf h 7)
  if adam then
    let m' := add (mul b1 (p m)) (mul (sub one b1) g)
    let v' := add (mul b2 (p v)) (mul (mul (sub one b2) g) g)
    let den := add (op32 denorm (fun a _ => sqrtV a) (mul v' (hyperOf h 6)) (p 0)) (hyperOf h 3)
    let u := op32 denorm divV (mul m' (hyperOf h 5)) den
    let w' := sub (p w) (mul lr (add u (mul wd (p w))))
    { w := w'.1, m := m'.1, v := v'.1, g := g.1, fl := (w'.2.or m'.2).or v'.2 }
  else
    let g2 := add g (mul wd (p w))
    let m' := add (mul b1 (p m)) g2
    let w' := sub (p w) (mul lr m')
    { w := w'.1, m := m'.1, v := v, g := g.1, fl := w'.2.or m'.2 }

/-! ## `vx.rng` (R212) -/

/-- Element `e` of a draw in a format. -/
def rngElem (dist c fmt : Nat) (base : W64) (salt : W32) (key : W64) (e : Nat) : Nat × Flags :=
  let w := draw32 base salt key e
  match dist with
  | 0 => (w, {})
  | 1 => roundElem fmt .rne false (.fin false (w / 256) (-24))
  | 2 =>
    let w0 := draw32 base salt key (e / 2 * 2)
    let w1 := draw32 base salt key (e / 2 * 2 + 1)
    let sine := decide (e % 2 = 1)
    roundElem fmt .rne false (within2 (if sine then 0x41 else 0x40) w0 w1 (normalVal w0 w1 sine))
  | _ => roundElem fmt .rne false (boolV (decide (c ≤ w / 65536)))

end Sys2Proof.Machine
end

