-- ==== Sys2Proof/Machine/Vector.lean ====
section
/-! DEFINITION. The vector class and the events of the vector engine (R102, R103, R182 to R218, R226, R227, R271, R272,
R430), with the two events whose reader may be a running vector instruction (R181, R241). -/

namespace Sys2Proof.Machine

open Sys2Proof

/-! ## Issue (R94, R102, R187) -/

/-- Room for one more entry (R103). -/
def Rill.vxRoom (v : Rill) : Bool := decide (v.vxQ.length + b2n v.vector.cur.isSome < 8)

/-- Put a VX instruction into the queue, or wait for room. -/
def State.vxIssue (s : State) (x : Issue) (op : Nat) (illegal : Bool) : State :=
  s.issue x ⟨illegal || x.i, x.regs, false⟩ (fun s k t r c h =>
    let v := s.rill r
    if v.vxRoom then
      let q : QEntry := { ctx := k, thr := t, op := op, d := h.reg x.rd, a := h.reg x.ra, b := h.reg x.rb, imm := x.imm,
                          order := v.order }
      (s.setCtx k (c.setThread t h.advance)).setRill r { v with vxQ := v.vxQ ++ [q], order := v.order + 1 }
    else s.setCtx k (c.setThread t { h with st := .waitQueue, wait := .vxRoom }))

/-- Bits [lo + w − 1 : lo] of the IMM are 0. -/
def immZero (x : Issue) (lo w : Nat) : Bool := decide (bits x.imm.toNat lo w = 0)

def execVxEw (x : Issue) (s : State) : Host.Outcome State Fault Refusal :=
  .next (s.vxIssue x 0 (!immZero x 9 7 || !ewListed (bits x.imm.toNat 0 8) ||
    (!ewBinary (bits x.imm.toNat 0 8) && decide (x.rb ≠ 0))))
def execVxFma (x : Issue) (s : State) : Host.Outcome State Fault Refusal :=
  .next (s.vxIssue x 1 (!immZero x 0 8 || !immZero x 9 23))
def execVxCvt (x : Issue) (s : State) : Host.Outcome State Fault Refusal :=
  .next (s.vxIssue x 2 (!immZero x 3 29 || decide (bits x.imm.toNat 0 2 = 3 ∨ x.rb ≠ 0)))
def execVxRed (x : Issue) (s : State) : Host.Outcome State Fault Refusal :=
  .next (s.vxIssue x 3 (!immZero x 5 3 || !immZero x 9 23 || decide (5 < bits x.imm.toNat 1 3 ∨ x.rb ≠ 0) ||
    (decide (bits x.imm.toNat 1 3 = 4) && bit x.imm.toNat 4)))
def execVxCompress (x : Issue) (s : State) : Host.Outcome State Fault Refusal :=
  .next (s.vxIssue x 4 (!immZero x 3 1 || !immZero x 24 8))
def execVxExpand (x : Issue) (s : State) : Host.Outcome State Fault Refusal :=
  .next (s.vxIssue x 5 (!immZero x 2 2 || !immZero x 24 8))
def execVxRng (x : Issue) (s : State) : Host.Outcome State Fault Refusal :=
  .next (s.vxIssue x 6 (!immZero x 2 14 || decide (x.ra ≠ 0 ∨ x.rb ≠ 0)))
def execVxOpt (x : Issue) (s : State) : Host.Outcome State Fault Refusal :=
  .next (s.vxIssue x 7 (!immZero x 4 4 || !immZero x 9 23 || decide (1 < bits x.imm.toNat 0 2)))

/-! ## Checks at the start (R110, R183, R185 to R189, R195, R199, R200, R202, R205, R206, R209, R212) -/

/-- What stands in the way of a VX instruction, or the engine as it starts. -/
inductive VxCheck where
  | run (v : VxEngine)
  | fault (k : Cause)
  | poison (lane : Nat)
  | stream (k : Cause) (n : Nat)
  | wait
  deriving DecidableEq, Repr

def qFunc (q : QEntry) : Nat := bits q.imm.toNat 0 8
def qConst (q : QEntry) : Nat := bits q.imm.toNat 16 16

/-- The instruction draws from Spring through the block at s[RD] + 32. -/
def QEntry.draws (q : QEntry) : Bool :=
  match q.op with
  | 0 => decide (qFunc q = 0x20)
  | 2 => decide (bits q.imm.toNat 0 2 = 2)
  | 6 => true
  | 7 => bit q.imm.toNat 3
  | _ => false

/-- The instruction has a src1 tile, and a second tile at s[RB]. -/
def QEntry.hasA (q : QEntry) : Bool := decide (q.op ≠ 6)
def QEntry.hasB (q : QEntry) : Bool :=
  match q.op with
  | 0 => ewBinary (qFunc q)
  | 1 | 4 | 5 | 7 => true
  | _ => false

/-- An accumulator tile has FMT FP32 or INT32 (R185). -/
def accFmtOk (t : BitVec 256) : Bool := decide (tSpace t < 2) || decide (tFmt t = 0x0 ∨ tFmt t = 0xD)

/-- Same ROWS and COLS. -/
def sameShape (a b : BitVec 256) : Bool := decide (tRows a = tRows b ∧ tCols a = tCols b)

/-- Broadcast down the rows, or along each row (R186). -/
def bcastDown (t cnt : BitVec 256) : Bool :=
  decide (tRows t = 1 ∧ 1 < tRows cnt ∧ tCols t = tCols cnt ∧ packedLen (tFmt t) (tCols t) ≤ 16384)
def bcastAlong (t cnt : BitVec 256) : Bool := decide (tCols t = 1 ∧ 1 < tCols cnt ∧ tRows t = tRows cnt)

/-- A source agrees with the counting tile. -/
def agrees (t cnt : BitVec 256) : Bool := sameShape t cnt || bcastDown t cnt || bcastAlong t cnt

/-- FMTs of element-wise arithmetic. -/
def vecFloat (f : Nat) : Bool := decide (f = 0x0 ∨ f = 0x2 ∨ f = 0x3)

/-- Formats and shapes of an operation: destination, src1, second tile. -/
def vxShapeOk (q : QEntry) (d a b : BitVec 256) : Bool :=
  match q.op with
  | 0 =>
    decide (tFmt a = tFmt d) && (!ewBinary (qFunc q) || decide (tFmt b = tFmt d)) &&
    (vecFloat (tFmt d) || (decide (tFmt d = 0xD) && ewInt (qFunc q))) &&
    agrees a d && (!ewBinary (qFunc q) || agrees b d)
  | 1 =>
    decide (tFmt a = tFmt d ∧ tFmt b = tFmt d) && (vecFloat (tFmt d) || decide (tFmt d = 0xD)) && agrees a d && agrees b d
  | 2 => agrees a d
  | 3 =>
    (vecFloat (tFmt a) || decide (tFmt a = 0xD)) &&
    (if bits q.imm.toNat 1 3 = 4 then decide (tFmt d = 0xD) else decide (tFmt d = tFmt a ∨ tFmt d = 0x0)) &&
    (if bit q.imm.toNat 0 then decide (tRows d = 1 ∧ tCols d = tCols a) else decide (tRows d = tRows a ∧ tCols d = 1))
  | 4 =>
    !isMx (tFmt d) && !isMx (tFmt b) && decide (tFmt a = tFmt d) && sameShape b a &&
    decide (tRows a * tCols a ≤ tRows d * tCols d) && (!bit q.imm.toNat 0 || decide (tRows d = tRows a))
  | 5 =>
    !isMx (tFmt d) && !isMx (tFmt b) && decide (tFmt a = tFmt d) && sameShape b d &&
    (!bit q.imm.toNat 0 || decide (tRows a = tRows d))
  | 6 =>
    (match bits q.imm.toNat 0 2 with
      | 0 => decide (tFmt d = 0xD)
      | 3 => vecFloat (tFmt d) || decide (tFmt d = 0xD)
      | _ => vecFloat (tFmt d))
  | _ =>
    vecFloat (tFmt d) && vecFloat (tFmt a) && decide (tFmt b = 0x0) && sameShape a d &&
    decide (tRows b = tRows d ∧ tCols b = (if bits q.imm.toNat 0 2 = 1 then 2 * tCols d else tCols d))

/-- Entry of an accumulator tile's element (R185, R677). -/
def accIndex (mode : BitVec 32) (t : BitVec 256) (i j : Nat) : Nat :=
  if tTrans t then j * shapeCols (modeShape mode) + i else i * shapeCols (modeShape mode) + j

/-- Two ranges overlap. -/
def rangesMeet (x y : Nat × Nat) : Bool := decide (x.1 < y.1 + y.2 ∧ y.1 < x.1 + x.2)

/-- Two tiles share a byte or an entry (R189). -/
def tilesShare (mode : BitVec 32) (t u : BitVec 256) : Bool :=
  if tSpace t ≠ tSpace u then false
  else if tSpace t = 0 then
    (tRanges t).any (fun x => (tRanges u).any (fun y => rangesMeet (tAddr t + x.1, x.2) (tAddr u + y.1, y.2)))
  else
    let es := (List.range (tRows u)).flatMap (fun i => (List.range (tCols u)).map (fun j => accIndex mode u i j))
    (List.range (tRows t)).any (fun i => (List.range (tCols t)).any (fun j => es.contains (accIndex mode t i j)))

/-- The overlap rule of R189. -/
def overlapOk (q : QEntry) (mode : BitVec 32) (d a b : BitVec 256) : Bool :=
  match q.op with
  | 3 => !tilesShare mode d a
  | 4 | 5 => !tilesShare mode d a && !tilesShare mode d b
  | 7 => !tilesShare mode d a && !tilesShare mode d b && !tilesShare mode b a
  | _ => true

/-- The counting tile (R183). -/
def countTile (op : Nat) (d a : BitVec 256) : BitVec 256 := if op = 3 ∨ op = 4 then a else d

/-- An operand makes beats of 256 elements: a 32-bit element or an accumulator tile (R183). -/
def narrowBeat (t : BitVec 256) : Bool := decide (2 ≤ tSpace t) || decide (fmtBits (tFmt t) = 32)

/-- Bytes of the count area of `vx.compress` (R203), from its region offset. -/
def countArea (q : QEntry) (a : BitVec 256) : Nat × Nat :=
  (16 * bits q.imm.toNat 4 20, if q.op = 4 ∧ bit q.imm.toNat 2 = true then 4 * (if bit q.imm.toNat 0 then tRows a else 1) else 0)

/-- A stream that an instruction takes its key or hyperparameters from. -/
inductive Need where
  | none
  | ok (e : BitVec 1024) (held : List Nat)
  | no (c : VxCheck)
  deriving DecidableEq, Repr

/-- Read an entry for a use, the tile having SV = 1 (R187, R263). -/
def State.needStream (s : State) (k r : Nat) (want : Bool) (t : BitVec 256) (u : StreamUse) : Need :=
  if !want then .none
  else if !tSv t then .no (.fault kRlIllegalOperand)
  else match s.useStream (r / 16) (keyPart k) (tStream t) u with
    | .missing _ => .no .wait
    | .failed c n => .no (.stream c n)
    | .ok _ e held => .ok e held

/-- A descriptor of a VX instruction: by R110, and owned when it names an accumulator (R99). -/
def State.vxDesc (s : State) (c : Context) (k r off : Nat) : Except VxCheck (BitVec 256) :=
  match s.readDesc c r off false with
  | .bad => .error (.fault kRlBadDescriptor)
  | .poisoned lane => .error (.poison lane)
  | .ok t => if 2 ≤ tSpace t ∧ (s.rill r).array.owner ≠ some k then .error (.fault kRlNotOwner) else .ok t

/-- A descriptor, or zero for an operand that the instruction lacks. -/
def State.vxDescIf (s : State) (want : Bool) (c : Context) (k r off : Nat) : Except VxCheck (BitVec 256) :=
  if want then s.vxDesc c k r off else .ok 0

/-- An earlier `mx.stream` or `mx.init` of the context into a set that a descriptor names (R114, R151). -/
def State.mxAhead (s : State) (q : QEntry) (r : Nat) (t : BitVec 256) : Bool :=
  let v := s.rill r
  let a := tSpace t - 2
  decide (2 ≤ tSpace t) &&
    (v.mxQ.any (fun x => decide (x.ctx = q.ctx ∧ x.order < q.order ∧ (x.op = 2 ∨ x.op = 3) ∧ immSet x.imm = a)) ||
     v.array.cur.any (fun x => decide (x.ctx = q.ctx ∧ x.order < q.order ∧ v.array.set = a)))

/-- Encoding of an element of an operand, with its scale byte above bit 16 in an MX format. -/
def State.vxRaw (s : State) (c : Context) (r : Nat) (t : BitVec 256) (i j : Nat) : Nat :=
  if 2 ≤ tSpace t then (((s.rill r).array.acc (tSpace t - 2)).getD (accIndex c.mode t i j) 0).toNat
  else
    let base := spadBase r + c.regionBase + tAddr t
    tileRaw s.mem.cells base t i j + (if isMx (tFmt t) then (tileScale s.mem.cells base t i j) * 2 ^ 16 else 0)

/-- The elements of a source that is broadcast down the rows, read into the broadcast buffer (R186). -/
def State.bcastOf (s : State) (c : Context) (r : Nat) (t cnt : BitVec 256) : List W32 :=
  if bcastDown t cnt then (List.range (tCols t)).map (fun j => BitVec.ofNat 32 (s.vxRaw c r t 0 j)) else []

/-- What stops a read of a vector instruction. -/
inductive VxStop where
  | lane (n : Nat)
  | acc
  deriving DecidableEq, Repr

/-- What a read of element (i, j) of a tile meets: a poisoned lane, or an uncorrectable entry. -/
def State.vxBad (s : State) (c : Context) (r : Nat) (t : BitVec 256) (i j : Nat) : Option VxStop :=
  let v := s.rill r
  if 2 ≤ tSpace t then
    (if v.array.badAcc.contains (tSpace t - 2, accIndex c.mode t i j) then some .acc else none)
  else if v.poison.isEmpty then none
  else
    let e := elemAt t i j
    match s.poisonAt r (c.regionBase + tAddr t + e.1) e.2.2 with
    | some l => some (.lane l)
    | none =>
      if isMx (tFmt t) then (s.poisonAt r (c.regionBase + tAddr t + scaleAt t i j) 1).map VxStop.lane else none

/-- A poisoned lane in the bytes that an instruction reads when it starts: its Spring block, the hyperparameters of its
record, its broadcast sources (R188). -/
def State.startPoison (s : State) (c : Context) (r : Nat) (q : QEntry) (a b cnt : BitVec 256) : Option Nat :=
  let rd := fun (want : Bool) (off n : Nat) => if want then s.poisonAt r (c.regionBase + off) n else none
  [rd q.draws (q.d.toNat + 32) 32, rd (decide (q.op = 7) && !bit q.imm.toNat 2) (q.b.toNat + 32) 32,
   rd (decide (q.op ≤ 2) && bcastDown a cnt && decide (tSpace a = 0)) (tAddr a) (tRowBytes a),
   rd (decide (q.op ≤ 1) && bcastDown b cnt && decide (tSpace b = 0)) (tAddr b) (tRowBytes b)].findSome? id

/-- All checks of the start of a VX instruction, and the engine as it then runs. -/
def State.vxCheck (s : State) (c : Context) (r : Nat) (q : QEntry) : VxCheck :=
  match s.vxDesc c q.ctx r q.d.toNat with
  | .error e => e
  | .ok d =>
    match s.vxDescIf q.hasA c q.ctx r q.a.toNat with
    | .error e => e
    | .ok a =>
      match s.vxDescIf q.hasB c q.ctx r q.b.toNat with
      | .error e => e
      | .ok b =>
        let cnt := countTile q.op d a
        let wide := !(narrowBeat d || (q.hasA && narrowBeat a) || (q.hasB && narrowBeat b))
        let w := if wide then 512 else 256
        let beats := (tRows cnt * tCols cnt + w - 1) / w
        let area := countArea q a
        let sb := BitVec.ofNat 256 (s.regionLe c (q.d.toNat + 32) 32)
        let ok := accFmtOk d && accFmtOk a && accFmtOk b && vxShapeOk q d a b && decide (beats ≤ 512) &&
          overlapOk q c.mode d a b &&
          (!q.draws || (decide (q.d.toNat + 64 ≤ c.regionLen) && sbOk sb)) &&
          (decide (q.op ≠ 7) || decide (q.b.toNat + 64 ≤ c.regionLen)) &&
          (decide (area.2 = 0) || decide (area.1 + area.2 ≤ c.regionLen))
        if !ok then .fault kRlIllegalOperand
        else match s.needStream q.ctx r (q.draws && sbSrc sb) d .spring with
          | .no x => x
          | n1 =>
            match s.needStream q.ctx r (decide (q.op = 7) && bit q.imm.toNat 2) a .opt with
            | .no x => x
            | n2 =>
              if s.mxAhead q r d || s.mxAhead q r a || s.mxAhead q r b then .wait
              else match s.startPoison c r q a b cnt with
                | some lane => .poison lane
                | none =>
                  let key := match n1 with
                    | .ok e _ => BitVec.ofNat 64 (eKey e)
                    | _ => (s.part (keyPart q.ctx)).keys.getD (sbSlot sb) 0
                  let hyper := match n2 with
                    | .ok e _ => eHyper e
                    | _ => BitVec.ofNat 256 (s.regionLe c (q.b.toNat + 32) 32)
                  let held := (match n1 with | .ok _ h => h | _ => []) ++ (match n2 with | .ok _ h => h | _ => [])
                  .run { cur := some q, beats := beats, wide := wide, selfCheck := false, dDesc := d, aDesc := a,
                         bDesc := b, spring := if q.draws then sb else 0, key := if q.draws then key else 0,
                         hyper := if q.op = 7 then hyper else 0,
                         bcastA := if q.op ≤ 2 then s.bcastOf c r a cnt else [],
                         bcastB := if q.op ≤ 1 then s.bcastOf c r b cnt else [], streams := held }

/-- Take the front entry out of the VX queue. -/
def State.popVx (s : State) (r : Nat) : State := s.setRill r { s.rill r with vxQ := (s.rill r).vxQ.drop 1 }

/-- VX_START: the next queued instruction starts, waits, or is refused. -/
def vxStart (r : Nat) (s : State) : State :=
  let v := s.rill r
  if v.vector.cur.isSome || v.vector.selfCheck || !s.running then s
  else match v.vxQ with
    | [] => s
    | q :: _ =>
      match s.ctx? q.ctx with
      | none => s.popVx r
      | some c =>
        if s.getF (vxDisable r) = 1 then
          ((((s.popVx r).raise kVxVectorDisabled r (s.aboutCtx q.ctx)).beginRecovery (.rill r)
            (kVxVectorDisabled.flint r)).recoverCtx q.ctx).mxGo r
        else if s.lsPending q r then s
        else match s.vxCheck c r q with
          | .wait => s
          | .fault k => ((s.popVx r).threadFault q.ctx q.thr r k).mxGo r
          | .poison lane => ((s.popVx r).bankFault q.ctx r lane).mxGo r
          | .stream k n => ((s.popVx r).streamFault q.ctx q.thr r k n).mxGo r
          | .run e =>
            let s := s.popVx r
            let s := s.setRill r { s.rill r with vector := e }
            (e.streams.foldl (fun (s : State) n => s.touchCopy (r / 16) n) s).mxGo r

def execVxStart (rill : Nat) (s : State) : Host.Outcome State Fault Refusal := .next (if s.pwr.held then s else vxStart rill s)

/-! ## Beats (R183, R188) -/

/-- A write of one element: tile, logical row and column, encoding. -/
abbrev ElemWrite := BitVec 256 × Nat × Nat × Nat

/-- What a beat gives: element writes, bytes written at region offsets, flags, and the norm terms of `vx.opt`: g, the
old and the new weight in FP32. -/
structure BeatOut where
  elems : List ElemWrite := []
  raw : List (Nat × List Byte) := []
  fl : Flags := {}
  norms : List (Nat × Nat × Nat) := []
  deriving DecidableEq, Repr

/-- Beat width W. -/
def VxEngine.width (v : VxEngine) : Nat := if v.wide then 512 else 256

/-- Elements of the counting tile that beat `b` covers: index, row, column. -/
def VxEngine.elems (v : VxEngine) (op b : Nat) : List (Nat × Nat × Nat) :=
  let t := countTile op v.dDesc v.aDesc
  ((List.range v.width).map (fun i => b * v.width + i)).filterMap (fun n =>
    if n < tRows t * tCols t then some (n, n / tCols t, n % tCols t) else none)

/-- Element (i, j) of a source, broadcast where it is (R186). -/
def State.vxSrc (s : State) (c : Context) (r : Nat) (t : BitVec 256) (buf : List W32) (i j : Nat) : Nat :=
  if !buf.isEmpty then (buf.getD j 0).toNat
  else s.vxRaw c r t (if tRows t = 1 then 0 else i) (if tCols t = 1 then 0 else j)

/-- Element and scale byte of a packed source element. -/
def srcRaw (fmt x : Nat) : Nat := if isMx fmt then x % 2 ^ 16 else x
def srcScale (x : Nat) : Nat := x / 2 ^ 16 % 256

/-- The 16-bit draw of an element. -/
def VxEngine.draw (v : VxEngine) (e : Nat) : Nat :=
  draw16 (BitVec.ofNat 64 (sbBase v.spring)) (BitVec.ofNat 32 (sbSalt v.spring)) v.key e

/-- Gather results of single elements. -/
def gather (l : List (ElemWrite × Flags)) : BeatOut :=
  { elems := l.map (fun x => x.1), fl := l.foldl (fun (f : Flags) x => f.or x.2) {} }

def State.beatEw (s : State) (c : Context) (r : Nat) (v : VxEngine) (q : QEntry) (b : Nat) : BeatOut :=
  gather ((v.elems 0 b).map (fun e =>
    let x := s.vxSrc c r v.aDesc v.bcastA e.2.1 e.2.2
    let y := if ewBinary (qFunc q) then s.vxSrc c r v.bDesc v.bcastB e.2.1 e.2.2 else 0
    let z := ewElem (qFunc q) (tFmt v.dDesc) (bit q.imm.toNat 8) (qConst q) (if q.draws then v.draw e.1 else 0) x y
    ((v.dDesc, e.2.1, e.2.2, z.1), z.2)))

def State.beatFma (s : State) (c : Context) (r : Nat) (v : VxEngine) (q : QEntry) (b : Nat) : BeatOut :=
  gather ((v.elems 1 b).map (fun e =>
    let x := s.vxSrc c r v.aDesc v.bcastA e.2.1 e.2.2
    let y := s.vxSrc c r v.bDesc v.bcastB e.2.1 e.2.2
    let z := fmaElem (tFmt v.dDesc) (bit q.imm.toNat 8) x y (s.vxRaw c r v.dDesc e.2.1 e.2.2)
    ((v.dDesc, e.2.1, e.2.2, z.1), z.2)))

/-- One MX block of a conversion, starting at an element (R80). -/
def State.cvtBlock (s : State) (c : Context) (r : Nat) (v : VxEngine) (q : QEntry) (n i j : Nat) : BeatOut :=
  let d := v.dDesc
  let sf := tFmt v.aDesc
  let xs := (List.range 32).map (fun k => s.vxSrc c r v.aDesc v.bcastA i (j + k))
  let at_ := tAddr d + scaleAt d i j
  if sf = tFmt d then
    { elems := xs.zipIdx.map (fun x => (d, i, j + x.2, srcRaw sf x.1)),
      raw := [(at_, [BitVec.ofNat 8 (srcScale (xs.headD 0))])] }
  else
    let vs := xs.map (fun x => sourceVal sf (bit q.imm.toNat 2) (srcRaw sf x) (srcScale x))
    let z := toBlock (tFmt d) (bits q.imm.toNat 0 2) ((List.range 32).map (fun k => v.draw (n + k))) (vs.map (fun x => x.1))
    { elems := z.2.1.zipIdx.map (fun x => (d, i, j + x.2, x.1)), raw := [(at_, [BitVec.ofNat 8 z.1])],
      fl := vs.foldl (fun (f : Flags) x => f.or x.2) z.2.2 }

/-- Two outputs together. -/
def BeatOut.both (x y : BeatOut) : BeatOut :=
  { elems := x.elems ++ y.elems, raw := x.raw ++ y.raw, fl := x.fl.or y.fl, norms := x.norms ++ y.norms }

def State.beatCvt (s : State) (c : Context) (r : Nat) (v : VxEngine) (q : QEntry) (b : Nat) : BeatOut :=
  if isMx (tFmt v.dDesc) then
    ((v.elems 2 b).filter (fun e => decide (e.1 % 32 = 0))).foldl
      (fun o e => o.both (s.cvtBlock c r v q e.1 e.2.1 e.2.2)) {}
  else
    gather ((v.elems 2 b).map (fun e =>
      let x := s.vxSrc c r v.aDesc v.bcastA e.2.1 e.2.2
      let sf := tFmt v.aDesc
      let z := cvtElem sf (tFmt v.dDesc) (bits q.imm.toNat 0 2) (bit q.imm.toNat 2) (if q.draws then v.draw e.1 else 0)
        (srcRaw sf x) (srcScale x)
      ((v.dDesc, e.2.1, e.2.2, z.1), z.2)))

/-- The results of `vx.red` whose last input beat `b` reads (R188, R200). -/
def State.beatRed (s : State) (c : Context) (r : Nat) (v : VxEngine) (q : QEntry) (b : Nat) : BeatOut :=
  let a := v.aDesc
  let d := v.dDesc
  let cols := bit q.imm.toNat 0
  gather ((v.elems 3 b).filterMap (fun e =>
    if (if cols then e.2.1 + 1 = tRows a else e.2.2 + 1 = tCols a) then
      let xs := if cols then (List.range (tRows a)).map (fun i => s.vxRaw c r a i e.2.2)
        else (List.range (tCols a)).map (fun j => s.vxRaw c r a e.2.1 j)
      let p := if cols then (0, e.2.2) else (e.2.1, 0)
      let init := if bit q.imm.toNat 4 then some (s.vxRaw c r d p.1 p.2) else none
      let z := redElem (bits q.imm.toNat 1 3) (tFmt a) (tFmt d) (bit q.imm.toNat 8) init xs
      some ((d, p.1, p.2, z.1), z.2)
    else none))

/-- The mask element is active: neither +0 nor −0 (R202). -/
def State.active (s : State) (c : Context) (r : Nat) (m : BitVec 256) (i j : Nat) : Bool :=
  !(decodeElem (tFmt m) (s.vxRaw c r m i j)).isZero

/-- Active elements of a mask before element (i, j), in the whole tile or in its row. -/
def State.rankBefore (s : State) (c : Context) (r : Nat) (m : BitVec 256) (row : Bool) (i j : Nat) : Nat :=
  let inRow := fun (y n : Nat) => ((List.range n).filter (fun x => s.active c r m y x)).length
  if row then inRow i j else ((List.range i).map (fun y => inRow y (tCols m))).sum + inRow i j

/-- Active elements of a row, or of the tile. -/
def State.activeIn (s : State) (c : Context) (r : Nat) (m : BitVec 256) (row : Bool) (i : Nat) : Nat :=
  if row then s.rankBefore c r m true i (tCols m) else s.rankBefore c r m false (tRows m) 0

def State.beatCompress (s : State) (c : Context) (r : Nat) (v : VxEngine) (q : QEntry) (b : Nat) : BeatOut :=
  let row := bit q.imm.toNat 0
  let d := v.dDesc
  let m := v.bDesc
  let packed := (v.elems 4 b).filterMap (fun e =>
    if s.active c r m e.2.1 e.2.2 then
      let p := s.rankBefore c r m row e.2.1 e.2.2
      some (d, if row then e.2.1 else p / tCols d, if row then p else p % tCols d, s.vxRaw c r v.aDesc e.2.1 e.2.2)
    else none)
  if b + 1 = v.beats then
    let fill := if bit q.imm.toNat 1 then
        (List.range (tRows d)).flatMap (fun i => (List.range (tCols d)).filterMap (fun j =>
          if s.activeIn c r m row i ≤ (if row then j else i * tCols d + j) then some (d, i, j, 0) else none))
      else []
    let counts := if bit q.imm.toNat 2 then
        [((countArea q v.aDesc).1, (List.range (if row then tRows v.aDesc else 1)).flatMap
          (fun i => leBytes 4 (s.activeIn c r m row i)))]
      else []
    { elems := packed ++ fill, raw := counts }
  else { elems := packed }

def State.beatExpand (s : State) (c : Context) (r : Nat) (v : VxEngine) (q : QEntry) (b : Nat) : BeatOut :=
  let row := bit q.imm.toNat 0
  let d := v.dDesc
  let m := v.bDesc
  let a := v.aDesc
  let put := (v.elems 5 b).filterMap (fun e =>
    if s.active c r m e.2.1 e.2.2 then
      let p := s.rankBefore c r m row e.2.1 e.2.2
      let have_ := if row then decide (p < tCols a) else decide (p < tRows a * tCols a)
      some (d, e.2.1, e.2.2,
        if have_ then s.vxRaw c r a (if row then e.2.1 else p / tCols a) (if row then p else p % tCols a) else 0)
    else none)
  let fill := if b + 1 = v.beats ∧ bit q.imm.toNat 1 = true then
      (List.range (tRows d)).flatMap (fun i => (List.range (tCols d)).filterMap (fun j =>
        if s.active c r m i j then none else some (d, i, j, 0)))
    else []
  { elems := put ++ fill }

def State.beatRng (v : VxEngine) (q : QEntry) (b : Nat) : BeatOut :=
  gather ((v.elems 6 b).map (fun e =>
    let z := rngElem (bits q.imm.toNat 0 2) (qConst q) (tFmt v.dDesc) (BitVec.ofNat 64 (sbBase v.spring))
      (BitVec.ofNat 32 (sbSalt v.spring)) v.key e.1
    ((v.dDesc, e.2.1, e.2.2, z.1), z.2)))

/-- A stored element widened to an FP32 pattern. -/
def widen (fmt : Nat) (denorm : Bool) (raw : Nat) : Nat × Flags :=
  if fmt = 0 then (raw, {})
  else let v := readElem fmt denorm raw; ((fp32.round .rne false v.1).1, v.2)

def State.beatOpt (s : State) (c : Context) (r : Nat) (v : VxEngine) (q : QEntry) (b : Nat) : BeatOut :=
  let adam := decide (bits q.imm.toNat 0 2 = 1)
  let dn := bit q.imm.toNat 8
  let d := v.dDesc
  let st := v.bDesc
  (v.elems 7 b).foldl (fun (o : BeatOut) e =>
    let i := e.2.1
    let j := e.2.2
    let w := widen (tFmt d) dn (s.vxRaw c r d i j)
    let g := widen (tFmt v.aDesc) dn (s.vxRaw c r v.aDesc i j)
    let jm := if adam then 2 * j else j
    let m := s.vxRaw c r st i jm
    let n := if adam then s.vxRaw c r st i (2 * j + 1) else 0
    let z := optElem adam dn v.hyper w.1 g.1 m n
    let p := roundElem (tFmt d) (if bit q.imm.toNat 3 then .sr (v.draw e.1) else .rne) dn (fp32.decode z.w)
    let ws : List ElemWrite := (st, i, jm, z.m) :: ((if adam then [(st, i, 2 * j + 1, z.v)] else []) ++ [(d, i, j, p.1)])
    o.both { elems := ws, fl := ((w.2.or g.2).or z.fl).or p.2, norms := [(z.g, w.1, z.w)] }) {}

/-- The results of a beat. -/
def State.beat (s : State) (c : Context) (r : Nat) (v : VxEngine) (q : QEntry) (b : Nat) : BeatOut :=
  match q.op with
  | 0 => s.beatEw c r v q b
  | 1 => s.beatFma c r v q b
  | 2 => s.beatCvt c r v q b
  | 3 => s.beatRed c r v q b
  | 4 => s.beatCompress c r v q b
  | 5 => s.beatExpand c r v q b
  | 6 => State.beatRng v q b
  | _ => s.beatOpt c r v q b

/-- What a beat's reads meet first (R181, R241). -/
def State.beatStop (s : State) (c : Context) (r : Nat) (v : VxEngine) (q : QEntry) (b : Nat) : Option VxStop :=
  if (s.rill r).poison.isEmpty && (s.rill r).array.badAcc.isEmpty then none
  else (v.elems q.op b).findSome? (fun e =>
    let i := e.2.1
    let j := e.2.2
    let src := fun (t : BitVec 256) (buf : List W32) =>
      if !buf.isEmpty then none else s.vxBad c r t (if tRows t = 1 then 0 else i) (if tCols t = 1 then 0 else j)
    match q.op with
    | 0 => if (src v.aDesc v.bcastA).isSome || !ewBinary (qFunc q) then src v.aDesc v.bcastA else src v.bDesc v.bcastB
    | 1 => [src v.aDesc v.bcastA, src v.bDesc v.bcastB, s.vxBad c r v.dDesc i j].findSome? id
    | 2 => src v.aDesc v.bcastA
    | 3 => s.vxBad c r v.aDesc i j
    | 4 => [s.vxBad c r v.aDesc i j, s.vxBad c r v.bDesc i j].findSome? id
    | 5 => s.vxBad c r v.bDesc i j
    | 6 => none
    | _ => [s.vxBad c r v.dDesc i j, s.vxBad c r v.aDesc i j, s.vxBad c r v.bDesc i j].findSome? id)

/-- Write one element; a container of FP19 holds 0 in its low bits (R53), and an accumulator entry that is written is
good again (R181). -/
def State.vxPut (s : State) (c : Context) (r : Nat) (x : ElemWrite) : State :=
  let t := x.1
  let v := if tFmt t = 0x1 then x.2.2.2 / 2 ^ 13 * 2 ^ 13 else x.2.2.2
  if 2 ≤ tSpace t then
    let a := (s.rill r).array
    let set := tSpace t - 2
    let p := accIndex c.mode t x.2.1 x.2.2.1
    s.setArray r { a.setAcc set (putAcc (a.acc set) p (BitVec.ofNat 32 v)) with
      badAcc := a.badAcc.filter (fun y => decide (y ≠ (set, p))) }
  else
    let e := elemAt t x.2.1 x.2.2.1
    let at_ := spadBase r + c.regionBase + tAddr t + e.1
    let u := setBits (Memory.le s.mem.cells at_ e.2.2) e.2.1 (fmtBits (tFmt t)) v
    { s with mem := { s.mem with cells := Memory.writeN s.mem.cells at_ (leBytes e.2.2 u) } }

/-- Scratchpad ranges (offset in the rill, length) that a beat writes. -/
def BeatOut.ranges (o : BeatOut) (base : Nat) : List (Nat × Nat) :=
  o.elems.filterMap (fun x => if tSpace x.1 = 0 then
      some (base + tAddr x.1 + (elemAt x.1 x.2.1 x.2.2.1).1, (elemAt x.1 x.2.1 x.2.2.1).2.2) else none) ++
    o.raw.map (fun x => (base + x.1, x.2.length))

/-- Lanes wholly written by a set of ranges are clean (R242). -/
def clearRanges (poison : List Nat) (ws : List (Nat × Nat)) : List Nat :=
  poison.filter (fun l => !((List.range 4).all (fun i => ws.any (fun w => decide (w.1 ≤ l + i ∧ l + i < w.1 + w.2)))))

/-- The writes of a beat land. -/
def State.landBeat (s : State) (c : Context) (r : Nat) (o : BeatOut) : State :=
  let s := o.elems.foldl (fun (s : State) x => s.vxPut c r x) s
  let s := { s with mem := { s.mem with
    cells := o.raw.foldl (fun m (x : Nat × List Byte) => Memory.writeN m (spadBase r + c.regionBase + x.1) x.2) s.mem.cells } }
  let v := s.rill r
  let s := if v.poison.isEmpty then s else s.setRill r { v with poison := clearRanges v.poison (o.ranges c.regionBase) }
  ((s.orFlags (vxReg r 0x10) o.fl).addF (vxBeats r) 1).creditRill r 14 1

/-- Run beats `b` to `b + n − 1`: the state, the norm terms gathered, and what stopped it. -/
def State.runBeats (s : State) (c : Context) (r : Nat) (v : VxEngine) (q : QEntry) (norms : List (Nat × Nat × Nat)) :
    Nat → Nat → State × List (Nat × Nat × Nat) × Option VxStop
  | _, 0 => (s, norms, none)
  | b, n + 1 =>
    match s.beatStop c r v q b with
    | some x => (s, norms, some x)
    | none =>
      let o := s.beat c r v q b
      (s.landBeat c r o).runBeats c r v q (norms ++ o.norms) (b + 1) n

/-- Spring outputs that the first `n` elements of an instruction take (R210, R223). -/
def QEntry.springs (q : QEntry) (n : Nat) : Nat :=
  if !q.draws then 0 else if q.op = 6 then (n + 3) / 4 else (n + 7) / 8

/-! ## Norms (R272, R430) -/

/-- A finite FP32 pattern. -/
def finite32 (x : Nat) : Bool := decide (bits x 23 8 ≠ 255)

/-- The sums of g², (w_new − w_old)² and w_new² over the instruction's elements, as FP32 patterns, those that `keep`
lets in. -/
def normSums (l : List (Nat × Nat × Nat)) (keep : Nat × Nat × Nat → Bool) : Nat × Nat × Nat :=
  let sq := fun (v : Val) => (mulV v v).1
  let sum := fun (f : Nat × Nat × Nat → Val) => groupSum32 (l.map (fun x => if keep x then f x else zeroV))
  (sum (fun (x : Nat × Nat × Nat) => sq (fp32.decode x.1)), sum (fun (x : Nat × Nat × Nat) => sq (subV (fp32.decode x.2.2) (fp32.decode x.2.1)).1),
   sum (fun (x : Nat × Nat × Nat) => sq (fp32.decode x.2.2)))

/-- An FP32 pattern as binary64. -/
def toFp64 (x : Nat) : W64 := BitVec.ofNat 64 (fp64.round .rne false (fp32.decode x)).1

/-- The contribution of a `vx.opt` with SRC = 0 to its layer. -/
def normSlotOf (l : List (Nat × Nat × Nat)) : NormSlot :=
  let keep := fun (x : Nat × Nat × Nat) => finite32 x.1 && finite32 x.2.2
  let n : Nat × Nat × Nat := normSums l keep
  let good := (l.filter keep).length
  { NormSlot.zero with g2 := toFp64 n.1, u2 := toFp64 n.2.1, w2 := toFp64 n.2.2, elemsOpt := good,
                       nonfinite := l.length - good }

/-- Layer to which a phase of a launch's graph contributes. -/
def Part.normLayer (p : Part) (l : Launch) (phase : Nat) : Option Nat :=
  match (p.graphs.at? l.graph).bind (fun g => g.phases[phase]?) with
  | some ph => if ph.normLayer < 1024 then some ph.normLayer else none
  | none => none

/-- A completed `vx.opt` contributes its norms. -/
def State.optNorms (s : State) (r : Nat) (v : VxEngine) (q : QEntry) (l : List (Nat × Nat × Nat)) : State :=
  if q.op ≠ 7 then s
  else if bit q.imm.toNat 2 then
    let n := normSums l (fun _ => true)
    s.contribute (r / 16) (tStream v.aDesc) (BitVec.ofNat 32 n.1) (BitVec.ofNat 32 n.2.1) (BitVec.ofNat 32 n.2.2) l.length
  else
    match s.ctx? q.ctx with
    | none => s
    | some c =>
      let p := keyPart q.ctx
      match s.launch? p c.launch with
      | none => s
      | some la =>
        let phase := match (c.thread? q.thr).bind (fun h => h.tile) with
          | some ti => ti.phase
          | none => la.phase
        match (s.part p).normLayer la phase with
        | none => s
        | some n => s.setLaunch p c.launch
            { la with normBuf := la.normBuf.put n ((la.normBuf.getD n NormSlot.zero).add (normSlotOf l)) }

/-! ## The end of an instruction (R188, R216, R217) -/

/-- The engine is idle; a self-check under way goes on. -/
def State.idleVector (s : State) (r : Nat) : State :=
  let v := s.rill r
  s.setRill r { v with vector := { VxEngine.reset with selfCheck := v.vector.selfCheck } }

/-- A context whose launch has ended is dropped when its VX instruction ends (R126, R217). -/
def State.dropEnded (s : State) (k : Nat) : State :=
  match s.ctx? k with
  | some c => if c.launch = noLaunch then s.dropCtx k else s
  | none => s

/-- A running instruction meets what stops it: it is abandoned at that beat, and its tile returned (R181, R217, R241). -/
def State.vxAbandon (s : State) (r : Nat) (q : QEntry) (x : VxStop) : State :=
  let s := s.idleVector r
  let s := match x with
    | .lane n => s.bankFault q.ctx r n
    | .acc => (s.accHit r (s.aboutCtx q.ctx)).recoverCtx q.ctx
  (s.dropEnded q.ctx).mxGo r

/-- Run the first `n` beats of the running instruction. -/
def State.execBeats (s : State) (r n : Nat) : State × List (Nat × Nat × Nat) × Option VxStop :=
  let v := (s.rill r).vector
  match v.cur with
  | none => (s, [], none)
  | some q =>
    match s.ctx? q.ctx with
    | none => (s, [], none)
    | some c =>
      let z := s.runBeats c r v q [] 0 n
      let t := countTile q.op v.dDesc v.aDesc
      (z.1.addF (vxSpring r) (q.springs (min (n * v.width) (tRows t * tCols t))), z.2.1, z.2.2)

/-- VX_COMPLETE: the beats run in order and the last write lands. -/
def vxComplete (r : Nat) (s : State) : State :=
  let v := (s.rill r).vector
  match v.cur with
  | none => s
  | some q =>
    let z : State × List (Nat × Nat × Nat) × Option VxStop := s.execBeats r v.beats
    match z.2.2 with
    | some x => z.1.vxAbandon r q x
    | none => (((z.1.optNorms r v q z.2.1).idleVector r).dropEnded q.ctx).mxGo r

def execVxComplete (rill : Nat) (s : State) : Host.Outcome State Fault Refusal := .next (if s.pwr.held then s else vxComplete rill s)

/-- VX_STOP_REQUEST: the context's queued entries leave the queue in order for its image; a running instruction runs to
its last write (R216). -/
def vxStopRequest (p n : Nat) (s : State) : State :=
  let k := ctxKey p n
  match s.ctx? k with
  | none => s
  | some c =>
    match c.rillOf with
    | none => s
    | some r =>
      if c.stopping then
        let v := s.rill r
        let mine := v.vxQ.filter (fun q => decide (q.ctx = k))
        ((s.setCtx k { c with vx := c.vx ++ mine }).setRill r
          { v with vxQ := v.vxQ.filter (fun q => decide (q.ctx ≠ k)) }).wakeRill r
      else s

def execVxStopRequest (part ctx : Nat) (s : State) : Host.Outcome State Fault Refusal := .next (vxStopRequest part ctx s)

/-! ## Errors of the engine (R224, R226, R227) -/

/-- The self-check ends; a failed one disables the engine and takes the rill out of service. -/
def vxSelfCheckDone (r : Nat) (passed : Bool) (s : State) : State :=
  let v := s.rill r
  if v.vector.selfCheck then
    let s := s.setRill r { v with vector := { v.vector with selfCheck := false } }
    if passed then s
    else
      let s := (s.setF (vxDisable r) 1).raise kVxVectorHard r
      ((s.beginRecovery (.rill r) (kVxVectorHard.flint r)).recoverRill r).outOfService r
  else if s.selfChecking && !passed then ((s.setF (vxDisable r) 1).raise kVxVectorHard r).outOfService r
  else s

def execVxSelfCheckDone (rill : Nat) (passed : Bool) (s : State) : Host.Outcome State Fault Refusal :=
  .next (vxSelfCheckDone rill passed s)

/-- The cause of an engine error by its number; a number that is not one of R227 counts as a lane's. -/
def vxCause (c : BitVec 8) : Cause :=
  if c = 0x01 then kVxLaneCorrected else if c = 0x02 then kVxBufferCorrected
  else if c = 0x11 then kVxBufferUncorrected else if c = 0x12 then kVxSpringUncorrected else kVxLaneUncorrected

/-- LANE_UNCORRECTED: an uncorrectable error abandons the running instruction at beat `beat`, whose earlier beats stand,
and the self-check starts; a corrected one is counted. -/
def laneUncorrected (r : Nat) (cause : BitVec 8) (beat : Nat) (s : State) : State :=
  let k := vxCause cause
  if k.sev = 1 then (s.satF (vxEccCorrected r) 1).raise k r
  else
    let v := (s.rill r).vector
    let w := match v.cur with
      | some q => s.aboutCtx q.ctx
      | none => {}
    let s := ((s.satF (vxEccUncorrected r) 1).raise k r w).beginRecovery (.rill r) (k.flint r)
    let s := match v.cur with
      | some q => (((s.execBeats r (min beat v.beats)).1.idleVector r).recoverCtx q.ctx).dropEnded q.ctx
      | none => s
    (s.setRill r { s.rill r with vector := { (s.rill r).vector with selfCheck := true } }).mxGo r

def execLaneUncorrected (rill : Nat) (cause : BitVec 8) (beat : Nat) (s : State) : Host.Outcome State Fault Refusal :=
  .next (laneUncorrected rill cause beat s)

/-! ## Accumulator entries and scratchpad lanes that a reader finds bad (R181, R241) -/

/-- The running VX instruction is abandoned at a beat: the earlier ones stand. -/
def State.stopVectorAt (s : State) (r beat : Nat) : State :=
  let v := (s.rill r).vector
  (s.execBeats r (min beat v.beats)).1.idleVector r

/-- An uncorrectable accumulator entry is read: by a stationary load the pass is abandoned, by the vector engine its
instruction at that beat; a save takes a value that is left open; the tile is returned, and the entry stays bad until
its next write (R181). -/
def accUncorrected (r set entry : Nat) (reader : AccReader) (s : State) : State :=
  let v := s.rill r
  let who := match reader with
    | .stationaryLoad => v.array.cur.map (fun (q : QEntry) => q.ctx)
    | .vector _ => v.vector.cur.map (fun (q : QEntry) => q.ctx)
    | .save => v.frames.at? 4
  match who with
  | none => s
  | some k =>
    let s := match reader with
      | .vector b => s.stopVectorAt r b
      | _ => s
    let a := (s.rill r).array
    let x := (set % 2, entry % 4096)
    let bad := x :: a.badAcc.filter (fun y => decide (y ≠ x))
    let s := s.setArray r { a with badAcc := bad }
    let s := match reader, s.ctx? k with
      | .save, some c =>
        let open_ := BitVec.ofNat 32 (Config.pick s.free)
        s.fresh.setCtx k (if x.1 = 0 then { c with acc0 := putAcc c.acc0 x.2 open_ } else { c with acc1 := putAcc c.acc1 x.2 open_ })
      | _, _ => s
    (((s.accHit r (s.aboutCtx k)).recoverCtx k).dropEnded k).mxGo r

def execAccUncorrected (rill set entry : Nat) (reader : AccReader) (s : State) : Host.Outcome State Fault Refusal :=
  .next (accUncorrected rill set entry reader s)

/-- Who a reader's fault is about. -/
def State.readerCtx (s : State) (r : Nat) : LaneReader → Option Nat
  | .thread p c _ => some (ctxKey p c)
  | .feeder => (s.rill r).array.cur.map (fun (q : QEntry) => q.ctx)
  | .vector _ => (s.rill r).vector.cur.map (fun (q : QEntry) => q.ctx)
  | .ftOut p c _ _ => some (ctxKey p c)
  | .host => none
  | .save p c => some (ctxKey p c)
  | .scrub => none

/-- The lane is poisoned from now on. -/
def insertLane (l : List Nat) (off : Nat) : List Nat :=
  l.filter (fun x => decide (x < off)) ++ off :: l.filter (fun x => decide (off < x))

/-- A lane is read with an uncorrectable error, or was poisoned already: marked, counted, raised, and handled by its
reader (R241). -/
def scratchpadUncorrected (r off : Nat) (reader : LaneReader) (s : State) : State :=
  let off := off % 0x100000 / 4 * 4
  let known := (s.rill r).poison.contains off
  if known && decide (reader = .scrub) then s
  else
    let who := s.readerCtx r reader
    let w := match who with
      | some k => s.aboutCtx k
      | none => {}
    let s := match reader with
      | .vector b => s.stopVectorAt r b
      | _ => s
    let s := s.setRill r { s.rill r with poison := insertLane (s.rill r).poison off }
    let s := (s.poisonHit r off w).beginRecovery (.bank r (bankOf off)) (kSpUncorrected.flint r)
    let s := if known then s else s.countBank r (bankOf off)
    let s := match reader, who with
      | .ftOut _ _ sl pc, some k =>
        match s.ctx? k with
        | some x => s.setCtx k { x with slots := x.slots.upd sl (fun z =>
            { z with status := if z.status = 0 then kSpUncorrected.flint r else z.status, applied := z.applied ++ [pc] }) }
        | none => s
      | .save _ _, some k =>
        match s.ctx? k with
        | some x => s.setCtx k { x with lostLanes := true }
        | none => s
      | .ftOut _ _ _ _, none => s
      | .scrub, _ => s
      | _, some k => s.recoverCtx k
      | _, none => s
    let s := (s.ctxsAt r off).foldl (fun (s : State) k => s.recoverCtx k) s
    match who with
    | some k => (s.dropEnded k).mxGo r
    | none => s.mxGo r

def execScratchpadUncorrected (rill off : Nat) (reader : LaneReader) (s : State) : Host.Outcome State Fault Refusal :=
  .next (scratchpadUncorrected rill off reader s)

end Sys2Proof.Machine
end

