-- ==== Sys2Proof/Machine/FetchPut.lean ====
section
/-! DEFINITION. The fetch and put class: issue, translation and its waits, the copy of tiles, adds and atomics at the
home pool cache, and the delivery of replies (R104 to R107, R116 to R125, R239, R241, R353, R354, R359, R383, R384,
R395, R422, R437, R469). -/

namespace Sys2Proof.Machine

open Sys2Proof

/-! ## Codes that completions carry (R119, R135, R472) -/

/-- A cause of the rill in a completion: INSTANCE 0xFFF until a thread observes it. -/
def pendingCode (c : Cause) : W32 := c.flint 0xFFF

/-- Severity of a cause of unit class 0x01 (R135). -/
def rillSeverity (cause : Nat) : Nat := if cause = 0x10 then 1 else if cause = 0x11 then 2 else 3

/-- The status of a reply as its tracker holds it: a code of unit class 0x01 takes its SEVERITY, and INSTANCE 0xFFF. -/
def arrivedStatus (status : W32) : W32 :=
  if codeUnit status = 1 then
    BitVec.ofNat 32 (setBits (setBits status.toNat 28 4 (rillSeverity (codeCause status))) 8 12 0xFFF)
  else status

/-! ## Fences and buckets (R422, R434 to R437) -/

/-- The epoch before another (R434). -/
def prevEpoch (e : Nat) : Nat := if e = 1 then 65535 else e - 1

/-- What a check at translation says. -/
inductive Pass where
  | proceed
  | wait
  | refuse (code : W32)
  deriving DecidableEq, Repr

/-- The stricter of two checks: a refusal, then a wait. -/
def Pass.and (a b : Pass) : Pass :=
  match a, b with
  | .refuse c, _ => .refuse c
  | _, .refuse c => .refuse c
  | .wait, _ => .wait
  | _, .wait => .wait
  | .proceed, .proceed => .proceed

/-- The table of R437 for one fenced range. -/
def fenceRow (cur : Nat) (pend : Option Reshard) (opened : Bool) (stale : W32) (e : Nat) : Pass :=
  if e = 0 then .proceed
  else match pend with
    | none => if e = cur then .proceed else .refuse stale
    | some r =>
      if e = (if r.switched then prevEpoch cur else cur) then (if opened then .refuse stale else .proceed)
      else if e = r.new then (if opened then .proceed else .wait)
      else .refuse stale

/-- The pending re-shard of a launch. -/
def State.reshard? (s : State) (p h : Nat) : Option Reshard :=
  s.coll.reshards.find? (fun r => decide (r.part = p ∧ r.launch = h))

/-- The bucket's range holds page `n`. -/
def Bucket.covers (b : Bucket) (n : Nat) : Bool :=
  decide (b.object / pageBytes + b.pageFirst ≤ n ∧ n < b.object / pageBytes + b.pageFirst + b.pageCount)

/-- The epoch fence on page `n` for an operation with EPOCH `e` of a launch (R435, R437). -/
def State.fence (s : State) (p h n e : Nat) : Pass :=
  match s.launch? p h with
  | none => .proceed
  | some l =>
    let q := s.part p
    let pend := s.reshard? p h
    let stale := kCeStaleEpoch.flint (0x800 + p)
    let bs := q.buckets.vals.filter (fun b => decide (b.launch = h ∧ b.epoch ≠ 0) && b.covers n)
    let ofBuckets := bs.map (fun b => fenceRow l.cur pend (b.opened || pend.any (fun r => decide (r.new = b.epoch))) stale e)
    let ofObjects := match pend with
      | none => []
      | some r => if r.handover then [] else (r.objects.filter (fun o => match q.objects.at? o.1 with
          | some x => decide (o.1 / pageBytes ≤ n ∧ n < o.1 / pageBytes + x.pages)
          | none => false)).map (fun o => fenceRow l.cur pend o.2 stale e)
    (ofBuckets ++ ofObjects).foldl Pass.and .proceed

/-- The bucket table on page `n` (R422). -/
def State.bucketPass (s : State) (p n : Nat) (write : Bool) : Pass :=
  let bs := (s.part p).buckets.vals.filter (fun b => b.covers n && decide (b.launch ≠ 0xFFFF))
  if write then
    if bs.any (fun b => decide (b.state ≠ 0)) then .refuse (kCeLateContrib.flint (0x800 + p)) else .proceed
  else if bs.any (fun b => decide (b.state = 1 ∨ b.state = 2)) then .wait else .proceed

/-! ## Translation (R106, R383, R384, R395) -/

/-- Tiers into which a page in flash is staged on demand (R394, R395): DDR5 when its layer is in a window that does not
hold it, else the tiers of its role above flash. -/
def Part.demandTiers (p : Part) (n : Nat) : List Nat :=
  if p.inWindow n then [1]
  else match p.objOf n with
    | some o => (o.2.tiers.filter (fun t => decide (t < 2)))
    | none => [0, 1]

/-- What an access finds at page `n` of a partition (R383). -/
inductive PageUse where
  | ready
  | wait
  /-- A page in flash that must be staged first. -/
  | stage
  deriving DecidableEq, Repr

def State.pageUse (s : State) (p n : Nat) (write : Bool) : PageUse :=
  let q := s.part p
  match q.objOf n with
  | none => .wait
  | some o =>
    if o.2.loading then .wait
    else
      let g := q.pages.getD n Page.absent
      match g.state with
      | .absent => if write then .wait else .ready
      | .staging => .wait
      | .moving => .wait
      | _ => match g.a with
        | some x => if x.tier = 2 then (if (q.demandTiers n).isEmpty then .ready else .stage) else .ready
        | none => .wait

/-- EPOCH of an operation's memory tile. -/
def FtOp.epoch (o : FtOp) : Nat := if 3 ≤ o.kind then 0 else tEpoch o.memory

/-- The fabric address of an operation. -/
def FtOp.address (o : FtOp) : Nat := if 3 ≤ o.kind then o.addr.toNat else tAddr o.memory

/-- The pages of an operation all lie in objects that are mapped (R106, R413). -/
def Part.mapped (p : Part) (o : FtOp) : Bool :=
  o.pages.all (fun n => match p.objOf n with | some x => !x.2.freeing | none => false)

/-- Last use of the pages of an operation (R388). -/
def State.touchPages (s : State) (p : Nat) (l : List Nat) : State :=
  let s := l.foldl (fun (s : State) n =>
    match (s.part p).pages.at? n with
    | some g => s.setPage p (n * pageBytes) { g with used := s.mem.clock }
    | none => s) s
  { s with mem := { s.mem with clock := s.mem.clock + 1 } }

/-- Change the slot of a context. -/
def State.updSlot (s : State) (k n : Nat) (f : Slot → Slot) : State :=
  match s.ctx? k with
  | some c => s.setCtx k { c with slots := c.slots.upd n f }
  | none => s

/-- Translate an operation (R384): it is refused, waits, or holds its pages from now on.  A page in flash is staged as a
demand fetch (R395). -/
def State.translate (s : State) (k n : Nat) : State :=
  match s.ctx? k with
  | none => s
  | some c =>
    match c.slots.at? n with
    | none => s
    | some z =>
      if z.done || z.translated || z.refused || z.op.remote then s
      else
        let p := keyPart k
        let refuse := fun (code : W32) => s.updSlot k n (fun z => { z with refused := true, status := code })
        if !(s.part p).mapped z.op then refuse (pendingCode kRlUnmapped)
        else
          let pages := z.op.pages
          let pass := (pages.map (fun m => (s.fence p c.launch m z.op.epoch).and (s.bucketPass p m z.op.writes))).foldl
            Pass.and .proceed
          match pass with
          | .refuse code => refuse code
          | .wait => s
          | .proceed =>
            let uses := pages.map (fun m => (m, s.pageUse p m z.op.writes))
            if uses.all (fun u => decide (u.2 = .ready)) then
              (s.touchPages p pages).updSlot k n (fun z => { z with translated := true })
            else (uses.filter (fun u => decide (u.2 = .stage))).foldl (fun (s : State) u =>
              match s.stageInto p u.1 ((s.part p).demandTiers u.1) with
              | some s => s
              | none => s) s

/-- Try again the operations of a partition that wait. -/
def State.retryOps (s : State) (p : Nat) : State :=
  s.ctxs.foldl (fun (s : State) c =>
    if keyPart c.1 = p then c.2.slots.keys.foldl (fun (s : State) n => s.translate c.1 n) s else s) s

/-! ## Issue (R104 to R106, R113, R117, R118) -/

/-- Lowest free slot of a context (R118). -/
def Context.freeSlot (c : Context) : Option Nat := (List.range 128).find? (fun n => (c.slots.at? n).isNone)

/-- Why an FT instruction does not issue, or its operation. -/
inductive FtCheck where
  | run (o : FtOp)
  | fault (c : Cause)
  | poison (lane : Nat)
  deriving DecidableEq, Repr

/-- The address names another module (R106). -/
def State.isRemote (s : State) (a : Nat) : Bool := decide (faChip a ≠ 0xFFFF ∧ faChip a ≠ s.fabric.chip)

/-- The checks of a tile copy, with its scratchpad and memory descriptors at `sp` and `mp` (R105, R110). -/
def State.ftCheck (s : State) (c : Context) (r kind sp mp : Nat) : FtCheck :=
  match s.readDesc c r sp false, s.readDesc c r mp true with
  | .poisoned lane, _ => .poison lane
  | .bad, _ => .fault kRlBadDescriptor
  | _, .poisoned lane => .poison lane
  | _, .bad => .fault kRlBadDescriptor
  | .ok a, .ok b =>
    if tSpace a ≠ 0 then .fault kRlBadDescriptor
    else if kind = 2 ∧ (tFmt a ≠ tFmt b ∨ (tFmt a ≠ 0x0 ∧ tFmt a ≠ 0xD)) then .fault kRlIllegalOperand
    else if kind = 2 ∧ faOff (tAddr b) % 4 ≠ 0 then .fault kRlMisaligned
    else .run { kind := kind, spad := a, memory := b, addr := 0, operand := 0, remote := s.isRemote (tAddr b) }

/-- Bytes of a scratchpad tile, in the order of its stored ranges. -/
def State.tileBytes (s : State) (c : Context) (t : BitVec 256) : List Byte :=
  (tRanges t).flatMap (fun x => s.regionRead c (tAddr t + x.1) x.2)

/-- What the operation sends to another module (R106). -/
def State.sendRequest (s : State) (c : Context) (o : FtOp) (tag : W32) : State :=
  s.emit (.request o.kind tag (BitVec.ofNat 64 o.address) o.memory
    (if 3 ≤ o.kind then leBytes 8 o.operand.toNat else if o.kind = 0 then [] else s.tileBytes c o.spad))

/-- RL_OUTSTANDING.HIGH_WATER follows COUNT (R131). -/
def State.noteTrackers (s : State) (r : Nat) : State :=
  s.setF (rlHighWater r) (max (s.getF (rlHighWater r)) (s.rill r).trackers.length)

/-- An operation takes a slot and a tracker and goes to the memory side: to another module, refused at once, or
translated when nothing holds it up (R106, R117, R118, R469). -/
def State.ftSend (s : State) (x : Issue) (k t r : Nat) (c : Context) (h : Thread) (o : FtOp) : State :=
  match c.freeSlot with
  | none => s.setCtx k (c.setThread t { h with st := .waitQueue, wait := .ftRoom })
  | some n =>
    if 128 ≤ (s.rill r).trackers.length then s.setCtx k (c.setThread t { h with st := .waitQueue, wait := .ftRoom })
    else
      let a := o.address
      let bad : Option W32 :=
        if o.remote then (if s.fabric.chip = 0xFFFF then some (kGlNoRoute.flint 0xFFF) else none)
        else if faPart a ≠ keyPart k then some (pendingCode kRlRemoteRefused) else none
      let z : Slot := { op := { o with remote := o.remote && bad.isNone }, thr := t, done := false, status := bad.getD 0,
                        value := 0, issued := s.now, discard := false, applied := [], translated := false,
                        refused := bad.isSome, sinceTile := true, quotaSince := none }
      let c := c.setThread t ((h.setReg x.rd (BitVec.ofNat 64 n)).advance)
      let s := s.setCtx k { c with slots := c.slots.put n z }
      let s := (s.setRill r { s.rill r with trackers := (s.rill r).trackers ++ [(k, n, s.tbNs)] }).noteTrackers r
      if bad.isSome then s
      else if o.remote then s.sendRequest c o (replyTag (keyPart k) (keyNum k) n)
      else s.translate k n

/-- Issue a copy: `get` has its scratchpad tile at s[RA], the others at s[RB] (R104). -/
def State.ftIssue (s : State) (x : Issue) (kind : Nat) : State :=
  s.issue x ⟨x.i || decide (x.imm ≠ 0), x.regs, true⟩ (fun s k t r c h =>
    let a := (h.reg x.ra).toNat
    let b := (h.reg x.rb).toNat
    match (if kind = 0 then s.ftCheck c r kind a b else s.ftCheck c r kind b a) with
    | .fault f => s.threadFault k t r f
    | .poison lane => s.bankFault k r lane
    | .run o => s.ftSend x k t r c h o)

/-- Issue an atomic (R104, R105). -/
def State.amoIssue (s : State) (x : Issue) (kind : Nat) : State :=
  s.issue x ⟨x.i, x.regs, true⟩ (fun s k t r c h =>
    let a := h.reg x.ra + x.sext
    if a.toNat % 8 ≠ 0 then s.threadFault k t r kRlMisaligned
    else s.ftSend x k t r c h
      { kind := kind, spad := 0, memory := 0, addr := a, operand := h.reg x.rb, remote := s.isRemote a.toNat })

def execFtGet (x : Issue) (s : State) : Host.Outcome State Fault Refusal := .next (s.ftIssue x 0)
def execFtPut (x : Issue) (s : State) : Host.Outcome State Fault Refusal := .next (s.ftIssue x 1)
def execFtAddw (x : Issue) (s : State) : Host.Outcome State Fault Refusal := .next (s.ftIssue x 2)
def execFtAmoAdd (x : Issue) (s : State) : Host.Outcome State Fault Refusal := .next (s.amoIssue x 3)
def execFtAmoSwap (x : Issue) (s : State) : Host.Outcome State Fault Refusal := .next (s.amoIssue x 4)

/-! ## The copy of a tile (R54, R59, R104, R677)

A tile is a list of pieces: its elements in row order, then the scale bytes of an MX tile.  A piece is a byte
offset from ADDR, a bit within the unit, the bytes of the unit and a width in bits. -/

/-- A piece of a stored tile. -/
structure Piece where
  at_ : Nat
  bit_ : Nat
  bytes : Nat
  width : Nat
  deriving DecidableEq, Repr

def tilePieces (t : BitVec 256) : List Piece :=
  (List.range (tRows t)).flatMap (fun i => (List.range (tCols t)).map (fun j =>
    let e := elemAt t i j
    (⟨e.1, e.2.1, e.2.2, fmtBits (tFmt t)⟩ : Piece))) ++
  (if isMx (tFmt t) then (List.range (tRows t)).flatMap (fun i => (List.range (tCols t / 32)).map (fun b =>
    (⟨scaleAt t i (32 * b), 0, 1, 8⟩ : Piece))) else [])

/-- The two tiles of a copy agree, so that every element has one source. -/
def tilesAgree (a b : BitVec 256) : Bool := decide (tRows a = tRows b ∧ tCols a = tCols b ∧ tFmt a = tFmt b)

/-- Pairs of a source piece and a target piece.  Where the tiles do not agree the spec states no value: the source is
left open (notes/assumptions/22.md). -/
def copyPieces (src dst : BitVec 256) : List (Option Piece × Piece) :=
  if tilesAgree src dst then ((tilePieces src).map some).zip (tilePieces dst)
  else (tilePieces dst).map (fun q => (none, q))

/-- Value of a piece, bytes read by `rd` relative to ADDR. -/
def Piece.get (q : Piece) (rd : Nat → Byte) : Nat :=
  bits (leNat ((List.range q.bytes).map (fun i => rd (q.at_ + i)))) q.bit_ q.width

/-- Bytes of a target with a piece set; those not listed stand as `old` gives them. -/
def Piece.set (q : Piece) (old : Nat → Byte) (m : Tab Byte) (v : Nat) : Tab Byte :=
  let cur := fun a => Tab.getD m a (old a)
  let w := setBits (leNat ((List.range q.bytes).map (fun i => cur (q.at_ + i)))) q.bit_ q.width v
  ((List.range q.bytes).zip (leBytes q.bytes w)).foldl (fun m x => Tab.put m (q.at_ + x.1) x.2) m

/-- Parcels of the memory side that a piece lies in: partition offset ÷ 256. -/
def Piece.parcels (q : Piece) (off : Nat) : List Nat := [(off + q.at_) / 256, (off + q.at_ + q.bytes - 1) / 256].eraseDups

/-- Source value of a pair: piece `i` of an open source is the free value `i` of the copy. -/
def srcValue (s : State) (rd : Nat → Byte) (i : Nat) (q : Option Piece) : Nat :=
  match q with
  | some q => q.get rd
  | none => Config.pick (s.free + i)

/-- Every parcel that the memory tile of an operation touches. -/
def FtOp.parcels (o : FtOp) : List Nat :=
  if 3 ≤ o.kind then [faOff o.addr.toNat / 256]
  else (tRanges o.memory).flatMap (fun r =>
    if r.2 = 0 then []
    else
      let a := faOff (tAddr o.memory) + r.1
      (List.range ((a + r.2 - 1) / 256 - a / 256 + 1)).map (fun i => a / 256 + i)) |>.eraseDups

/-- Local address of a partition offset whose copy for accesses is in HBM or DDR5. -/
def Part.localAddr (p : Part) (off : Nat) : Option Nat :=
  match (p.page off).a with
  | some x => if x.tier = 2 then none else some (x.addr + off % pageBytes)
  | none => none

/-- The line of a parcel is filled into the home pool cache, or counted as a hit (R350, R351). -/
def State.touchParcel (s : State) (p n : Nat) : State :=
  match (s.part p).localAddr (256 * n) with
  | some a => s.fillLine p (a / 256)
  | none => s

/-- The parcel lies in a poisoned page. -/
def State.parcelPoison (s : State) (p n : Nat) : Bool := s.pagePoison p (256 * n / pageBytes)

/-- Write bytes at offsets of a partition. -/
def State.partPut (s : State) (p off : Nat) (m : Tab Byte) : State :=
  m.foldl (fun (s : State) x => s.partWriteByte p (off + x.1) x.2) s

/-- Lanes of a rill's scratchpad that a set of written bytes covers in part and that are poisoned (R242). -/
def State.splitLanes (s : State) (r base : Nat) (m : Tab Byte) : List Nat :=
  (s.rill r).poison.filter (fun l =>
    (List.range 4).any (fun i => decide (base ≤ l + i) && (Tab.at? m (l + i - base)).isSome) &&
    (List.range 4).any (fun i => !(decide (base ≤ l + i) && (Tab.at? m (l + i - base)).isSome)))

/-- Write bytes at region offsets of a context, wherever its region is: a lane that is covered whole becomes clean, a
poisoned lane covered in part keeps its bytes and is reported (R124, R242).  The code reported, or 0. -/
def State.regionPut (s : State) (k : Nat) (m : Tab Byte) : State × W32 :=
  match s.ctx? k with
  | none => (s, 0)
  | some c =>
    match c.spadRill with
    | none => (s.setCtx k { c with region := m.foldl (fun g x => Memory.write g x.1 x.2) c.region }, 0)
    | some r =>
      let split := s.splitLanes r c.regionBase m
      let ok := Tab.keep m (fun a _ => !(split.contains ((c.regionBase + a) / 4 * 4)))
      let cells := ok.foldl (fun g x => Memory.write g (spadBase r + c.regionBase + x.1) x.2) s.mem.cells
      let v := s.rill r
      let s := { s with mem := { s.mem with cells := cells } }
      let s := if v.poison.isEmpty then s
        else s.setRill r { v with poison := clearRanges v.poison (ok.map (fun x => (c.regionBase + x.1, 1))) }
      match split with
      | [] => (s, 0)
      | lane :: _ => (s.poisonHit r lane (s.aboutCtx k), kSpUncorrected.flint r)

/-! ## Performing an operation -/

/-- The first code of an operation stands. -/
def firstCode (a b : W32) : W32 := if a = 0 then b else a

/-- Parcels whose two copies failed their seal (R239, R358). -/
def badParcels (l : List (Nat × Bool)) : List Nat := (l.filter (fun x => x.2)).map (fun x => x.1)

/-- Store that holds a parcel, for SEAL_MISMATCH: its HBM stack, DDR5 connector or Shale slice. -/
def State.storeSeal (s : State) (p n : Nat) : Cause × Nat :=
  match ((s.part p).page (256 * n)).a with
  | some x =>
    if x.tier = 0 then (kHbSealMismatch, x.page / stackPages)
    else if x.tier = 1 then (kDdSealMismatch, x.page / 131072)
    else (kFsSealMismatch, 0x100 + x.page % 4)
  | none => (kHbSealMismatch, 0)

/-- Bytes of a reply's data at offsets of the memory tile: its stored ranges one after the other. -/
def replyByte (t : BitVec 256) (data : List Byte) (a : Nat) : Byte :=
  let go := (tRanges t).foldl (fun (x : Nat × Option Nat) r =>
    (x.1 + r.2, if x.2.isNone ∧ r.1 ≤ a ∧ a < r.1 + r.2 then some (x.1 + (a - r.1)) else x.2)) (0, none)
  match go.2 with
  | some i => data.getD i 0
  | none => 0

/-- `ft.get` lands: parcels that are poisoned or whose seal failed twice are not written (R239, R359). -/
def State.landGet (s : State) (k : Nat) (o : FtOp) (rd : Nat → Byte) (poisoned failed : List Nat) : State × W32 :=
  match s.ctx? k with
  | none => (s, 0)
  | some c =>
    let off := faOff (tAddr o.memory)
    let base := tAddr o.spad
    let pairs := (copyPieces o.memory o.spad).zipIdx
    let mem := (tilePieces o.memory)
    let skip := fun (i : Nat) => ((mem[i]?).map (fun q => (q.parcels off).any (fun n => poisoned.contains n || failed.contains n))).getD
      (!poisoned.isEmpty || !failed.isEmpty)
    let old := fun a => s.regionByte c (base + a)
    let m := pairs.foldl (fun (m : Tab Byte) x =>
      if skip x.2 then m else x.1.2.set old m (srcValue s rd x.2 x.1.1)) []
    let s := { s with free := s.free + pairs.length }
    let (s, lane) := s.regionPut k (m.map (fun x => (base + x.1, x.2)))
    let r := (c.spadRill).getD 0xFFF
    let s := if failed.isEmpty then s else s.raise kSpSealMismatch r (s.aboutCtx k)
    (s, firstCode (firstCode (if poisoned.isEmpty then 0 else pendingCode kRlPoison)
      (if failed.isEmpty then 0 else kSpSealMismatch.flint r)) lane)

/-- Parcels of an outgoing operation fed from a poisoned lane of the context's scratchpad, with the lanes (R241). -/
def State.poisonedOut (s : State) (c : Context) (o : FtOp) : List (Nat × Nat) :=
  match c.spadRill with
  | none => []
  | some r =>
    if (s.rill r).poison.isEmpty then []
    else
      let off := faOff (tAddr o.memory)
      (copyPieces o.spad o.memory).flatMap (fun x => match x.1 with
        | some q => match s.poisonAt r (c.regionBase + tAddr o.spad + q.at_) q.bytes with
          | some lane => (x.2.parcels off).map (fun n => (n, lane))
          | none => []
        | none => [])

/-- The parcels `ns` of an outgoing copy or add are written at their home: added when the operation is `ft.addw`
(R353). -/
def State.landOut (s : State) (k : Nat) (o : FtOp) (ns : List Nat) : State :=
  match s.ctx? k with
  | none => s
  | some c =>
    let p := keyPart k
    let off := faOff (tAddr o.memory)
    let s := ns.foldl (fun (s : State) n => s.touchParcel p n) s
    let rd := fun a => s.regionByte c (tAddr o.spad + a)
    let old := fun a => s.partByte p (off + a)
    let pairs := (copyPieces o.spad o.memory).zipIdx
    let m := pairs.foldl (fun (m : Tab Byte) x =>
      if (x.1.2.parcels off).all (fun n => ns.contains n) then
        let v := srcValue s rd x.2 x.1.1
        let v := if o.kind = 2 then
            let cur := x.1.2.get old
            if tFmt o.memory = 0 then addFp32 cur (v % 2 ^ 32) else (cur + v) % 2 ^ 32
          else v
        x.1.2.set old m v
      else m) []
    let s := { s with free := s.free + pairs.length }
    let s := if o.kind = 2 then (s.part p |>.localAddr off).elim s (fun a => (s.addF (pcAddwCount (dieOf a)) ns.length).credit p 38 ns.length) else s
    s.partPut p off m

/-- An atomic at its home line: its old value, or nothing on a poisoned page (R353, R354). -/
def State.doAmo (s : State) (p : Nat) (o : FtOp) : State × Option W64 :=
  let off := faOff o.addr.toNat
  if s.pagePoison p (off / pageBytes) then (s, none)
  else
    let s := s.touchParcel p (off / 256)
    let old := s.partLe p off 8
    let new := if o.kind = 3 then (old + o.operand.toNat) % 2 ^ 64 else o.operand.toNat
    let m : Tab Byte := (List.range 8).zip (leBytes 8 new)
    (s.partPut p off m, some (BitVec.ofNat 64 old))

/-- A translated operation of this module is carried out: what its slot then holds. -/
def State.perform (s : State) (k n : Nat) (z : Slot) (sealBad : List (Nat × Bool)) : State :=
  let p := keyPart k
  let o := z.op
  let failed := badParcels sealBad
  if o.kind = 0 then
    let ns := o.parcels
    let s := ns.foldl (fun (s : State) m => s.touchParcel p m) s
    let bad := ns.filter (fun m => s.parcelPoison p m)
    let rd := fun a => s.partByte p (faOff (tAddr o.memory) + a)
    let r := s.landGet k o rd bad (failed.filter (fun m => ns.contains m))
    r.1.updSlot k n (fun z => { z with status := firstCode z.status r.2 })
  else if o.kind ≤ 2 then
    match s.ctx? k with
    | none => s
    | some c =>
      let ns := o.parcels.filter (fun m => !z.applied.contains m)
      let lanes := (s.poisonedOut c o).filter (fun x => ns.contains x.1)
      let refused := if o.kind = 2 then ns.filter (fun m => s.parcelPoison p m) else []
      let sealed_ := failed.filter (fun m => ns.contains m && !refused.contains m && !(lanes.any (fun x => decide (x.1 = m))))
      let s := (lanes.map (fun x => x.2)).eraseDups.foldl (fun (s : State) lane =>
        match c.spadRill with
        | some r => s.poisonHit r lane (s.aboutCtx k)
        | none => s) s
      let s := sealed_.foldl (fun (s : State) m =>
        let x := s.storeSeal p m
        s.raise x.1 x.2 (s.aboutCtx k)) s
      let code := firstCode (if lanes.isEmpty then 0 else kSpUncorrected.flint ((c.spadRill).getD 0))
        (firstCode (if refused.isEmpty then 0 else pendingCode kRlPoison)
          (match sealed_ with | [] => 0 | m :: _ => (s.storeSeal p m).1.flint (s.storeSeal p m).2))
      let go := ns.filter (fun m => !(lanes.any (fun x => decide (x.1 = m))) && !refused.contains m && !sealed_.contains m)
      (s.landOut k o go).updSlot k n (fun z => { z with status := firstCode z.status code })
  else if z.applied.isEmpty then
    let r := s.doAmo p o
    match r.2 with
    | some v => r.1.updSlot k n (fun z => { z with value := v })
    | none => r.1.updSlot k n (fun z => { z with status := firstCode z.status (pendingCode kRlPoison) })
  else s

/-! ## Delivery of a reply (R117, R120, R124, R126) -/

/-- The tracker of an operation is free. -/
def State.freeTracker (s : State) (k n : Nat) : State :=
  { s with rills := s.rills.mapV (fun _ v => { v with trackers := v.trackers.filter (fun x => !(decide (x.1 = k ∧ x.2.1 = n))) }) }

/-- A number is free again 2 ms after its context's last operation has ended (R120). -/
def State.retire (s : State) (k : Nat) : State :=
  match s.ctx? k with
  | some c =>
    if c.launch = noLaunch && c.threads.isEmpty && !(c.slots.any (fun x => !x.2.done)) then
      let s := { s with ctxs := s.ctxs.del k }
      s.setPart (keyPart k) { s.part (keyPart k) with retired := (s.part (keyPart k)).retired.put (keyNum k) s.now }
    else s
  | none => s

/-- A slot becomes done; a discarded one is released (R126).  What waited for it goes on. -/
def State.endSlot (s : State) (k n : Nat) : State :=
  let s := s.freeTracker k n
  let s := s.updSlot k n (fun z => { z with done := true })
  match s.ctx? k with
  | none => s
  | some c =>
    let s := match c.slots.at? n with
      | some z => if z.discard then s.setCtx k { c with slots := c.slots.del n } else s
      | none => s
    let s := s.sweepFrees.retire k
    match c.rillOf with
    | some r => s.wakeRill r
    | none => s

/-- A reply reaches the context of its tag: held while a restore runs; applied where the region is; an operation of this
module is carried out when its pages let it, else it goes on waiting. -/
def ftCompletion (tag status : W32) (value : W64) (data : List Byte) (sealBad : List (Nat × Bool)) (s : State) : State :=
  let k := ctxKey (tagPart tag) (tagCtx tag)
  let n := tagSlot tag
  match s.ctx? k with
  | none => { s with host := { s.host with repliesDropped := s.host.repliesDropped + 1 } }
  | some c =>
    match c.slots.at? n with
    | none => { s with host := { s.host with repliesDropped := s.host.repliesDropped + 1 } }
    | some z =>
      if z.done then { s with host := { s.host with repliesDropped := s.host.repliesDropped + 1 } }
      else
        let s := if c.launch = noLaunch then { s with host := { s.host with repliesDropped := s.host.repliesDropped + 1 } } else s
        match c.loc with
        | .restoring _ => s.setCtx k { c with held := c.held ++ [.ftCompletion tag status value data sealBad] }
        | _ =>
          if z.refused then s.endSlot k n
          else if z.op.remote then
            let code := arrivedStatus status
            let failed := badParcels sealBad
            let r := if z.op.kind = 0 ∧ code = 0 then s.landGet k z.op (replyByte z.op.memory data) [] failed
              else if z.op.kind = 0 ∧ code = pendingCode kRlPoison ∧ data ≠ [] then
                s.landGet k z.op (replyByte z.op.memory data) (sealBad.map (fun x => x.1)) []
              else (s, 0)
            (r.1.updSlot k n (fun z => { z with status := firstCode code r.2, value := if 3 ≤ z.op.kind then value else 0 })).endSlot k n
          else
            let s := s.translate k n
            match (s.ctx? k).bind (fun c => c.slots.at? n) with
            | none => s
            | some z =>
              if z.refused then s.endSlot k n
              else if z.translated then (s.perform k n z sealBad).endSlot k n
              else s

def execFtCompletion (tag status : BitVec 32) (value : BitVec 64) (data : List Byte) (sealBad : List (Nat × Bool)) (s : State) :
    Host.Outcome State Fault Refusal := .next (ftCompletion tag status value data sealBad s)

/-- A remote operation without completion 2 ms after its issue (R107). -/
def remoteTimeout (p c n : Nat) (s : State) : State :=
  let k := ctxKey p c
  match s.ctx? k with
  | none => s
  | some x =>
    match x.slots.at? n with
    | none => s
    | some z =>
      if z.op.remote && !z.done && decide (z.issued + nsU 2000000 ≤ s.now) then
        (s.updSlot k n (fun z => { z with status := pendingCode kRlRemoteTimeout })).endSlot k n
      else s

def execRemoteTimeout (part ctx slot : Nat) (s : State) : Host.Outcome State Fault Refusal := .next (remoteTimeout part ctx slot s)

/-! ## At the pool cache (R353, R354) -/

/-- A slot whose operation of this module can be carried out now. -/
def State.liveSlot (s : State) (k n : Nat) : Option Slot :=
  match (s.ctx? k).bind (fun c => c.slots.at? n) with
  | some z => if z.translated && !z.done && !z.refused then some z else none
  | none => none

/-- One parcel of an `ft.addw` is added into its line; one in a poisoned page is refused. -/
def pcAddw (tag : W32) (parcel : Nat) (s : State) : State :=
  let k := ctxKey (tagPart tag) (tagCtx tag)
  let n := tagSlot tag
  let s := s.translate k n
  match s.liveSlot k n, s.ctx? k with
  | some z, some c =>
    if z.op.kind = 2 ∧ z.op.parcels.contains parcel ∧ !z.applied.contains parcel then
      if s.parcelPoison (keyPart k) parcel then
        s.updSlot k n (fun z => { z with status := firstCode z.status (pendingCode kRlPoison), applied := z.applied ++ [parcel] })
      else
        match (s.poisonedOut c z.op).find? (fun x => decide (x.1 = parcel)), c.spadRill with
        | some x, some r =>
          (s.poisonHit r x.2 (s.aboutCtx k)).updSlot k n (fun z =>
            { z with status := firstCode z.status (kSpUncorrected.flint r), applied := z.applied ++ [parcel] })
        | _, _ => (s.landOut k z.op [parcel]).updSlot k n (fun z => { z with applied := z.applied ++ [parcel] })
    else s
  | _, _ => s

def execPcAddw (tag : BitVec 32) (parcel : Nat) (s : State) : Host.Outcome State Fault Refusal := .next (pcAddw tag parcel s)

/-- An atomic is carried out in its line. -/
def pcAmo (tag : W32) (s : State) : State :=
  let k := ctxKey (tagPart tag) (tagCtx tag)
  let n := tagSlot tag
  let s := s.translate k n
  match s.liveSlot k n with
  | some z =>
    if 3 ≤ z.op.kind ∧ z.applied = [] then
      let s := s.perform k n z []
      s.updSlot k n (fun z => { z with applied := [faOff z.op.addr.toNat / 256] })
    else s
  | none => s

def execPcAmo (tag : BitVec 32) (s : State) : Host.Outcome State Fault Refusal := .next (pcAmo tag s)

end Sys2Proof.Machine
end

