-- ==== Sys2Proof/Machine/Tiers.lean ====
section
/-! DEFINITION. The memory tiers: errors, scrubbing and repair of HBM and DDR5, Shale, pool-cache lines, and the memory
windows of the host (R37 to R46, R333 to R372, R522 to R527). -/

namespace Sys2Proof.Machine

open Sys2Proof

/-! ## HBM (R336 to R340, R362, R363, R370) -/

/-- Local address of an offset of a stack. -/
def stackAddr (st off : Nat) : Nat := st * 0x2000000000 + off

/-- Offsets of a stack that hold pages (R38). -/
def stackLen : Nat := 0x10C3800000

/-- Place of an offset of a stack. -/
def stackPlace (st off : Nat) : Place := ⟨0, st * stackPages + off / pageBytes⟩

/-- Stack-local pseudo-channel of an offset (R334). -/
def stackPch (off : Nat) : Nat := 8 * (off / pageBytes % 8) + off % pageBytes / 256 % 8

/-- HB_ECC_ADDR of an error (R363). -/
def State.hbmErrAt (s : State) (st off kind : Nat) : State :=
  ((s.setF (hbEccOffset st) (off / 64 * 64)).setF (hbEccPch st) (stackPch off)).setF (hbEccKind st) kind

/-- A stack without a request for 10 ms enters self-refresh (R338). -/
def hbmSelfRefreshEntry (st : Nat) (s : State) : State :=
  if st < 8 ∧ s.getF (hbTrained st) = 1 ∧ s.mem.lastReq.getD st 0 + nsU 10000000 ≤ s.now then s.setF (hbSelfRefresh st) 1 else s

def execHbmSelfRefreshEntry (stack : Nat) (s : State) : Host.Outcome State Fault Refusal := .next (hbmSelfRefreshEntry stack s)

/-- An uncorrectable error of a stack: its page is poisoned and recorded (R339). -/
def hbmUncorrected (st off : Nat) (s : State) : State :=
  if st < 8 ∧ off < stackLen then
    let s := (s.satF (hbEcc st 1) 1).hbmErrAt st off 1
    (s.raise kHbUncorrected st).poisonHome (stackPlace st off)
  else s

def execHbmUncorrected (stack off : Nat) (s : State) : Host.Outcome State Fault Refusal := .next (hbmUncorrected stack off s)

/-- Key under which corrected errors of a row are counted; the spec does not give a row's size, so a row is a page's share
of one pseudo-channel (notes/assumptions/23.md). -/
def rowKey (st off : Nat) : Nat := (st * stackPages + off / pageBytes) * 8 + off % pageBytes / 256 % 8

/-- A corrected error of a row, at a time in ns; those older than 24 h are forgotten (R340). -/
def State.noteRow (s : State) (st off : Nat) : State :=
  let k := rowKey st off
  let l := (s.mem.rowErrs.getD k []).filter (fun t => decide (s.tbNs < t + 86400000000000)) ++ [s.tbNs]
  { s with mem := { s.mem with rowErrs := s.mem.rowErrs.put k l } }

/-- The scrubber reads the next 64 bytes of a stack (R336, R337). -/
def hbmScrubRead (st off : Nat) (r : EccResult) (s : State) : State :=
  if st < 8 ∧ off < stackLen ∧ s.getF (hbScrubEn st) = 1 then
    match r with
    | .clean => s
    | .ondieCorrected => s.satF (hbEcc st 3) 1
    | .corrected => (((s.satF (hbEcc st 2) 1).hbmErrAt st off 0).raise kHbScrubCorrected st).noteRow st off
    | .uncorrected => hbmUncorrected st off s
  else s

def execHbmScrubRead (stack off : Nat) (r : EccResult) (s : State) : Host.Outcome State Fault Refusal :=
  .next (hbmScrubRead stack off r s)

/-- A page is in use by a partition. -/
def State.placeUsed (s : State) (x : Place) : Bool := s.usedPlaces.contains x

/-- Soft repair of a row that gave an uncorrectable error, or four corrected ones within 24 h (R340). -/
def hbmRowRepair (st off : Nat) (spareLeft : Bool) (s : State) : State :=
  let x := stackPlace st off
  let bad := (s.mem.poison.at? x.key).isSome
  let four := decide (4 ≤ ((s.mem.rowErrs.getD (rowKey st off) []).filter (fun t => decide (s.tbNs < t + 86400000000000))).length)
  if st < 8 ∧ off < stackLen ∧ s.getF (hbRepairEn st) = 1 ∧ (bad || four) = true ∧ !s.mem.retired.contains x.key then
    if spareLeft then
      let s := (s.addF (hbRepairs st) 1).raise kHbRepaired st
      let s := { s with mem := { s.mem with rowErrs := s.mem.rowErrs.del (rowKey st off) } }
      if s.placeUsed x then (if bad then s else s.poisonHome x)
      else { s with mem := { s.mem with poison := s.mem.poison.del x.key } }
    else if s.placeUsed x then s
    else s.retirePlace x
  else s

def execHbmRowRepair (stack off : Nat) (spareLeft : Bool) (s : State) : Host.Outcome State Fault Refusal :=
  .next (hbmRowRepair stack off spareLeft s)

/-! ## DDR5 (R343, R344, R367, R371) -/

/-- Place of an offset of a connector. -/
def connPlace (c off : Nat) : Place := ⟨1, c * 131072 + off / pageBytes⟩

/-- The offset lies in the populated part of a connector in service (R39). -/
def State.connHas (s : State) (c off : Nat) : Bool :=
  decide (c < 4) && decide (s.getF (ddTrained c) = 1) && decide (off < s.getF (ddPages c) * pageBytes)

/-- DD_ECC_ADDR of an error. -/
def State.ddrErrAt (s : State) (c off kind : Nat) : State :=
  ((s.setF (ddEccOffset c) (off / 64 * 64)).setF (ddEccChannel c) (off / 256 % 2)).setF (ddEccKind c) kind

def ddrUncorrected (c off : Nat) (s : State) : State :=
  if s.connHas c off then
    let s := (s.satF (ddEcc c 1) 1).ddrErrAt c off 1
    (s.raise kDdUncorrected c).poisonHome (connPlace c off)
  else s

def execDdrUncorrected (conn off : Nat) (s : State) : Host.Outcome State Fault Refusal := .next (ddrUncorrected conn off s)

def ddrScrubRead (c off : Nat) (r : EccResult) (s : State) : State :=
  if s.connHas c off ∧ s.getF (ddScrubEn c) = 1 then
    match r with
    | .clean => s
    | .ondieCorrected => s
    | .corrected => ((s.satF (ddEcc c 2) 1).ddrErrAt c off 0).raise kDdScrubCorrected c
    | .uncorrected => ddrUncorrected c off s
  else s

def execDdrScrubRead (conn off : Nat) (r : EccResult) (s : State) : Host.Outcome State Fault Refusal :=
  .next (ddrScrubRead conn off r s)

/-! ## Flash and Shale (R346 to R350, R369, R372) -/

/-- Pages of flash that Sluice uses (R346). -/
def flashPages : Nat := 6103515

/-- A sector is fully programmed, and only now holds its new content (R348); in read-only mode the write fails (R349). -/
def flashSectorWriteDone (page sector : Nat) (data : List Byte) (s : State) : State :=
  if page < flashPages ∧ sector < 32 then
    if s.getF fsMode = 2 then s.raise kFsReadOnly (0x100 + page % 4)
    else
      let a := page * pageBytes + sector * sectorBytes
      let m := Memory.writeN (Memory.zero s.mem.flash a sectorBytes) a (data.take sectorBytes)
      { s with mem := { s.mem with flash := m } }.flashWrote ⟨2, page⟩ 1
  else s

def execFlashSectorWriteDone (page sector : Nat) (data : List Byte) (s : State) : Host.Outcome State Fault Refusal :=
  .next (flashSectorWriteDone page sector data s)

/-- A codeword fails every retry: its page is poisoned (R350). -/
def flashUncorrected (page sector : Nat) (s : State) : State :=
  if page < flashPages ∧ sector < 32 then
    let d := page % 4
    ((s.satF (fsUncorrectedCount d) 1).raise kFsUncorrected (4 * d + sector % 4)).poisonHome ⟨2, page⟩
  else s

def execFlashUncorrected (page sector : Nat) (s : State) : Host.Outcome State Fault Refusal := .next (flashUncorrected page sector s)

/-- Shale moves sectors of its own accord; how many is left open (notes/assumptions/24.md). -/
def State.shaleMove (s : State) (d : Nat) : State := (s.addF (fsSectorsProg d) (Config.pick s.free)).fresh

/-- A block is relocated for read disturb or after a retry (R349). -/
def disturbRefresh (d : Nat) (s : State) : State :=
  if d < 4 then ((s.addF (fsRefreshes d) 1).raise kFsDisturbRefresh (0x100 + d)).shaleMove d else s

def execDisturbRefresh (slice _block : Nat) (s : State) : Host.Outcome State Fault Refusal := .next (disturbRefresh slice s)

/-- The patrol reads the next programmed block; a weak one is relocated (R349). -/
def flashPatrol (d : Nat) (weak : Bool) (s : State) : State :=
  if d < 4 ∧ s.getF (fsPatrolEn d) = 1 ∧ weak = true then (s.addF (fsRefreshes d) 1).shaleMove d else s

def execFlashPatrol (slice _block : Nat) (weak : Bool) (s : State) : Host.Outcome State Fault Refusal := .next (flashPatrol slice weak s)

/-- A block that fails a program or an erase is retired and its data moved; the spare capacity that is left, in tenths of a
per cent, is left open (notes/assumptions/24.md). -/
def blockRetired (d : Nat) (s : State) : State :=
  if d < 4 then
    let s := ((s.addF (fsGrownBad d) 1).raise kFsBlockRetired (0x100 + d)).shaleMove d
    let spare := Config.pick s.free % 1001
    let s := (s.fresh).setF fsSpare (spare / 10)
    if spare < 5 then s.setF fsMode 2
    else if spare < 20 ∧ s.getF fsMode = 0 then (s.setF fsMode 1).raise kFsLowSpare (0x100 + d)
    else s
  else s

def execBlockRetired (slice _block : Nat) (s : State) : Host.Outcome State Fault Refusal := .next (blockRetired slice s)

/-- Static data is moved for wear (R349). -/
def staticDataMove (d : Nat) (s : State) : State := if d < 4 then s.shaleMove d else s

def execStaticDataMove (slice _block : Nat) (s : State) : Host.Outcome State Fault Refusal := .next (staticDataMove slice s)

/-! ## Pool caches (R351, R355, R356, R361) -/

/-- Place of a local address in HBM or DDR5. -/
def placeOf (a : Nat) : Place :=
  if a < 0x010000000000 then stackPlace (a / 0x2000000000) (a % 0x2000000000)
  else connPlace ((a - 0x010000000000) / 0x4000000000) ((a - 0x010000000000) % 0x4000000000)

/-- The address lies in a whole page of HBM or in the populated part of a connector (R38, R39). -/
def State.populated (s : State) (a : Nat) : Bool :=
  if a < 0x010000000000 then decide (a % 0x2000000000 < stackLen)
  else if a < 0x020000000000 then s.connHas ((a - 0x010000000000) / 0x4000000000) ((a - 0x010000000000) % 0x4000000000)
  else false

/-- A fill arrives in a way of the requesting partition (R351). -/
def poolCacheFill (p a : Nat) (s : State) : State :=
  if p < 16 ∧ s.populated a ∧ (s.line? a).isNone then s.fillLine p (a / 256) else s

def execPoolCacheFill (part addr : Nat) (s : State) : Host.Outcome State Fault Refusal := .next (poolCacheFill part addr s)

/-- Every dirty line of a range of a partition is written back and stays valid (R355). -/
def State.flushRange (s : State) (p off n : Nat) : State :=
  (pagesOf off n).foldl (fun (s : State) m =>
    match ((s.part p).pages.getD m Page.absent).a with
    | some x =>
      if x.tier = 2 then s
      else
        let las := s.mem.lines.keys.filter (fun la =>
          decide (la * 256 / pageBytes = x.addr / pageBytes ∧
            off / 256 * 256 ≤ m * pageBytes + la * 256 % pageBytes ∧ m * pageBytes + la * 256 % pageBytes < off + n))
        las.foldl (fun (s : State) la => s.writeBack la) s
    | none => s) s

def execPcFlush (part off len : Nat) (s : State) : Host.Outcome State Fault Refusal := .next (s.flushRange part off len)

/-- An uncorrectable error in a line: dirty, its home page is poisoned and nothing is written back; clean, it is refilled
(R356). -/
def pcUncorrected (a : Nat) (s : State) : State :=
  match s.line? a with
  | none => s
  | some l =>
    let d := dieOf a
    if l.dirty then
      let s := ((s.satF (pcEcc d 1) 1).raise kHbPcUncorrected (0x100 + d)).dropLine (a / 256)
      s.poisonHome (placeOf a)
    else
      let s := ((s.satF (pcEcc d 0) 1).raise kHbPcCorrected (0x100 + d)).dropLine (a / 256)
      s.fillLine l.part (a / 256)

def execPcUncorrected (addr : Nat) (s : State) : Host.Outcome State Fault Refusal := .next (pcUncorrected addr s)

/-- An idle cycle scrubs a line (R361). -/
def pcScrub (a : Nat) (r : EccResult) (s : State) : State :=
  if s.getF ⟨pcReg (dieOf a) 0, 0, 1⟩ = 1 ∧ (s.line? a).isSome then
    match r with
    | .clean => s
    | .ondieCorrected => s
    | .corrected => (s.satF (pcEcc (dieOf a) 0) 1).raise kHbPcCorrected (0x100 + dieOf a)
    | .uncorrected => pcUncorrected a s
  else s

def execPcScrub (addr : Nat) (r : EccResult) (s : State) : Host.Outcome State Fault Refusal := .next (pcScrub addr r s)

/-! ## Memory windows (R37 to R46, R352, R382, R523) -/

/-- The scratchpads (R40). -/
def inScratch (a : Nat) : Bool := decide (0x040000000000 ≤ a ∧ a < 0x040040000000)

/-- Every byte of a range lies where the memory windows reach. -/
def State.inWindows (s : State) (a n : Nat) : Bool :=
  let l := a + (n - 1)
  decide (n ≠ 0) && ((inScratch a && inScratch l) ||
    (s.populated a && s.populated l && decide (a / 0x2000000000 = l / 0x2000000000 ∨ 0x010000000000 ≤ a) &&
      decide (a < 0x010000000000 ∨ (a - 0x010000000000) / 0x4000000000 = (l - 0x010000000000) / 0x4000000000)))

/-- Host reads are served outside BOOT (R35, R43). -/
def State.windowsOpen (s : State) : Bool := decide (s.mode ≠ .boot)

/-- Parcels of a range. -/
def parcelsOf (a n : Nat) : List Nat := if n = 0 then [] else (List.range ((a + n - 1) / 256 - a / 256 + 1)).map (fun i => a / 256 + i)

/-- A window read or write looks a parcel up at its home pool cache without allocating a line (R352). -/
def State.lookParcel (s : State) (la : Nat) (write : Bool) : State :=
  if (s.mem.lines.at? la).isSome then (s.addF (pcHit (dieOf (la * 256))) 1).credit (s.pageOwner (la * 256)) 36 1
  else ((s.addF (pcMiss (dieOf (la * 256))) 1).credit (s.pageOwner (la * 256)) 37 1).countParcel (la * 256) write

/-- The bytes that a host read shows: those of a poisoned place are open. -/
def State.seen (s : State) (a n : Nat) (bad : Nat → Bool) (rd : Nat → Byte) : List Byte :=
  (List.range n).map (fun i => if bad (a + i) then Config.poisonByte s.free (a + i) else rd (a + i))

/-- A host read through a memory window (R42, R44, R241, R352). -/
def hostWindowRead (a n : Nat) (s : State) : State :=
  if !s.windowsOpen || !s.inWindows a n then
    { s with host := { s.host with urReads := s.host.urReads + 1 } }.emit (.unsupported 0 a)
  else if inScratch a then
    let r := (a - 0x040000000000) / 0x100000
    let lanes := (s.rill r).poison.filter (fun l => decide (l < a % 0x100000 + n ∧ a % 0x100000 < l + 4))
    let s := lanes.foldl (fun (s : State) l =>
      (s.poisonHit r l {}).beginRecovery (.bank r (l / 16 % 128)) (kSpUncorrected.flint r)) s
    let s := lanes.foldl (fun (s : State) l => (s.ctxsAt r l).foldl (fun (s : State) k => s.recoverCtx k) s) s
    (s.emit (.readData 0 a (s.seen a n (fun x => lanes.contains (x % 0x100000 / 4 * 4)) (Memory.read s.mem.cells))
      (!lanes.isEmpty))).fresh
  else
    let s := (parcelsOf a n).foldl (fun (s : State) la => s.lookParcel la false) s
    let bad := fun (x : Nat) => (s.mem.poison.at? (x / pageBytes)).isSome
    (s.emit (.readData 0 a (s.seen a n bad s.homeByte) ((List.range n).any (fun i => bad (a + i))))).fresh

def execHostWindowRead (addr len : Nat) (s : State) : Host.Outcome State Fault Refusal := .next (hostWindowRead addr len s)

/-- A write that is dropped and counted (R42, R43). -/
def State.dropWrite (s : State) : State := { s with host := { s.host with droppedWrites := s.host.droppedWrites + 1 } }

/-- Write bytes into a scratchpad from outside: lanes written whole become clean; a poisoned lane written in part keeps
its bytes (R242). -/
def State.spadPut (s : State) (r off : Nat) (bs : List Byte) : State :=
  let m : Tab Byte := (List.range bs.length).zip bs
  let split := s.splitLanes r off m
  let ok := Tab.keep m (fun a _ => !(split.contains ((off + a) / 4 * 4)))
  let v := s.rill r
  let s := { s with mem := { s.mem with cells := ok.foldl (fun g x => Memory.write g (spadBase r + off + x.1) x.2) s.mem.cells } }
  let s := if v.poison.isEmpty then s
    else s.setRill r { v with poison := clearRanges v.poison (ok.map (fun x => (off + x.1, 1))) }
  split.foldl (fun (s : State) l => s.poisonHit r l {}) s

/-- A host write through a memory window lands in READY only (R43). -/
def hostWindowWrite (a : Nat) (data : List Byte) (s : State) : State :=
  if s.mode ≠ .ready ∨ !s.inWindows a data.length then s.dropWrite
  else if inScratch a then
    let r := (a - 0x040000000000) / 0x100000
    let n := 0x100000 - a % 0x100000
    let s := s.spadPut r (a % 0x100000) (data.take n)
    if data.length ≤ n then s else s.spadPut (r + 1) 0 (data.drop n)
  else
    let s := (parcelsOf a data.length).foldl (fun (s : State) la => s.lookParcel la true) s
    ((List.range data.length).zip data).foldl (fun (s : State) x => s.homeWrite 0 (a + x.1) x.2) s

def execHostWindowWrite (addr : Nat) (data : List Byte) (s : State) : Host.Outcome State Fault Refusal :=
  .next (hostWindowWrite addr data s)

end Sys2Proof.Machine
end

