-- ==== Sys2Proof/Machine/Wcp.lean ====
section
/-! DEFINITION. Running a WCP command: the checks of R537 that follow the opcode, its place among the commands in
progress, and what its handler answers (R524, R532, R535 to R540). -/

namespace Sys2Proof.Machine

open Sys2Proof

/-- What a command's handler answers. -/
inductive Reply where
  /-- Done with a result. -/
  | ok (s : State) (result : W64)
  /-- Refused: nothing changes. -/
  | fail (c : Cause) (inst : Nat)
  /-- Ended with a cause after it had an effect. -/
  | failed (s : State) (c : Cause) (inst : Nat) (result : W64)
  /-- Under way: an event completes it. -/
  | wait (s : State)
  deriving DecidableEq, Repr

/-- Issuer of an opcode (R539): PF0 only; the bit of byte 16 at which a PARTITION operand stands, when there is one; and
whether that partition must not be NONE (R332, NO_PARTITION). -/
structure Issuer where
  pfOnly : Bool
  partAt : Option Nat
  live : Bool
  deriving DecidableEq, Repr

/-- A command of PF0 alone with a PARTITION operand, or without one; a command of PF0 or of a mapped VF. -/
def pfPart : Issuer := ⟨true, some 0, true⟩
def pfNone : Issuer := ⟨true, none, false⟩
def vfPart : Issuer := ⟨false, some 0, true⟩
def vfNone : Issuer := ⟨false, none, false⟩

/-- The PARTITION operand. -/
def Issuer.operand (i : Issuer) (d : BitVec 512) : Nat := match i.partAt with | some b => dfld d 16 b 4 | none => 0

/-- Partition to which a VF is mapped (R524). -/
def State.partOfVf (s : State) (f : Nat) : Option Nat :=
  (s.parts.find? (fun p => decide (p.2.state ≠ 0 ∧ p.2.vf = f ∧ f ≠ 0))).map (fun p => p.1)

/-- The module state accepts an opcode (R540), and while HELD Grotto carries it out (R627). -/
def State.accepts (s : State) (fn op : Nat) : Bool :=
  if s.pwr.held then
    decide (op = 0x0A01 ∨ op = 0x0A03 ∨ op = 0x0A04) || (decide (op = 0x0B04) && decide (s.mode = .ready ∨ s.mode = .service)) ||
      (decide (op = 0x0B06) && decide (s.mode = .withdrawn))
  else match s.mode with
  | .boot => false
  | .ready => decide (fn = 0 ∧ op ≠ 0x0B06)
  | .service => decide (op ≠ 0x0B06)
  | .withdrawn => decide (fn = 0 ∧ (op = 0x0A01 ∨ op = 0x0A03 ∨ op = 0x0A04 ∨ op = 0x0B06))

/-- Checks 4 to 6 of R537. -/
def State.gate (s : State) (i : Issuer) (fn : Nat) (d : BitVec 512) : Option Cause :=
  if fn ≠ 0 ∧ (i.pfOnly = true ∨ i.operand d ≠ 0) then some kCmNotPrivileged
  else if fn ≠ 0 ∧ (s.partOfVf fn).isNone then some kCmNotMapped
  else if !s.accepts fn (dOpcode d) then some kCmBadState
  else none

/-- The partition that a command acts on: a VF's own, or the operand of PF0; 0xFF for none. -/
def State.opPart (s : State) (i : Issuer) (fn : Nat) (d : BitVec 512) : Nat :=
  if fn = 0 then (match i.partAt with | some _ => i.operand d | none => 0xFF) else (s.partOfVf fn).getD 0xFF

/-- A TAG of R535 that is reserved. -/
def tagReserved (d : BitVec 512) : Bool := decide (0xFF000000 ≤ (dTag d).toNat)

/-- A descriptor of a function can be taken (R532, R533): no compute reset is under way (R618), and while HELD only those
of PF0 are (R627). -/
def State.canTake (s : State) (fn : Nat) : Bool :=
  decide (s.host.inProgress.length < 256 ∧ 0 < s.freeEntries fn) && s.pwr.resetting.isNone && (!s.pwr.held || decide (fn = 0))

/-- A command joins those in progress. -/
def State.enroll (s : State) (i : Issuer) (fn : Nat) (d : BitVec 512) (session : Option (Nat × List Byte)) : State :=
  let c : Cmd := { fn := fn, d := d, order := s.host.order, started := false, part := s.opPart i fn d, a := 0, b := 0,
                   drop := false, session := session }
  { s with host := { s.host with inProgress := s.host.inProgress ++ [c], order := s.host.order + 1 } }

/-- Take a descriptor: it is in progress until its completion is written (R532). -/
def State.take (s : State) (i : Issuer) (fn : Nat) (d : BitVec 512) : State :=
  (s.setMailbox fn { s.mailbox fn with taken := (s.mailbox fn).taken + 1 }).enroll i fn d none

/-- A command in progress may start: every one taken before it has started (R538), and under FENCE every earlier one of
its mailbox has completed (R535). -/
def State.canStart (s : State) (c : Cmd) : Bool :=
  s.host.inProgress.all (fun e => decide (c.order ≤ e.order) || (e.started && !(dFence c.d && decide (e.fn = c.fn ∧ e.session.isSome = c.session.isSome))))

/-- Act on a handler's answer. -/
def Reply.settle (r : Reply) (s : State) (c : Cmd) : State :=
  match r with
  | .ok s v => s.finish c 0 v
  | .fail k i => s.failCmd c k i c.part
  | .failed s k i v => s.failCmd c k i c.part v
  | .wait s => s

/-- Start a command in progress. -/
def State.startCmd (s : State) (i : Issuer) (c : Cmd) (handler : State → Cmd → Reply) : State :=
  let s := s.updCmd c.order (fun c => { c with started := true })
  let c := { c with started := true }
  if i.live ∧ (s.part c.part).state = 0 then s.failCmd c kSwNoPartition (0x800 + c.part) c.part
  else (handler s c).settle s c

/-- A WCP command: one that was taken and waits starts now; another is taken, checked by R537 and started. -/
def State.runWcp (s : State) (i : Issuer) (fn : Nat) (d : BitVec 512) (handler : State → Cmd → Reply) : State :=
  match s.host.inProgress.find? (fun c => decide (c.fn = fn ∧ c.d = d ∧ c.started = false ∧ c.session = none)) with
  | some c => if s.canStart c && s.pwr.resetting.isNone then s.startCmd i c handler else s
  | none =>
    if 16 ≤ fn ∨ s.canTake fn = false then s
    else if tagReserved d then s.raise kWhBadTag fn { fn := fn }
    else
      let k := s.gate i fn d
      let s := s.take i fn d
      match s.host.inProgress.getLast? with
      | none => s
      | some c =>
        match k with
        | some k => s.failCmd c k fn c.part
        | none => if s.canStart c then s.startCmd i c handler else s

/-- Malformed operands where a chapter names no cause of its own (R537). -/
def badOperand (c : Cmd) : Reply := .fail kCmBadOperand c.fn

/-- Write bytes to host memory of the issuing function (R533). -/
def State.hostWrite (s : State) (a : Nat) (bs : List Byte) : State :=
  { s with mem := { s.mem with host := Memory.writeN s.mem.host a bs } }

end Sys2Proof.Machine
end

