-- ==== Sys2Proof/Machine/Streams.lean ====
section
/-! DEFINITION. The stream commands (R270, R273, R277 to R281). -/

namespace Sys2Proof.Machine

open Sys2Proof

/-! ## The corrections C1 and C2 (R273) -/

/-- A value with a long significand cut to about 600 bits, which never moves an FP32 result. -/
def Val.trim : Val → Val
  | .fin n m e =>
    let l := Nat.log2 m
    if 600 ≤ l then .fin n (m / 2 ^ (l - 600)) (e + ((l - 600 : Nat) : Int)) else .fin n m e
  | v => v

/-- v to the power n, bits of n from the lowest. -/
def powGo : Nat → Nat → Val → Val → Val
  | 0, _, _, acc => acc
  | f + 1, n, v, acc =>
    if n = 0 then acc
    else powGo f (n / 2) (mulV v v).1.trim (if n % 2 = 1 then (mulV acc v).1.trim else acc)

/-- 1 ÷ (1 − BETA^STEP), rounded once to FP32; 1.0 when STEP is 0 (R273). -/
def correction (beta step : Nat) : Nat :=
  if step = 0 then 0x3F800000
  else
    let one : Val := .fin false 1 0
    let p := powGo 33 step (fp32.decode beta) one
    (fp32.round .rne false (divV one (subV one p).1).1).1

/-! ## `stream.open` (R270, R278) -/

def streamOpenRow : Issuer := ⟨false, some 4, true⟩

/-- Entries of a partition that are not FREE (R257). -/
def State.entriesOf (s : State) (p : Nat) : Nat := (s.streams.filter (fun e => decide (eState e.2 ≠ 0 ∧ ePart e.2 = p))).length

/-- Lowest FREE entry. -/
def State.freeEntry (s : State) : Option Nat := (List.range 16384).find? (fun n => decide (eState (s.entry n) = 0))

/-- The operands of `stream.open` are in range. -/
def openFieldsOk (d : BitVec 512) : Bool :=
  let gen := decide (dfld d 16 0 1 = 1)
  dRestZero d [(16, 0, 2), (16, 4, 4), (17, 0, 8), (18, 0, 4), (19, 0, 8), (20, 0, 32), (24, 0, 44), (32, 0, 64), (40, 0, 32),
    (44, 0, 14), (44, 15, 1)] &&
  (if gen then decide (dfld d 16 1 1 = 0 ∧ dfld d 17 0 8 = 0 ∧ dfld d 18 0 4 = 0 ∧ dfld d 19 0 8 = 0)
   else
    decide (1 ≤ dfld d 17 0 8 ∧ dfld d 17 0 8 ≤ 64) &&
    decide (dfld d 18 0 4 = 0 ∨ dfld d 18 0 4 = 2 ∨ dfld d 18 0 4 = 3) &&
    decide (-32 ≤ toSigned 8 (dfld d 19 0 8) ∧ toSigned 8 (dfld d 19 0 8) ≤ 31) &&
    decide (dfld d 20 0 32 = 0 ∧ dfld d 40 0 32 = 0 ∧ dfld d 44 0 16 = 0))

/-- The entry that `stream.open` makes of a FREE one. -/
def openedEntry (old : BitVec 1024) (p : Nat) (d : BitVec 512) : BitVec 1024 :=
  let e : BitVec 1024 := 0
  let e := eSet e 0 0 3 1
  let e := eSet e 0 3 1 (dfld d 16 0 1)
  let e := eSet e 0 4 4 p
  let e := eSet e 2 0 16 (eGen old + 1)
  let e := eSet e 4 0 8 (dfld d 17 0 8)
  let e := eSet e 5 0 4 (dfld d 18 0 4)
  let e := eSet e 6 0 8 (dfld d 19 0 8)
  let e := eSet e 8 0 44 (dfld d 24 0 44)
  let e := eSet e 16 0 64 (dfld d 32 0 64)
  let e := eSet e 60 0 32 (dfld d 20 0 32)
  let e := eSet e 80 0 32 (dfld d 40 0 32)
  eSet e 84 0 16 (dfld d 44 0 16)

/-- A page of flash is brought up as for any other access, when its tiers have room (R270). -/
def State.bringUp (s : State) (p off : Nat) : State :=
  match ((s.part p).page off).a with
  | some x =>
    if x.tier = 2 then
      match s.stageInto p (off / pageBytes) ((s.part p).demandTiers (off / pageBytes)) with
      | some s => s.stagingDone p (off / pageBytes)
      | none => s
    else s
  | none => s

/-- Tags of the matrices present in an adapter object: partition offset, target, direction (R269). -/
def State.adapterTags (s : State) (p base : Nat) : List (Nat × Nat × Nat) :=
  (List.range 256).flatMap (fun t => [0, 1].filterMap (fun dir =>
    let o := s.partLe p (base + 8 * t + 4 * dir) 4
    if o = 0 then none else some (base + o, t, dir)))

/-- A tag is in place: inside the object, and with the rank that its direction asks for (R270). -/
def State.tagOk (s : State) (p base rank : Nat) (x : Nat × Nat × Nat) : Bool :=
  decide ((x.1 - base) % 16 = 0) && (s.part p).inObject x.1 16 && decide ((s.part p).objAt base = (s.part p).objAt x.1) &&
  decide (s.partLe p (x.1 + (if x.2.2 = 0 then 8 else 10)) 2 = rank)

/-- Write STREAM, GEN, TARGET and DIR into a tag (R267, R270). -/
def State.stampTag (s : State) (p n gen : Nat) (x : Nat × Nat × Nat) : State :=
  (s.bringUp p x.1).partWriteGo p x.1 (leBytes 2 n ++ leBytes 2 gen ++ leBytes 1 x.2.1 ++ leBytes 1 x.2.2)

def streamOpenGo (s : State) (c : Cmd) : Reply :=
  let d := c.d
  let p := c.part
  let gen := decide (dfld d 16 0 1 = 1)
  let link := dfld d 44 0 14
  let linked := decide (dfld d 44 15 1 = 1)
  let e := s.entry link
  if !openFieldsOk d then .fail kStBadField 0xFFF
  else if linked && decide (c.fn ≠ 0) && decide (eState e = 0 ∨ ePart e ≠ p) then .fail kStNotOwner 0xFFF
  else if linked && !(decide (eState e = 1 ∧ ePart e = p) && !eGeneration e && gen) then .fail kStBadField 0xFFF
  else if ((s.part p).objAt (dfld d 24 0 44)).isNone then .fail kStBadField 0xFFF
  else
    match s.freeEntry with
    | none => .fail kStNoEntry 0xFFF
    | some n =>
      if (s.part p).grant.streams ≤ s.entriesOf p then .fail kStNoEntry 0xFFF
      else
        let new := openedEntry (s.entry n) p d
        let r := BitVec.ofNat 64 (n + eGen new * 65536)
        if dfld d 16 1 1 = 1 then
          let tags := s.adapterTags p (dfld d 24 0 44)
          if tags.all (s.tagOk p (dfld d 24 0 44) (dfld d 17 0 8)) then
            .ok (tags.foldl (fun (s : State) x => s.stampTag p n (eGen new) x) (s.setEntry n new)) r
          else .fail kStBadField 0xFFF
        else .ok (s.setEntry n new) r

def execStreamOpen (fn : Nat) (d : BitVec 512) (s : State) : Host.Outcome State Fault Refusal :=
  .next (s.runWcp streamOpenRow fn d streamOpenGo)

/-! ## `stream.update` (R279) -/

/-- The entry is another partition's for a VF (R277). -/
def State.notOwner (s : State) (c : Cmd) (n : Nat) : Bool :=
  decide (c.fn ≠ 0) && decide (eState (s.entry n) = 0 ∨ some (ePart (s.entry n)) ≠ s.partOfVf c.fn)

/-- The entry after an update by MASK. -/
def updatedEntry (e : BitVec 1024) (d : BitVec 512) : BitVec 1024 :=
  let mask := dfld d 18 0 16
  let v := dfld d 20 0 32
  let e := if bit mask 0 then eSet e 16 0 64 (dfld d 24 0 64) else e
  let e := if bit mask 1 then
      let e := eSet e 24 0 160 (dfld d 32 0 160)
      eSet e 52 0 32 (dfld d 52 0 32)
    else e
  let e := if bit mask 2 then
      if eGeneration e then
        let e := eSet e 56 0 32 v
        if eState e = 3 ∧ v < eMaxPos e then eSet e 0 0 3 1 else e
      else eSet e 56 0 32 (eStep e + v)
    else e
  let e := if !eGeneration e && (bit mask 1 || bit mask 2) then
      let e := eSet e 44 0 32 (correction (eFld e 28 0 32) (eStep e))
      eSet e 48 0 32 (correction (eFld e 32 0 32) (eStep e))
    else e
  let e := if bit mask 3 then eSet e 64 0 128 0 else e
  if bit mask 4 then eSet e 80 0 32 (dfld d 56 0 32) else e

/-- Norm contributions of every copy dropped (R279). -/
def State.clearCopies (s : State) (n : Nat) : State :=
  (List.range cascadeCount).foldl (fun (s : State) c =>
    match s.copy? c n with
    | some x => s.setCopies c ((s.copies c).put n x.clean)
    | none => s) s

def streamUpdateGo (s : State) (c : Cmd) : Reply :=
  let d := c.d
  let n := dfld d 16 0 14
  let mask := dfld d 18 0 16
  let e := s.entry n
  if dfld d 16 14 2 ≠ 0 ∨ 32 ≤ mask ∨ dfld d 60 0 32 ≠ 0 then .fail kStBadField 0xFFF
  else if s.notOwner c n then .fail kStNotOwner 0xFFF
  else if !(decide (eState e = 1 ∨ eState e = 3)) then .fail kStNotOpen 0xFFF
  else if (eGeneration e && (bit mask 1 || bit mask 3)) || (!eGeneration e && bit mask 4) then .fail kStBadField 0xFFF
  else
    let s := if bit mask 3 then s.clearCopies n else s
    .ok ((s.setEntry n (updatedEntry e d)).updateCopies n) 0

def execStreamUpdate (fn : Nat) (d : BitVec 512) (s : State) : Host.Outcome State Fault Refusal :=
  .next (s.runWcp vfNone fn d streamUpdateGo)

/-! ## `stream.close` (R280) -/

/-- An OPEN or DONE generation stream links to the entry. -/
def State.isLinked (s : State) (n : Nat) : Bool :=
  s.streams.any (fun e => decide (eState e.2 = 1 ∨ eState e.2 = 3) && eGeneration e.2 && eLinkValid e.2 && decide (eLink e.2 = n))

def streamCloseGo (s : State) (c : Cmd) : Reply :=
  let d := c.d
  let n := dfld d 16 0 14
  let e := s.entry n
  if dfld d 16 14 2 ≠ 0 ∨ dRestZero d [(16, 0, 16), (18, 0, 1)] = false then .fail kStBadField 0xFFF
  else if s.notOwner c n then .fail kStNotOwner 0xFFF
  else if eState e = 0 ∨ eState e = 2 then .fail kStNotOpen 0xFFF
  else if !eGeneration e && s.isLinked n then .fail kStLinked 0xFFF
  else
    let s := if eState e = 4 then s.clearCopies n else s
    let s := s.setEntry n (eSet e 0 0 3 2)
    if s.released n then .ok (s.finishClose n (dfld d 18 0 1 = 1)) (BitVec.ofNat 64 (eStep (s.writeCopies n |>.entry n)))
    else .wait s

def execStreamClose (fn : Nat) (d : BitVec 512) (s : State) : Host.Outcome State Fault Refusal :=
  .next (s.runWcp vfNone fn d streamCloseGo)

/-! ## `stream.query` (R281) -/

/-- One entry of a query: its norms are written back, it goes to host memory, and NORM_CLR zeroes them. -/
def State.queryEntry (s : State) (fn addr n : Nat) (clr : Bool) : State :=
  let e0 := s.entry n
  if fn ≠ 0 ∧ (eState e0 = 0 ∨ some (ePart e0) ≠ s.partOfVf fn) then s.hostWrite addr (List.replicate 128 0)
  else
    let s := s.writeCopies n
    let e := s.entry n
    let s := s.hostWrite addr (leBytes 128 e.toNat)
    if clr ∧ !eGeneration e ∧ eState e ≠ 0 then s.setEntry n (eSet e 64 0 128 0) else s

def streamQueryGo (s : State) (c : Cmd) : Reply :=
  let d := c.d
  let n := dfld d 16 0 14
  let count := dfld d 20 0 16
  let addr := dfld d 24 0 64
  if dRestZero d [(16, 0, 14), (18, 0, 1), (20, 0, 16), (24, 0, 64)] = false ∨ count = 0 ∨ 256 < count ∨ 16384 < n + count ∨
      addr % 128 ≠ 0 then .fail kStBadField 0xFFF
  else .ok ((List.range count).foldl (fun (s : State) i => s.queryEntry c.fn (addr + 128 * i) (n + i) (dfld d 18 0 1 = 1)) s) 0

def execStreamQuery (fn : Nat) (d : BitVec 512) (s : State) : Host.Outcome State Fault Refusal :=
  .next (s.runWcp vfNone fn d streamQueryGo)

end Sys2Proof.Machine
end

