-- ==== Sys2Proof/Machine/Pages.lean ====
section
/-! DEFINITION. Page events and the object and image commands of Sluice (R376 to R413). -/

namespace Sys2Proof.Machine

open Sys2Proof

/-! ## Shared checks (R404) -/

/-- INSTANCE of a cause of partition `p` (R420). -/
def partInst (p : Nat) : Nat := 0x800 + p

def slFail (c : Cause) (p : Nat) : Reply := .fail c (partInst p)

/-- An object of a partition whose base is given, and that is not being freed. -/
def State.object? (s : State) (p base : Nat) : Option Obj :=
  match (s.part p).objects.at? base with
  | some o => if o.freeing then none else some o
  | none => none

def State.setObj (s : State) (p base : Nat) (o : Obj) : State :=
  s.setPart p { s.part p with objects := (s.part p).objects.put base o }

/-! ## Moves that a command asks for (R386, R407, R408) -/

/-- What a command does next with a page. -/
inductive MoveStep where
  | skip (s : State)
  | moved (s : State)
  | wait (s : State)
  | full
  deriving DecidableEq, Repr

/-- Free the home copy of a staged page; its upper copy becomes single-home. -/
def State.collapse (s : State) (p n : Nat) : State :=
  let g := (s.part p).pages.getD n Page.absent
  match g.b with
  | some b => (s.freePlace b).setPage p (n * pageBytes) { g with b := none, dirty := 0, state := .resident }
  | none => s

/-- A page enters MOVING toward a tier (R386). -/
def State.startMove (s : State) (p n tier level : Nat) : MoveStep :=
  match s.placeIn p tier ((s.part p).rankOf n) with
  | none => .full
  | some (s, y) =>
    let g := (s.part p).pages.getD n Page.absent
    .wait (s.setPage p (n * pageBytes) { g with state := .moving, dest := some y, level := level, arrived := 0 })

/-- Bring a page into a tier; `pin` asks for it as the only copy. -/
def State.moveStep (s : State) (p n tier order : Nat) (pin : Bool) : MoveStep :=
  let g := (s.part p).pages.getD n Page.absent
  match g.state, g.a with
  | .absent, _ => .skip s
  | .staging, _ => .wait s
  | .moving, _ => .wait s
  | _, none => .skip s
  | _, some a =>
    if a.tier = tier then .skip (if pin then s.collapse p n else s)
    else match g.b with
      | some b =>
        if s.held p n then .wait s
        else if b.tier = tier then .moved (s.dropUpper p n)
        else (s.dropUpper p n).startMove p n tier (10 + order)
      | none => s.startMove p n tier (10 + order)

/-- Object offset, first page, page count and tier of a moving command. -/
def Cmd.moveArgs (c : Cmd) (s : State) : Nat × Nat × Nat × Nat × Bool :=
  let base := dfld c.d 24 0 44
  if dOpcode c.d = 0x0204 then (base, dfld c.d 32 0 32, dfld c.d 40 0 32, dfld c.d 17 0 8, false)
  else (base, 0, match s.object? c.part base with | some o => o.pages | none => 0, dfld c.d 18 0 2 - 1, true)

/-- The hints that MASK of `object.hint` selects (R407); WINDOW and LAYERS wait for a step boundary while a launch
runs. -/
def layerTable (pages n : Nat) : List Nat :=
  if n = 0 then [] else (List.range n).map (fun i => i * ((pages + n - 1) / n))

def State.applyHints (s : State) (c : Cmd) : State :=
  let d := c.d
  let mask := dfld d 17 0 4
  let base := dfld d 24 0 44
  match s.object? c.part base with
  | none => s
  | some o =>
    let idle := (s.part c.part).launches.isEmpty
    let o := if bit mask 0 then { o with pin := dfld d 18 0 2 } else o
    let o := if bit mask 2 then { o with access := dfld d 19 0 2 } else o
    let w := dfld d 18 4 4
    let t := layerTable o.pages (dfld d 20 0 16)
    let o := if bit mask 1 then (if idle then { o with window := w } else { o with nextWindow := some w }) else o
    let o := if bit mask 3 then (if idle then { o with layers := t } else { o with nextLayers := some t }) else o
    s.setObj c.part base o

/-- Go on with a moving command, page by page. -/
def State.moveGo (s : State) (order : Nat) : Nat → State
  | 0 => s
  | fuel + 1 =>
    match s.host.inProgress.find? (fun c => decide (c.order = order)) with
    | none => s
    | some c =>
      let (base, first, count, tier, pin) := c.moveArgs s
      if count ≤ c.a then
        if dOpcode c.d = 0x0204 then s.finish c 0 (BitVec.ofNat 64 c.b) else (s.applyHints c).finish c 0 0
      else
        let n := base / pageBytes + first + c.a
        match s.moveStep c.part n tier order pin with
        | .skip s => (s.updCmd order (fun c => { c with a := c.a + 1 })).moveGo order fuel
        | .moved s => (s.updCmd order (fun c => { c with a := c.a + 1, b := c.b + 1 })).moveGo order fuel
        | .wait s => s
        | .full => s.failCmd c kSlNoSpace (partInst c.part) c.part

/-- Enough steps for every page of a partition. -/
def State.moveFuel (s : State) (p : Nat) : Nat := (s.part p).objects.vals.foldl (fun n o => n + o.pages) 2

/-! ## Quotas (R389 to R391) -/

/-- Tiers that MASK selects. -/
def quotaTiers (mask : Nat) : List Nat := [0, 1, 2].filter (fun t => bit mask t)

/-- Reclaim in a tier down to its quota, whatever the rank (R391). -/
def State.reclaimQuota (s : State) (p tier : Nat) : State :=
  s.reclaimTo p tier 99 ((s.part p).quota tier) (2 * (s.part p).pages.length + 1)

/-- Go on with a `quota.set`: it completes when use is within the quotas. -/
def State.quotaGo (s : State) (c : Cmd) : State :=
  let ts := quotaTiers (dfld c.d 17 0 3)
  let s := ts.foldl (fun (s : State) t => s.reclaimQuota c.part t) s
  if ts.all (fun t => decide ((s.part c.part).use t ≤ (s.part c.part).quota t)) then s.finish c 0 0 else s

/-- Go on with every command and operation that waits for pages. -/
def State.sweepSluice (s : State) : State :=
  let s := s.sweepFrees
  let s := (s.host.inProgress.filter (fun c => c.started)).foldl (fun (s : State) c =>
    if dOpcode c.d = 0x0204 ∨ (dOpcode c.d = 0x0203 ∧ bit (dfld c.d 17 0 4) 0) then s.moveGo c.order (s.moveFuel c.part)
    else if dOpcode c.d = 0x0206 then s.quotaGo c
    else s) s
  s.parts.keys.foldl (fun (s : State) p => s.retryOps p) s

/-! ## Page events -/

/-- A translation-cache miss is filled from the page record, in place of another entry when the cache is full (R376). -/
def translationMissFill (die p off : Nat) (s : State) : State :=
  let n := off / pageBytes
  let l := s.mem.xlat.getD die []
  if 4 ≤ die ∨ ((s.part p).objOf n).isNone ∨ l.contains (p, n) then s
  else
    let l := if l.length < 4096 then l else match s.choose l with
      | some x => l.filter (fun y => decide (y ≠ x))
      | none => l
    let s := s.fresh
    { s with mem := { s.mem with xlat := s.mem.xlat.put die (l ++ [(p, n)]) } }

def execTranslationMissFill (die part off : Nat) (s : State) : Host.Outcome State Fault Refusal :=
  .next (translationMissFill die part off s)

/-- Operations of this module that have not been translated and write page `n`. -/
def State.wanted (s : State) (p n : Nat) : List (Nat × Nat) :=
  (s.ctxs.filter (fun c => decide (keyPart c.1 = p))).flatMap
    (fun c => (c.2.slots.filter (fun x => !x.2.translated && !x.2.refused && !x.2.done && !x.2.op.remote && x.2.op.writes &&
      x.2.op.pages.contains n)).map (fun x => (c.1, x.1)))

/-- The first copy of an ABSENT page that a write waits for is allocated (R375, R378). -/
def pageFirstAllocation (p off : Nat) (s : State) : State :=
  let n := off / pageBytes
  match (s.part p).objOf n with
  | none => s
  | some o =>
    if o.2.loading ∨ o.2.freeing ∨ ((s.part p).page off).state ≠ .absent ∨ (s.wanted p n).isEmpty then s
    else match s.firstCopy p (n * pageBytes) with
      | some s => s.retryOps p
      | none => s

def execPageFirstAllocation (part off : Nat) (s : State) : Host.Outcome State Fault Refusal := .next (pageFirstAllocation part off s)

/-- Every sector of a STAGING page has arrived (R383). -/
def pageStagingDone (p off : Nat) (s : State) : State :=
  let n := off / pageBytes
  if ((s.part p).page off).state = .staging then (s.stagingDone p n).sweepSluice else s

def execPageStagingDone (part off : Nat) (s : State) : Host.Outcome State Fault Refusal := .next (pageStagingDone part off s)

/-- The dirty sectors of a WRITING_BACK page are written home; the page stays staged (R383, R385, R440). -/
def pageWriteBackDone (p off : Nat) (s : State) : State :=
  let n := off / pageBytes
  let g := (s.part p).page off
  if g.state = .writingBack then (s.writeSectors p n g).sweepSluice else s

def execPageWriteBackDone (part off : Nat) (s : State) : Host.Outcome State Fault Refusal := .next (pageWriteBackDone part off s)

/-- A MOVING page that nothing holds is written back and copied to its new place (R386, steps 2 to 4). -/
def pageMove (p off : Nat) (s : State) : State :=
  let n := off / pageBytes
  let g := (s.part p).page off
  match g.a, g.dest with
  | some x, some y =>
    if g.state = .moving ∧ !s.held p n then
      let s := (s.flushPage x true).copyPlace x y
      let g := (s.part p).page off
      s.setPage p (n * pageBytes) { g with arrived := BitVec.allOnes 32 }
    else s
  | _, _ => s

def execPageMove (part off : Nat) (s : State) : Host.Outcome State Fault Refusal := .next (pageMove part off s)

/-- The record takes the new place, and the old copy is freed (R386, steps 5 and 6). -/
def pageMoveDone (p off : Nat) (s : State) : State :=
  let n := off / pageBytes
  let g := (s.part p).page off
  match g.dest with
  | some y =>
    if g.state = .moving ∧ g.arrived = BitVec.allOnes 32 then
      let s := s.movePage p n y
      let s := if 10 ≤ g.level then s.updCmd (g.level - 10) (fun c => { c with a := c.a + 1, b := c.b + 1 }) else s
      s.sweepSluice
    else s
  | none => s

def execPageMoveDone (part off : Nat) (s : State) : Host.Outcome State Fault Refusal := .next (pageMoveDone part off s)

/-- Reclaim in the background above 15/16 of a quota (R388); above the quota itself, as `quota.set` asks (R391). -/
def backgroundReclaim (p tier : Nat) (s : State) : State :=
  let q := s.part p
  if tier < 3 ∧ 15 * q.quota tier < 16 * q.use tier then
    (if q.quota tier < q.use tier then s.reclaimQuota p tier
     else s.reclaimTo p tier 11 (15 * q.quota tier / 16) (q.pages.length + 1)).sweepSluice
  else s

def execBackgroundReclaim (part tier : Nat) (s : State) : Host.Outcome State Fault Refusal := .next (backgroundReclaim part tier s)

/-! ## Waits and their causes (R396, R397, R426, R437, R506) -/

/-- Why an access to page `m` waits, by the order of R396: 1 QUOTA, 2 MOVE, 3 IMAGE, 4 WINDOW, 5 DEMAND; 0 when it does not
wait. -/
def State.pageWait (s : State) (p m : Nat) (write : Bool) : Nat :=
  let q := s.part p
  match q.objOf m with
  | none => 0
  | some o =>
    let g := q.pages.getD m Page.absent
    if o.2.loading then 3
    else match s.pageUse p m write with
      | .ready => 0
      | .stage => if (s.stageInto p m (q.demandTiers m)).isNone then 1 else 5
      | .wait =>
        match g.state with
        | .moving => 2
        | .absent => if (s.firstCopy p (m * pageBytes)).isNone then 1 else 5
        | .staging => if q.inWindow m && (match g.a with | some x => decide (x.tier = 0) | none => false) then 4 else 5
        | _ => 0

/-- Why an operation of a context waits: 6 for a bucket's range, 7 at an epoch fence, else the first cause of R396 over its
pages. -/
def State.slotWait (s : State) (p : Nat) (c : Context) (z : Slot) : Nat :=
  if z.done || z.translated || z.refused || z.op.remote || !(s.part p).mapped z.op then 0
  else if z.op.pages.any (fun m => decide (s.fence p c.launch m z.op.epoch = .wait)) then 7
  else if z.op.pages.any (fun m => decide (s.bucketPass p m z.op.writes = .wait)) then 6
  else (z.op.pages.map (fun m => s.pageWait p m z.op.writes)).foldl (fun a b => if a = 0 then b else if b = 0 then a else min a b) 0

/-- An operation that has waited for QUOTA for QUOTA_WAIT ms completes with QUOTA_STARVED (R397). -/
def quotaStarved (p c n : Nat) (s : State) : State :=
  let k := ctxKey p c
  match (s.ctx? k).bind (fun x => x.slots.at? n) with
  | none => s
  | some z =>
    let ms := max 1 (s.getF slQuotaWait)
    let now1 := match s.ctx? k with | some x => decide (s.slotWait p x z = 1) | none => false
    let late := match z.quotaSince with | some t => decide (t + nsU (ms * 1000000) ≤ s.now) | none => false
    if now1 && late then
      (s.updSlot k n (fun z => { z with refused := true, status := kSlQuotaStarved.flint (partInst p) })).endSlot k n
    else s

def execQuotaStarved (part ctx slot : Nat) (s : State) : Host.Outcome State Fault Refusal := .next (quotaStarved part ctx slot s)

/-! ## `object.declare`, `object.free` (R405, R406) -/

/-- A TIER_PIN that a role allows (R378). -/
def pinOk (role pin : Nat) : Bool := !(decide (pin = 3) && decide (role = 3 ∨ role = 5 ∨ role = 6 ∨ role = 7))

/-- Pages of a declared object: LAYERS layers of equal length, each rounded up to whole pages. -/
def declaredPages (size layers : Nat) : Nat :=
  if layers = 0 then (size + pageBytes - 1) / pageBytes
  else layers * (((size + layers - 1) / layers + pageBytes - 1) / pageBytes)

def objectDeclareGo (s : State) (c : Cmd) : Reply :=
  let d := c.d
  let p := c.part
  let role := dfld d 17 0 4
  let pin := dfld d 18 0 2
  let access := dfld d 19 0 2
  let layers := dfld d 20 0 16
  let size := dfld d 24 0 44
  if dRestZero d [(16, 0, 4), (17, 0, 4), (18, 0, 2), (18, 4, 4), (19, 0, 2), (20, 0, 16), (24, 0, 44)] = false ∨
      role = 6 ∨ role = 7 ∨ 10 ≤ role ∨ access = 3 ∨ 256 < layers ∨ size = 0 ∨ pinOk role pin = false then slFail kSlBadHint p
  else if 65536 ≤ (s.part p).objects.length then slFail kSlObjectLimit p
  else
    let n := declaredPages size layers
    let o := { Obj.plain n role with pin := pin, access := access, window := dfld d 18 4 4, layers := layerTable n layers }
    match s.declare p o with
    | some (s, b) => .ok s (BitVec.ofNat 64 (b / pageBytes))
    | none => slFail kSlNoSpace p

def execObjectDeclare (fn : Nat) (d : BitVec 512) (s : State) : Host.Outcome State Fault Refusal :=
  .next (s.runWcp vfPart fn d objectDeclareGo)

def objectFreeGo (s : State) (c : Cmd) : Reply :=
  let p := c.part
  let base := dfld c.d 24 0 44
  if dRestZero c.d [(16, 0, 4), (24, 0, 44)] = false then slFail kSlBadHint p
  else match s.object? p base with
    | none => slFail kSlBadObject p
    | some o =>
      if s.objBusy p base none then slFail kSlObjectBusy p
      else if s.objHeld p base then
        .wait ((s.updCmd c.order (fun c => { c with a := base })).setObj p base { o with freeing := true })
      else .ok (s.freeNow p base) 0

def execObjectFree (fn : Nat) (d : BitVec 512) (s : State) : Host.Outcome State Fault Refusal :=
  .next (s.runWcp vfPart fn d objectFreeGo)

/-! ## `object.hint`, `object.move` (R407, R408) -/

/-- The commitment still holds with an object changed (R390). -/
def State.fitsWith (s : State) (p base : Nat) (o : Obj) : Bool :=
  ({ s.part p with objects := (s.part p).objects.put base o } : Part).fits

def objectHintGo (s : State) (c : Cmd) : Reply :=
  let d := c.d
  let p := c.part
  let base := dfld d 24 0 44
  let mask := dfld d 17 0 4
  if dRestZero d [(16, 0, 4), (17, 0, 4), (18, 0, 2), (18, 4, 4), (19, 0, 2), (20, 0, 16), (24, 0, 44)] = false ∨
      dfld d 19 0 2 = 3 ∨ 256 < dfld d 20 0 16 then slFail kSlBadHint p
  else match s.object? p base with
    | none => slFail kSlBadObject p
    | some o =>
      let pin := dfld d 18 0 2
      if bit mask 0 && !pinOk o.role pin then slFail kSlBadHint p
      else
        let access := if bit mask 2 then dfld d 19 0 2 else o.access
        let o' := { o with pin := if bit mask 0 then pin else o.pin, access := access }
        if !s.fitsWith p base o' then slFail kSlNoSpace p
        else if bit mask 0 && decide (pin ≠ 0) then .wait (s.moveGo c.order (s.moveFuel p))
        else .ok (s.applyHints c) 0

def execObjectHint (fn : Nat) (d : BitVec 512) (s : State) : Host.Outcome State Fault Refusal :=
  .next (s.runWcp vfPart fn d objectHintGo)

def objectMoveGo (s : State) (c : Cmd) : Reply :=
  let d := c.d
  let p := c.part
  let tier := dfld d 17 0 8
  if dRestZero d [(16, 0, 4), (17, 0, 8), (24, 0, 44), (32, 0, 32), (40, 0, 32)] = false ∨ 3 ≤ tier then slFail kSlBadHint p
  else match s.object? p (dfld d 24 0 44) with
    | none => slFail kSlBadObject p
    | some o =>
      if !(roleTiers o.role o.access).contains tier then slFail kSlBadHint p
      else if dfld d 40 0 32 = 0 ∨ o.pages < dfld d 32 0 32 + dfld d 40 0 32 then slFail kSlBadObject p
      else if o.pin ≠ 0 then .ok s 0
      else .wait (s.moveGo c.order (s.moveFuel p))

def execObjectMove (fn : Nat) (d : BitVec 512) (s : State) : Host.Outcome State Fault Refusal :=
  .next (s.runWcp vfPart fn d objectMoveGo)

/-! ## `object.query`, `quota.set` (R409, R410) -/

/-- Code of a page state (R409). -/
def PState.code : PState → Nat
  | .absent => 0
  | .resident => 1
  | .staging => 2
  | .writingBack => 3
  | .moving => 4

/-- The 128-bit record of a page. -/
def State.pageRecord (s : State) (p n : Nat) (o : Obj) (vf : Bool) : Nat :=
  let g := (s.part p).pages.getD n Page.absent
  let ta := match g.a with | some x => x.tier | none => 3
  let tb := match g.b with | some x => x.tier | none => 3
  let loc := match g.a with | some x => if x.tier = 2 then x.page else x.addr | none => 0
  ta + 4 * tb + 16 * g.state.code + 128 * b2n (s.pagePoison p n) + 256 * b2n (decide (o.pin ≠ 0)) +
    512 * b2n (s.held p n || o.loading) + 2 ^ 32 * g.dirty.toNat + 2 ^ 64 * (if vf then 0 else loc)

def objectQueryGo (s : State) (c : Cmd) : Reply :=
  let d := c.d
  let p := c.part
  let base := dfld d 24 0 44
  let first := dfld d 32 0 32
  let count := dfld d 36 0 32
  let addr := dfld d 40 0 64
  if dRestZero d [(16, 0, 4), (24, 0, 44), (32, 0, 32), (36, 0, 32), (40, 0, 64)] = false ∨ count = 0 ∨ 4096 < count ∨
      addr % 16 ≠ 0 then slFail kSlBadHint p
  else match s.object? p base with
    | none => slFail kSlBadObject p
    | some o =>
      if o.pages < first + count then slFail kSlBadObject p
      else
        let bad := ((List.range o.pages).filter (fun i => s.pagePoison p (base / pageBytes + i))).length
        .ok ((List.range count).foldl (fun (s : State) i =>
          s.hostWrite (addr + 16 * i) (leBytes 16 (s.pageRecord p (base / pageBytes + first + i) o (decide (c.fn ≠ 0))))) s)
          (BitVec.ofNat 64 bad)

def execObjectQuery (fn : Nat) (d : BitVec 512) (s : State) : Host.Outcome State Fault Refusal :=
  .next (s.runWcp vfPart fn d objectQueryGo)

/-- Populated DDR5 pages (R391). -/
def State.ddrPages (s : State) : Nat := (s.connectors.map (fun c => s.getF (ddPages c))).sum

def quotaSetGo (s : State) (c : Cmd) : Reply :=
  let d := c.d
  let p := c.part
  let q := s.part p
  let mask := dfld d 17 0 8
  let h := if bit mask 0 then dfld d 24 0 32 else q.quotaH
  let dd := if bit mask 1 then dfld d 28 0 32 else q.quotaD
  let f := if bit mask 2 then dfld d 32 0 32 else q.quotaF
  let q' := { q with quotaH := h, quotaD := dd, quotaF := f }
  let others := s.parts.keep (fun n _ => decide (n ≠ p))
  if dRestZero d [(16, 0, 4), (17, 0, 3), (24, 0, 32), (28, 0, 32), (32, 0, 32)] = false then slFail kSlBadHint p
  else if groupPages q.grant.groups < h ∨
      s.ddrPages < dd + (others.vals.map (fun x => x.quotaD)).sum ∨
      6103515 < f + (others.vals.map (fun x => x.quotaF)).sum ∨ q'.fits = false then slFail kSlQuotaBad p
  else .wait ((s.setPart p q').quotaGo c)

def execQuotaSet (fn : Nat) (d : BitVec 512) (s : State) : Host.Outcome State Fault Refusal :=
  .next (s.runWcp pfPart fn d quotaSetGo)

/-! ## Packed images (R398 to R403, R411) -/

def imageOp (c : Cmd) : Bool := decide (dOpcode c.d = 0x0301 ∨ dOpcode c.d = 0x0302 ∨ dOpcode c.d = 0x0303)

/-- The image command that runs on an object. -/
def State.imageCmd? (s : State) (o : Obj) : Option (Cmd × ImageRun) :=
  match o.image with
  | some r => (s.host.inProgress.find? (fun c => decide (c.order = r.order))).map (fun c => (c, r))
  | none => none

/-- An image command takes its object (R400). -/
def State.beginImage (s : State) (c : Cmd) : State :=
  let base := dfld c.d 24 0 44
  match s.object? c.part base with
  | none => s
  | some o =>
    let r : ImageRun := { order := c.order, dataBytes := 0, layers := 0, id := 0, table := [], next := 0, start := s.now,
                          last := s.now, reported := [], failed := 0 }
    let s := s.setObj c.part base { o with loading := true, image := some r }
    if dOpcode c.d = 0x0302 then
      s.emit (.request 0 0 (BitVec.ofNat 64 (dfld c.d 32 0 16 * 2 ^ 48 + dfld c.d 34 0 4 * 2 ^ 44 + dfld c.d 40 0 44))
        (BitVec.ofNat 256 (dfld c.d 48 0 64)) [])
    else s

/-- The object is free again for accesses, and the next image command on it begins. -/
def State.releaseImage (s : State) (p base : Nat) : State :=
  let ns := match (s.part p).objects.at? base with
    | some o => (List.range o.pages).map (fun i => base / pageBytes + i)
    | none => []
  let s := ns.foldl (fun (s : State) n => match (s.part p).pages.at? n with
    | some g => if g.dest.isSome && decide (g.state ≠ .moving) then s.setPage p (n * pageBytes) { g with dest := none } else s
    | none => s) s
  match (s.part p).objects.at? base with
  | none => s
  | some o =>
    let s := s.setObj p base { o with loading := false, image := none }
    match s.host.inProgress.find? (fun c => imageOp c && decide (c.part = p ∧ c.started = true ∧ dfld c.d 24 0 44 = base) &&
        !(o.image.any (fun r => decide (r.order = c.order)))) with
    | some c => s.beginImage c
    | none => s.sweepSluice

/-- An image command fails (R400). -/
def State.failImage (s : State) (c : Cmd) (k : Cause) : State :=
  (s.failCmd c k (partInst c.part) c.part).releaseImage c.part (dfld c.d 24 0 44)

/-- Members of a broadcast's group other than this module. -/
def State.broadcastPeers (s : State) (c : Cmd) : List (Nat × Nat) :=
  match s.group? c.part (dfld c.d 40 0 32) with
  | some g => g.members.filter (fun m => decide (m.1 ≠ s.fabric.chip))
  | none => []

/-- Every record has been written: IMAGE_ID and the layer table stand with the object, and the command completes; the root
of a broadcast when every member has reported (R400, R403). -/
def State.imageDone (s : State) (c : Cmd) (r : ImageRun) : State :=
  let p := c.part
  let base := dfld c.d 24 0 44
  match (s.part p).objects.at? base with
  | none => s
  | some o =>
    let bad := (List.range o.pages).any (fun i => s.pagePoison p (base / pageBytes + i))
    let o := { o with imageId := some r.id, layers := if r.layers = 0 then o.layers else r.table.take r.layers, poisoned := bad }
    let s := s.setObj p base o
    let root := decide (dOpcode c.d = 0x0303 ∧ dfld c.d 17 0 1 = 1)
    if root && !((s.broadcastPeers c).all (fun m => r.reported.contains m.1)) then s
    else
      let result := if root then r.failed else if dOpcode c.d = 0x0303 then 0 else r.dataBytes / 256
      (s.finish c 0 (BitVec.ofNat 64 result)).releaseImage p base

/-- The seal of a record verifies (R398). -/
def sealOk (bs : List Byte) : Bool := decide (bs.length = 260 ∧ crc32c (bs.take 256) = leNat (bs.drop 256))

/-- The header of an image (R398): LAYERS, DATA_BYTES and IMAGE_ID, when it keeps the rules. -/
def imageHeader (bs : List Byte) : Option (Nat × Nat × Nat) :=
  let f := fun (a n : Nat) => leNat ((bs.drop a).take n)
  if f 0 4 = 0x4B504B31 ∧ f 4 2 = 1 ∧ f 6 2 ≤ 256 ∧ f 8 8 % 256 = 0 ∧ ((bs.drop 24).take 232).all (fun b => decide (b = 0)) then
    some (f 6 2, f 8 8, f 16 8)
  else none

/-- A layer table in ascending order, inside the data. -/
def tableOk (l : List Nat) (pages : Nat) : Bool :=
  (l.zip (l.drop 1)).all (fun x => decide (x.1 < x.2)) && l.all (fun x => decide (x < pages))

/-- Records of a data page. -/
def pageRecords : Nat := 8192

/-- Write a parcel into a place directly. -/
def State.placePut (s : State) (y : Place) (o : Nat) (bs : List Byte) : State :=
  if y.tier = 2 then { s with mem := { s.mem with flash := Memory.writeN s.mem.flash (y.base + o) bs } }
  else { s with mem := { s.mem with cells := Memory.writeN s.mem.cells (y.base + o) bs } }

/-- Forget the lines of a place without write-back. -/
def State.dropLines (s : State) (x : Place) : State :=
  if x.tier = 2 then s
  else (s.mem.lines.keys.filter (fun la => decide (la * 256 / pageBytes = x.addr / pageBytes))).foldl
    (fun (s : State) la => s.dropLine la) s

/-- A page written whole takes its fresh place; the old copies are freed (R400). -/
def State.swapPage (s : State) (p n : Nat) (y : Place) : State :=
  let g := (s.part p).pages.getD n Page.absent
  let old := g.a.toList ++ g.b.toList
  let s := old.foldl (fun (s : State) x => (s.dropLines x).freePlace x) (s.forgetPage p n)
  let s := s.flashWrote y 32
  s.setPage p (n * pageBytes) { Page.absent with state := .resident, a := some y, used := s.mem.clock }

/-- Write data record `j` of an image; `none` when it must wait for room or for the page's holds. -/
def State.imageWrite (s : State) (p base : Nat) (r : ImageRun) (j : Nat) (bs : List Byte) : Option State :=
  let i := j / pageRecords
  let n := base / pageBytes + i
  let o := 256 * (j % pageRecords)
  let g := (s.part p).pages.getD n Page.absent
  let free := !s.held p n && decide (g.state ≠ .staging ∧ g.state ≠ .moving)
  if !free then none
  else if (i + 1) * pageBytes ≤ r.dataBytes then
    let start : Option (State × Place) :=
      match g.dest with
      | some y => some (s, y)
      | none =>
        match (s.part p).objOf n with
        | none => none
        | some ob =>
          match s.placeFirst p (roleRank ob.2.role ob.2.access) ob.2.tiers with
          | none => none
          | some (s, y) => some (s.setPage p (n * pageBytes) { (s.part p).pages.getD n Page.absent with dest := some y }, y)
    match start with
    | none => none
    | some (s, y) =>
      let s := s.placePut y o bs
      some (if j % pageRecords = pageRecords - 1 then s.swapPage p n y else s)
  else
    let first := if g.state = .absent then s.firstCopy p (n * pageBytes) else some s
    first.map (fun s => s.partPut p (n * pageBytes + o) ((List.range 256).zip bs))

/-- The record that counts: the first copy whose seal verifies; `none` when neither does (R399). -/
def goodRecord (record second : List Byte) : Option (List Byte) :=
  if sealOk record then some record else if sealOk second then some second else none

/-- What the record after the header, the table or the data changes. -/
def imageRecord (p base k : Nat) (record second : List Byte) (s : State) : State :=
  match (s.part p).objects.at? base with
  | none => s
  | some o =>
    match s.imageCmd? o with
    | none => s
    | some (c, r) =>
      let d := c.d
      let fetch := decide (dOpcode d = 0x0302)
      let root := decide (dOpcode d = 0x0303 ∧ dfld d 17 0 1 = 1)
      let fromObj := (decide (dOpcode d = 0x0301) && bit (dfld d 17 0 8) 0) || (root && bit (dfld d 17 0 8) 1)
      if k ≠ r.next ∨ (5 ≤ k ∧ r.dataBytes / 256 ≤ k - 5) then s
      else if fetch ∧ record = [] then s.failImage c kSlPeerRefused
      else
        let src := dfld d 32 0 44 + 260 * k
        let mine := s.partRead p src 260
        let dirty := (pagesOf src 260).any (fun n => s.pagePoison p n)
        match (if fromObj then (if dirty then none else goodRecord mine mine) else goodRecord record second) with
        | none => s.failImage c kSlImageSeal
        | some rec =>
          let bs := rec.take 256
          let r := { r with next := k + 1, last := s.now }
          let put := fun (s : State) (r : ImageRun) => match (s.part p).objects.at? base with
            | some o => s.setObj p base { o with image := some r }
            | none => s
          let sent := fun (s : State) => if root then (s.broadcastPeers c).foldl (fun (s : State) m =>
            s.emit (.coll 3 (BitVec.ofNat 16 m.1) (BitVec.ofNat 16 (dfld d 40 0 32)) 0 k 0 rec)) s else s
          let finish := fun (s : State) (r : ImageRun) => if 5 ≤ r.next ∧ r.next = 5 + r.dataBytes / 256 then s.imageDone c r else s
          if k = 0 then
            match imageHeader bs with
            | none => s.failImage c kSlImageBad
            | some (layers, bytes, id) =>
              if o.pages * pageBytes < bytes then s.failImage c (if fetch then kSlPeerRefused else kSlImageBad)
              else if fetch ∧ id ≠ dfld d 48 0 64 then s.failImage c kSlPeerRefused
              else sent (put s { r with layers := layers, dataBytes := bytes, id := BitVec.ofNat 64 id })
          else if k < 5 then
            let entries := (List.range 64).map (fun i => leNat ((bs.drop (4 * i)).take 4))
            let r := { r with table := r.table ++ entries }
            if k = 4 ∧ !tableOk (r.table.take r.layers) (max 1 (r.dataBytes / pageBytes + 1)) then s.failImage c kSlImageBad
            else finish (sent (put s r)) r
          else
            match s.imageWrite p base r (k - 5) bs with
            | none => s
            | some s => finish (sent (put s r)) r

def execImageRecord (part obj k : Nat) (record second : List Byte) (s : State) : Host.Outcome State Fault Refusal :=
  .next (imageRecord part obj k record second s)

/-- A member of a broadcast has completed or failed, as the root learns it (R403). -/
def State.memberReported (s : State) (p base chip : Nat) (failed : Bool) : State :=
  match (s.part p).objects.at? base with
  | none => s
  | some o =>
    match s.imageCmd? o with
    | none => s
    | some (c, r) =>
      if r.reported.contains chip then s
      else
        let r := { r with reported := r.reported ++ [chip], failed := r.failed + b2n failed }
        let s := s.setObj p base { o with image := some r }
        if 5 ≤ r.next ∧ r.next = 5 + r.dataBytes / 256 then s.imageDone c r else s

/-- No parcel for 2 ms ends a fetch (R402). -/
def peerTimeout (p base : Nat) (s : State) : State :=
  match (s.part p).objects.at? base with
  | none => s
  | some o => match s.imageCmd? o with
    | some (c, r) => if dOpcode c.d = 0x0302 ∧ r.last + nsU 2000000 ≤ s.now then s.failImage c kSlPeerTimeout else s
    | none => s

def execPeerTimeout (part obj : Nat) (s : State) : Host.Outcome State Fault Refusal := .next (peerTimeout part obj s)

/-- A member has not posted in time, or this member has lost every path (R403). -/
def broadcastAbort (p base : Nat) (s : State) : State :=
  match (s.part p).objects.at? base with
  | none => s
  | some o => match s.imageCmd? o with
    | some (c, r) =>
      if dOpcode c.d = 0x0303 ∧ (r.next ≠ 0 ∨ r.start + nsU 1000000000 ≤ s.now) then s.failImage c kSlBroadcastAbort else s
    | none => s

def execBroadcastAbort (part obj : Nat) (s : State) : Host.Outcome State Fault Refusal := .next (broadcastAbort part obj s)

/-- Operand bits of an image command. -/
def imageFields (d : BitVec 512) : List (Nat × Nat × Nat) :=
  if dOpcode d = 0x0301 then [(16, 0, 4), (17, 0, 1), (24, 0, 44), (32, 0, 64)]
  else if dOpcode d = 0x0302 then [(16, 0, 4), (24, 0, 44), (32, 0, 16), (34, 0, 4), (40, 0, 44), (48, 0, 64)]
  else [(16, 0, 4), (17, 0, 2), (24, 0, 44), (32, 0, 64), (40, 0, 32), (48, 0, 64)]

def imageGo (s : State) (c : Cmd) : Reply :=
  let d := c.d
  let p := c.part
  let root := decide (dOpcode d = 0x0303 ∧ dfld d 17 0 1 = 1)
  let fromObj := (decide (dOpcode d = 0x0301) && bit (dfld d 17 0 8) 0) || (root && bit (dfld d 17 0 8) 1)
  if dRestZero d (imageFields d) = false then slFail kSlBadHint p
  else match s.object? p (dfld d 24 0 44) with
    | none => slFail kSlBadObject p
    | some o =>
      if fromObj && (s.object? p (dfld d 32 0 64)).isNone then slFail kSlBadObject p
      else if dOpcode d = 0x0303 ∧ (65536 ≤ dfld d 40 0 32 ∨ (s.group? p (dfld d 40 0 32)).isNone = true) then .fail kCeNoGroup (partInst p)
      else .wait (if o.loading then s else s.beginImage c)

def execImageLoad (fn : Nat) (d : BitVec 512) (s : State) : Host.Outcome State Fault Refusal := .next (s.runWcp vfPart fn d imageGo)
def execImageFetchPeer (fn : Nat) (d : BitVec 512) (s : State) : Host.Outcome State Fault Refusal := .next (s.runWcp vfPart fn d imageGo)
def execImageBroadcast (fn : Nat) (d : BitVec 512) (s : State) : Host.Outcome State Fault Refusal := .next (s.runWcp vfPart fn d imageGo)

end Sys2Proof.Machine
end

