-- ==== Sys2Proof/Machine/CollCore.lean ====
section
/-! DEFINITION. The collective engine: chunks of an operation, what a slice combines, commits and sends, the end of an
operation and its abort (R489 to R505, R509, R510, R512, R513). -/

namespace Sys2Proof.Machine

open Sys2Proof

/-! ## Buffers (R490, R352, R359, R375) -/

/-- Write bytes of the engine into a partition: a page without a copy is allocated first. -/
def State.collWrite (s : State) (p off : Nat) (bs : List Byte) : State :=
  let s := (pagesOf off bs.length).foldl (fun (s : State) n =>
    if ((s.part p).pages.getD n Page.absent).state = .absent then (s.firstCopy p (n * pageBytes)).getD s else s) s
  s.partPut p off ((List.range bs.length).zip bs)

/-- Little-endian 32-bit words of bytes. -/
def words32 (bs : List Byte) : List W32 :=
  (List.range (bs.length / 4)).map (fun i => BitVec.ofNat 32 (leNat ((bs.drop (4 * i)).take 4)))

/-- Bytes of words. -/
def bytes32 (ws : List W32) : List Byte := ws.flatMap (fun w => leBytes 4 w.toNat)

/-! ## Combining (R493) -/

/-- An FP32 number is NaN. -/
def nan32 (a : Nat) : Bool := decide (a / 2 ^ 23 % 256 = 255 ∧ a % 2 ^ 23 ≠ 0)

/-- Order key of an FP32 number that is not NaN; +0 and −0 have one key. -/
def key32 (a : Nat) : Int := if a / 2 ^ 31 % 2 = 1 then -((a % 2 ^ 31 : Nat) : Int) else ((a % 2 ^ 31 : Nat) : Int)

/-- One addition, maximum or minimum of an earlier and a later input. -/
def combine32 (dt rop : Nat) (a b : W32) : W32 :=
  let x := a.toNat
  let y := b.toNat
  if rop = 0 then (if dt = 0 then BitVec.ofNat 32 (addFp32 x y) else a + b)
  else if dt = 0 ∧ (nan32 x || nan32 y) = true then 0x7FC00000
  else
    let ka := if dt = 0 then key32 x else toSigned 32 x
    let kb := if dt = 0 then key32 y else toSigned 32 y
    if rop = 1 then (if ka < kb then b else a) else (if kb < ka then b else a)

/-- Lists combined word by word. -/
def combineWords (dt rop : Nat) (a b : List W32) : List W32 := (a.zip b).map (fun x => combine32 dt rop x.1 x.2)

/-- A value put into a sorted list, before the first that is not below it. -/
def insertBy {α : Type} (le : α → α → Bool) (x : α) : List α → List α
  | [] => [x]
  | y :: t => if le x y then x :: y :: t else y :: insertBy le x t

/-- A list sorted; values that compare equal keep their order. -/
def sortBy {α : Type} (le : α → α → Bool) (l : List α) : List α := l.foldr (insertBy le) []

/-- The inputs of a chunk in summing order: as they came, or this member's own and then the children's by rank. -/
def summing (ordered : Bool) (me : Nat) (l : List (Nat × List W32)) : List (Nat × List W32) :=
  if ordered then l.filter (fun x => decide (x.1 = me)) ++ sortBy (fun x y => decide (x.1 ≤ y.1)) (l.filter (fun x => decide (x.1 ≠ me)))
  else l

/-- The partial result of a chunk. -/
def partialOf (dt rop : Nat) (l : List (Nat × List W32)) : List W32 :=
  match l with
  | [] => []
  | x :: t => t.foldl (fun a b => combineWords dt rop a b.2) x.2

/-! ## Records of chunks (R497) -/

def Chunk.zero : Chunk :=
  { seen := [], inputs := [], started := false, sent := false, committed := false, written := false, unacked := [] }

/-- The chunk of an operation. -/
def CollOp.chunk (o : CollOp) (c : Nat) : Chunk := o.chunks.getD c Chunk.zero

/-- The same operation. -/
def CollOp.same (a b : CollOp) : Bool := decide (a.part = b.part ∧ a.gid = b.gid ∧ a.opseq = b.opseq ∧ a.pace = b.pace)

/-- An operation as it stands. -/
def State.op? (s : State) (o : CollOp) : Option CollOp := s.coll.ops.find? (fun x => x.same o)

/-- Change an operation. -/
def State.updOp (s : State) (o : CollOp) (f : CollOp → CollOp) : State :=
  { s with coll := { s.coll with ops := s.coll.ops.map (fun x => if x.same o then f x else x) } }

/-- Change a chunk of an operation. -/
def State.updChunk (s : State) (o : CollOp) (c : Nat) (f : Chunk → Chunk) : State :=
  s.updOp o (fun x => { x with chunks := x.chunks.put c (f (x.chunk c)) })

/-- Send a packet and keep it until its ACK (R498). -/
def State.sendKept (s : State) (o : CollOp) (c kind rank seq : Nat) (data : List Byte) : State :=
  (s.collSend o kind rank seq data).updChunk o c (fun h => { h with unacked := h.unacked ++ [(kind, rank, data, 1)] })

/-- The units of outgoing segments: local offset, peer, peer's offset, whether staged, and the offset in the staging
object. -/
def unitsOf (l : List Seg) : List (Nat × Nat × Nat × Bool × Nat) :=
  (l.foldl (fun (a : List (Nat × Nat × Nat × Bool × Nat) × Nat) g =>
    (a.1 ++ (List.range g.units).map (fun i =>
      (g.localOff + chunkBytes * i, g.peerRank, g.peerOff + chunkBytes * i, g.staged, a.2 + chunkBytes * i)),
     a.2 + chunkBytes * g.units)) ([], 0)).1

/-- Offset under which a chunk's packets travel (R495). -/
def CollOp.seqOf (o : CollOp) (c : Nat) : Nat :=
  if o.op = 5 then (((unitsOf o.segOut)[c]?).map (fun u => u.2.2.1)).getD 0 else chunkBytes * c

/-- A chunk is final at this member (R502). -/
def CollOp.chunkFinal (o : CollOp) (g : Group) (c : Nat) : Bool :=
  let h := o.chunk c
  if o.op = 5 then h.started && h.unacked.isEmpty
  else
    let root := decide (o.rootOf g.members.length c = g.rank)
    if o.op = 2 ∨ o.op = 4 then h.started && h.written && h.unacked.isEmpty
    else if root then h.committed && h.unacked.isEmpty
    else if o.op = 1 then h.written && h.unacked.isEmpty
    else h.sent && h.unacked.isEmpty

/-- Leading steps of which every chunk is final: DONE_STEPS (R502). -/
def CollOp.doneSteps (o : CollOp) (g : Group) : Nat :=
  let n := o.chunkCount
  let first := (List.range n).find? (fun c => decide (256 * o.fromStep ≤ c) && !o.chunkFinal g c)
  match first with
  | some c => c / 256
  | none => (n + 255) / 256

/-- Every part of the operation is final here. -/
def CollOp.allFinal (o : CollOp) (g : Group) : Bool :=
  (List.range o.chunkCount).all (fun c => decide (c < 256 * o.fromStep) || o.chunkFinal g c) &&
  (if o.op = 5 then (unitsOf o.segIn).all (fun u => o.landed.contains u.1) else true)

/-! ## What a chunk does next (R491, R500, R501) -/

/-- This member's own contribution to a chunk. -/
def State.ownData (s : State) (o : CollOp) (c : Nat) : List Byte :=
  if o.pace then o.own else s.partRead o.part (o.off + chunkBytes * c) (o.chunkLen c)

/-- The result of a chunk is written here: into the buffer, or for a pace exchange into its own record. -/
def State.putResult (s : State) (o : CollOp) (c : Nat) (bs : List Byte) : State :=
  if o.pace then s.updOp o (fun x => { x with own := bs }) else s.collWrite o.part (o.off + chunkBytes * c) bs

/-- Start a chunk: read this member's part of it. -/
def State.startChunk (s : State) (o : CollOp) (g : Group) (c : Nat) : State :=
  let n := g.members.length
  if o.op = 5 then
    match (unitsOf o.segOut)[c]? with
    | some (off, rank, peer, staged, at_) =>
      if !staged then s
      else
        let bs := s.partRead o.part (match o.staging with | some b => b + at_ | none => off) chunkBytes
        let s := s.updChunk o c (fun h => { h with started := true })
        if rank = g.rank then
          (s.collWrite o.part peer bs).updOp o (fun x => { x with landed := peer :: x.landed })
        else s.sendKept o c 3 rank peer bs
    | none => s
  else if o.reduces then
    s.updChunk o c (fun h => { h with started := true, inputs := h.inputs ++ [(g.rank, words32 (s.ownData o c))] })
  else if o.rootOf n c = g.rank then
    let bs := s.ownData o c
    let s := s.updChunk o c (fun h => { h with started := true, written := true })
    (treeChildren n g.fanin (o.rootOf n c) g.rank).foldl (fun (s : State) k => s.sendKept o c 3 k (chunkBytes * c) bs) s
  else s.updChunk o c (fun h => { h with started := true })

/-- The partial result of a chunk is complete: the root commits it, another rank sends it on (R500). -/
def State.closeChunk (s : State) (o : CollOp) (g : Group) (c : Nat) : State :=
  let h := o.chunk c
  let n := g.members.length
  let root := o.rootOf n c
  let kids := treeChildren n g.fanin root g.rank
  if o.reduces && h.started && !h.sent && !h.committed && kids.all (fun k => h.inputs.any (fun x => decide (x.1 = k))) then
    let bs := bytes32 (partialOf o.dt o.rop (summing g.ordered g.rank h.inputs))
    if root = g.rank then
      let s := (s.putResult o c bs).updChunk o c (fun h => { h with committed := true, inputs := [] })
      if o.op = 1 then kids.foldl (fun (s : State) k => s.sendKept o c 1 k (chunkBytes * c) bs) s else s
    else
      match treeParent n g.fanin root g.rank with
      | some q => (s.updChunk o c (fun h => { h with sent := true, inputs := [] })).sendKept o c 0 q (chunkBytes * c) bs
      | none => s
  else s

/-- Go on with one chunk. -/
def State.pumpChunk (s : State) (o : CollOp) (g : Group) (c : Nat) : State :=
  match s.op? o with
  | none => s
  | some x =>
    let s := if (x.chunk c).started then s else s.startChunk x g c
    match s.op? o with
    | none => s
    | some x => s.closeChunk x g c

/-- Go on with every chunk of the steps that may run: at most 4 beyond the lowest that is not final (R501). -/
def State.pumpOnce (s : State) (o : CollOp) (g : Group) : State :=
  match s.op? o with
  | none => s
  | some x =>
    if x.waiting || x.done then s
    else
      let lo := x.doneSteps g
      ((List.range (min x.chunkCount (256 * (lo + 5)))).filter (fun c => decide (256 * lo ≤ c) && !x.chunkFinal g c)).foldl
        (fun (s : State) c => s.pumpChunk o g c) s

def State.pump (s : State) (o : CollOp) (g : Group) : Nat → State
  | 0 => s
  | n + 1 => (s.pumpOnce o g).pump o g n

/-! ## Pace (R512, R513) -/

/-- Whole µs of units. -/
def usOf (u : Nat) : Nat := u / (1000 * Config.unitsPerNs)

/-- The result of a pace exchange sets the lag, and counts slow steps. -/
def State.paceResult (s : State) (o : CollOp) : State :=
  let i : Int := ((min (usOf o.idle) (2 ^ 31 - 1) : Nat) : Int)
  let sum : Int := toSigned 32 (leNat (o.own.take 4))
  let n : Int := toSigned 32 (leNat ((o.own.drop 4).take 4))
  let lagN := (sum - i) - i * (n - 1)
  let slow := decide (2 ≤ n) && decide (((o.step : Nat) : Int) * (n - 1) < 20 * 1000 * ((Config.unitsPerNs : Nat) : Int) * lagN)
  let lag := if 2 ≤ n then lagN / (n - 1) else 0
  let c : Coll := { s.coll with lagUs := BitVec.ofNat 32 (ofInt 32 lag), stepUs := BitVec.ofNat 32 (usOf o.step) }
  if slow then
    let k : Nat := min (c.slowSteps + 1) 8
    let s : State := { s with coll := { c with slowSteps := k } }
    if k = 8 ∧ !s.coll.straggler then { s with coll := { s.coll with straggler := true } }.raise kCeStraggler 0xFFF else s
  else { s with coll := { c with slowSteps := 0, straggler := false } }

/-! ## The end of an operation (R501, R502, R505, R510) -/

/-- Operations that run. -/
def Coll.running (c : Coll) : Nat := (c.ops.filter (fun o => !o.waiting && !o.done)).length

/-- The range of a re-shard number `i`: of a bucket, or of an object that it names. -/
def State.rangeOf (s : State) (r : Reshard) (i : Nat) : Option (Nat × Nat) :=
  if i < 256 then ((s.part r.part).buckets.at? i).map (fun b => (b.object + b.pageFirst * pageBytes, b.pageCount * pageBytes))
  else match r.objects[i - 256]? with
    | some o => ((s.part r.part).objects.at? o.1).map (fun x => (o.1, x.pages * pageBytes))
    | none => none

/-- A segment lies in a range. -/
def Seg.inRange (g : Seg) (x : Nat × Nat) : Bool := decide (x.1 ≤ g.localOff ∧ g.localOff < x.1 + x.2)

/-- The operation of a re-shard or a handover. -/
def State.reshardOp? (s : State) (r : Reshard) : Option CollOp :=
  s.coll.ops.find? (fun o => decide (o.part = r.part ∧ o.gid = r.gid ∧ o.opseq = r.opseq) && !o.pace)

/-- Ranges that are staged and whose incoming segments have all landed open to NEW (R510). -/
def State.openRanges (s : State) (p h : Nat) : State :=
  match s.reshard? p h with
  | none => s
  | some r =>
    if r.handover then s
    else
      let landed := match s.reshardOp? r with | some o => o.landed | none => []
      let s := r.applied.foldl (fun (s : State) i =>
        match s.rangeOf r i with
        | none => s
        | some x =>
          if (unitsOf (r.segIn.filter (fun g => g.inRange x))).all (fun u => landed.contains u.1) then
            if i < 256 then s.setPart p { s.part p with buckets := (s.part p).buckets.upd i (fun b => { b with opened := true }) }
            else { s with coll := { s.coll with reshards := s.coll.reshards.map (fun q =>
              if q = r then { q with objects := q.objects.zipIdx.map (fun o => if o.2 = i - 256 then (o.1.1, true) else o.1) } else q) } }
          else s) s
      s.retryOps p

/-- The command that an operation completes. -/
def State.opCmd? (s : State) (o : CollOp) : Option Cmd :=
  o.cmd.bind (fun n => s.host.inProgress.find? (fun c => decide (c.order = n)))

/-- A re-shard or handover has ended: its staging object is freed; a handover ends its source launch (R510, R514). -/
def State.endReshard (s : State) (o : CollOp) : State :=
  match s.coll.reshards.find? (fun r => decide (r.part = o.part ∧ r.gid = o.gid ∧ r.opseq = o.opseq)) with
  | none => s
  | some r =>
    let s := if r.handover then s else s.openRanges r.part r.launch
    let s := { s with coll := { s.coll with reshards := s.coll.reshards.filter (fun q =>
      !(decide (q.part = o.part ∧ q.gid = o.gid ∧ q.opseq = o.opseq))) } }
    let s := match r.staging with
      | some b => s.freeObj r.part b
      | none => s
    if r.handover then
      (s.raise kCeHandedOver (partInst r.part) { part := r.part }).endLaunch r.part r.launch (kCeHandedOver.flint (partInst r.part))
    else s.retryOps r.part

/-- An operation is final at this member: it completes, and a place is free. -/
def State.completeOp (s : State) (o : CollOp) : State :=
  let s := (s.addF (ceOpsCompleted o.part) 1).credit o.part 34 1
  let s := s.updOp o (fun x => { x with done := true, chunks := x.chunks.mapV (fun _ h => { h with inputs := [], unacked := [] }) })
  let s := if o.pace then s.paceResult o else s
  let s := match s.opCmd? o with
    | some c => s.finish c 0 (BitVec.ofNat 64 (if dOpcode c.d = 0x0705 then 0 else o.opseq))
    | none => s
  s.endReshard o

/-- Go on with an operation as far as it goes. -/
def State.advanceOp (s : State) (o : CollOp) : State :=
  match s.op? o, s.group? o.part o.gid with
  | some x, some g =>
    if x.waiting || x.done then s
    else
      let s := s.pump o g (x.chunkCount / 256 + 1)
      match s.op? o with
      | some x => if x.allFinal g then s.completeOp x else s
      | none => s
  | _, _ => s

/-- Waiting operations take the free places, oldest first (R501). -/
def State.fillPlaces (s : State) : Nat → State
  | 0 => s
  | n + 1 =>
    if s.coll.running < 16 then
      match s.coll.ops.find? (fun o => o.waiting) with
      | some o => ((s.updOp o (fun x => { x with waiting := false, last := s.now })).advanceOp o).fillPlaces n
      | none => s
    else s

/-- Go on with an operation, and with those that wait for its place. -/
def State.runOp (s : State) (o : CollOp) : State := (s.advanceOp o).fillPlaces s.coll.ops.length

/-- Start an operation: it takes one of the 16 places or waits (R501); a finished record under its OPSEQ goes. -/
def State.startOp (s : State) (o : CollOp) : State :=
  let s : State := { s with coll := { s.coll with ops := s.coll.ops.filter (fun (x : CollOp) => !x.same o) ++
    [{ o with waiting := true, last := s.now }] } }
  s.fillPlaces s.coll.ops.length

/-- An operation that has not begun. -/
def CollOp.fresh (p gid opseq op dt rop : Nat) : CollOp :=
  { part := p, gid := gid, opseq := opseq, pace := false, own := [], idle := 0, step := 0, attempt := 0, op := op, dt := dt,
    rop := rop, root := 0, off := 0, len := 0, fromStep := 0, chunks := [], last := 0, launch := none, bucket := none,
    segOut := [], segIn := [], landed := [], staging := none, waiting := false, done := false, cause := 0, cmd := none }

/-- OPSEQ of the next host-started operation of a group, and the group after it (R496). -/
def State.nextOpseq (s : State) (p gid : Nat) : State × Nat :=
  match s.group? p gid with
  | some g => ({ s with coll := { s.coll with groups := s.coll.groups.put (groupKey p gid) { g with count := (g.count + 1) % 32768 } } },
      g.count)
  | none => (s, 0)

/-! ## Abort (R503, R507, R511, R514) -/

/-- DETAIL of a collective cause: GID, OPSEQ and DONE_STEPS. -/
def CollOp.detail (o : CollOp) (steps : Nat) : Nat := o.gid + o.opseq * 2 ^ 16 + steps * 2 ^ 32

/-- An operation aborts: its peers are told, its record goes into the aborted table, and a host-started one completes. -/
def State.abortOp (s : State) (o : CollOp) (k : Cause) : State :=
  match s.op? o with
  | none => s
  | some x =>
    if x.done then s
    else
      let steps := match s.group? o.part o.gid with | some g => x.doneSteps g | none => 0
      let s := if x.waiting then s else s.tellAbort x
      let s := (s.addF (ceOpsAborted o.part) 1).credit o.part 35 1
      let kept := s.coll.aborted ++ [{ x with waiting := false, cause := k.flint (partInst o.part), cmd := none }]
      let s := { s with coll := { s.coll with
        ops := s.coll.ops.filter (fun y => !y.same o),
        aborted := if x.pace then s.coll.aborted else if 16 < kept.length then kept.drop 1 else kept,
        reshards := s.coll.reshards.filter (fun r => !(r.handover && !x.pace && decide (r.part = x.part ∧ r.gid = x.gid ∧ r.opseq = x.opseq))) } }
      let s := if x.pace then { s with coll := { s.coll with slowSteps := 0, straggler := false } } else s
      let w : About := { part := o.part, detail := x.detail steps }
      let s := match s.opCmd? x with
        | some c => (s.raise k (partInst o.part) { w with fn := c.fn }).finish c (k.flint (partInst o.part))
            (BitVec.ofNat 64 (if dOpcode c.d = 0x0705 then 0 else x.opseq + (steps % 2 ^ 32) * 65536))
        | none => if x.pace then s else s.raise k (partInst o.part) w
      s.fillPlaces s.coll.ops.length

end Sys2Proof.Machine
end

