-- ==== Sys2Proof/Machine/Training.lean ====
section
/-! DEFINITION. Training support: gradient buckets, norm tables, epoch switch and permute of fenced ranges, key slots
(R421 to R446, R505 to R510). -/

namespace Sys2Proof.Machine

open Sys2Proof

/-! ## Buckets (R421, R424, R427, R428) -/

/-- The bucket that a `bucket.config` defines. -/
def Bucket.ofDesc (d : BitVec 512) : Bucket :=
  { op := dfld d 18 0 2, zero := decide (dfld d 18 2 1 = 1), int32 := decide (dfld d 18 3 1 = 1), launch := dfld d 20 0 16,
    closePhase := dfld d 22 0 16, object := dfld d 24 0 44, pageFirst := dfld d 32 0 32, pageCount := dfld d 36 0 32,
    group := dfld d 40 0 32, epoch := dfld d 44 0 16, normLayer := dfld d 46 0 16, state := 0, opened := false, next := none }

/-- First byte and length of a bucket's range. -/
def Bucket.range (b : Bucket) : Nat × Nat := (b.object + b.pageFirst * pageBytes, b.pageCount * pageBytes)

/-- Page numbers of a bucket's range. -/
def Bucket.pageNums (b : Bucket) : List Nat := (List.range b.pageCount).map (fun i => b.object / pageBytes + b.pageFirst + i)

/-- Two ranges share a page. -/
def Bucket.overlaps (a b : Bucket) : Bool :=
  decide (a.range.1 < b.range.1 + b.range.2 ∧ b.range.1 < a.range.1 + a.range.2)

def State.setBucket (s : State) (p n : Nat) (b : Bucket) : State :=
  s.setPart p { s.part p with buckets := (s.part p).buckets.put n b }

/-- A new setting of a bucket takes effect (R424, R428). -/
def State.applyBucket (s : State) (p n : Nat) (d : BitVec 512) : State :=
  if dfld d 18 0 2 = 3 then s.setPart p { s.part p with buckets := (s.part p).buckets.del n }
  else s.setBucket p n (Bucket.ofDesc d)

/-- A descriptor of `bucket.config` is in range. -/
def State.bucketOk (s : State) (p : Nat) (d : BitVec 512) : Bool :=
  let b := Bucket.ofDesc d
  let q := s.part p
  let pages := match s.object? p b.object with | some o => o.pages | none => 0
  let phases : Option Nat := (q.launches.at? b.launch).bind (fun l => (q.graphs.at? l.graph).map (fun g => g.phases.length))
  decide (1 ≤ b.pageCount ∧ b.pageFirst + b.pageCount ≤ pages) &&
  (match phases with | some n => decide (b.closePhase < n) | none => true) &&
  decide (b.normLayer < 1024 ∨ b.normLayer = 0xFFFF) &&
  (decide (b.op = 0) || (decide (b.group < 65536) && (s.group? p b.group).isSome)) &&
  (q.buckets.keep (fun n _ => decide (n ≠ dfld d 17 0 8))).vals.all
    (fun x => !(decide (x.launch = b.launch ∧ x.epoch = b.epoch) && x.overlaps b))

def bucketConfigGo (s : State) (c : Cmd) : Reply :=
  let d := c.d
  let p := c.part
  let n := dfld d 17 0 8
  let remove := decide (dfld d 18 0 2 = 3)
  if dRestZero d [(16, 0, 4), (17, 0, 8), (18, 0, 4), (20, 0, 16), (22, 0, 16), (24, 0, 44), (32, 0, 32), (36, 0, 32), (40, 0, 32),
      (44, 0, 16), (46, 0, 16)] = false then badOperand c
  else if !remove && !(s.object? p (dfld d 24 0 44)).any (fun o => decide (o.role = 3)) then slFail kSlBadObject p
  else if !remove && !s.bucketOk p d then badOperand c
  else match (s.part p).buckets.at? n with
    | some b =>
      if (s.launch? p b.launch).isSome then .ok (s.setBucket p n { b with next := some d }) 0
      else .ok (s.applyBucket p n d) 0
    | none => .ok (s.applyBucket p n d) 0

def execBucketConfig (fn : Nat) (d : BitVec 512) (s : State) : Host.Outcome State Fault Refusal :=
  .next (s.runWcp vfPart fn d bucketConfigGo)

/-! ## Epoch switch (R434 to R436) -/

/-- The epoch after another (R434). -/
def nextEpoch (e : Nat) : Nat := if e = 65535 then 1 else e + 1

/-- Buckets of a launch, with their numbers. -/
def Part.bucketsOf (p : Part) (h : Nat) : List (Nat × Bucket) := p.buckets.filter (fun b => decide (b.2.launch = h))

/-- The epoch switch of a pending re-shard, when every bucket of epoch CUR has left OPEN, or at a step boundary when there
is none: CUR becomes NEW and the permute starts. -/
def State.trySwitch (s : State) (p h : Nat) (boundary : Bool) : State :=
  match s.reshard? p h, s.launch? p h with
  | some r, some l =>
    let bs := ((s.part p).bucketsOf h).filter (fun b => decide (b.2.epoch = l.cur))
    if r.switched || r.handover || (if bs.isEmpty then !boundary else bs.any (fun b => decide (b.2.state = 0))) then s
    else
      let s := s.setLaunch p h { l with cur := r.new }
      let s := { s with coll := { s.coll with reshards := s.coll.reshards.map (fun (q : Reshard) => if q = r then { q with switched := true } else q) } }
      s.startOp { CollOp.fresh p r.gid r.opseq 5 2 0 with
        launch := some h, segOut := r.segOut, segIn := r.segIn, staging := r.staging, cmd := some r.cmd }
  | _, _ => s

/-! ## A bucket leaves OPEN, is flushed, reduced (R422, R423, R437, R505) -/

/-- FT writes of this module that translated into the range and have not completed. -/
def State.writesInto (s : State) (p : Nat) (b : Bucket) : Bool :=
  b.pageNums.any (fun n => (s.inFlight p n).any (fun x => x.2.2.op.writes))

/-- A bucket of epoch NEW waits until the old buckets of its group are open to NEW (R437). -/
def State.holdsOpen (s : State) (p : Nat) (b : Bucket) : Bool :=
  match s.reshard? p b.launch with
  | some r => r.switched && decide (b.epoch = r.new) && ((s.part p).bucketsOf b.launch).any (fun x =>
      decide (x.2.epoch = prevEpoch r.new ∧ x.2.group = b.group) && !x.2.opened)
  | none => false

/-- The close condition of R423. -/
def State.closes (s : State) (p : Nat) (b : Bucket) : Bool :=
  match s.launch? p b.launch with
  | some l => decide (b.state = 0 ∧ b.closePhase < l.phase) && !s.writesInto p b && !s.holdsOpen p b
  | none => false

def bucketClose (p n : Nat) (s : State) : State :=
  match (s.part p).buckets.at? n with
  | some b => if s.closes p b then (s.setBucket p n { b with state := 1 }).trySwitch p b.launch false else s
  | none => s

def execBucketClose (part bucket : Nat) (s : State) : Host.Outcome State Fault Refusal := .next (bucketClose part bucket s)

/-- OPSEQ of a bucket's reduction (R496). -/
def bucketOpseq (step n : Nat) : Nat := 0x8000 + step % 128 * 256 + n

/-- Binary64 value of an exact integer. -/
def intFp64 (n : Nat) : W64 := BitVec.ofNat 64 (fp64.round .rne false (intVal (n : Int))).1

/-- What the elements of a range contribute to G2_RED (R430). -/
def reducedNorm (int32 : Bool) (ws : List W32) : NormSlot :=
  if int32 then
    let sq := (ws.map (fun w => (toSigned 32 w.toNat).natAbs * (toSigned 32 w.toNat).natAbs)).sum
    { NormSlot.zero with g2red := intFp64 sq, elemsRed := ws.length }
  else
    let good := ws.filter (fun w => finite32 w.toNat)
    let n := normSums (ws.map (fun w => (w.toNat, 0, 0))) (fun x => finite32 x.1)
    { NormSlot.zero with g2red := toFp64 n.1, elemsRed := good.length, nonfinite := ws.length - good.length }

/-- Part of a bucket's range whose result this module holds: its shard after REDUCE_SCATTER. -/
def State.heldRange (s : State) (p : Nat) (b : Bucket) : Nat × Nat :=
  if b.op = 2 then
    match s.group? p b.group with
    | some g =>
      let sh := shardSize g.members.length b.range.2
      (b.range.1 + g.rank * sh, min sh (b.range.2 - g.rank * sh))
    | none => b.range
  else b.range

/-- The norm contribution of a bucket is taken, and it becomes REDUCED; what waits for its range goes on. -/
def State.reduceBucket (s : State) (p n : Nat) (b : Bucket) : State :=
  let s := match s.launch? p b.launch with
    | some l =>
      if b.normLayer < 1024 then
        let x := s.heldRange p b
        let c := reducedNorm b.int32 (words32 (s.partRead p x.1 x.2))
        let t := if l.step % 2 = 0 then l.norm0 else l.norm1
        let t := t.put b.normLayer ((t.getD b.normLayer NormSlot.zero).add c)
        s.setLaunch p b.launch (if l.step % 2 = 0 then { l with norm0 := t } else { l with norm1 := t })
      else s
    | none => s
  (s.setBucket p n { b with state := 3 }).retryOps p

/-- The flush of a bucket in CLOSING ends: a LOCAL bucket is REDUCED, another is REDUCING and its operation starts. -/
def bucketFlushed (p n : Nat) (s : State) : State :=
  match (s.part p).buckets.at? n with
  | some b =>
    match s.launch? p b.launch with
    | some l =>
      if b.state ≠ 1 then s
      else
        let s := s.flushRange p b.range.1 b.range.2
        if b.op = 0 then s.reduceBucket p n b
        else
          (s.setBucket p n { b with state := 2 }).startOp
            { CollOp.fresh p b.group (bucketOpseq l.step n) (if b.op = 1 then 1 else 3) (b2n b.int32) 0 with
              off := b.range.1, len := b.range.2, launch := some b.launch, bucket := some n }
    | none => s
  | none => s

def execBucketFlushed (part bucket : Nat) (s : State) : Host.Outcome State Fault Refusal := .next (bucketFlushed part bucket s)

/-- The operation of a bucket is final at this member. -/
def State.bucketFinal (s : State) (p n : Nat) (b : Bucket) : Bool :=
  match s.launch? p b.launch with
  | some l => s.coll.ops.any (fun o => decide (o.part = p ∧ o.gid = b.group ∧ o.opseq = bucketOpseq l.step n) && !o.pace && o.done)
  | none => false

def bucketReduced (p n : Nat) (s : State) : State :=
  match (s.part p).buckets.at? n with
  | some b => if b.state = 2 ∧ s.bucketFinal p n b then s.reduceBucket p n b else s
  | none => s

def execBucketReduced (part bucket : Nat) (s : State) : Host.Outcome State Fault Refusal := .next (bucketReduced part bucket s)

/-! ## The permute of a range (R436, R510) -/

/-- R436 lets the permute be applied to range `i`: of a bucket of the old epoch, or of an object. -/
def State.mayPermute (s : State) (p h i : Nat) (r : Reshard) : Bool :=
  if i < 256 then
    match (s.part p).buckets.at? i, s.launch? p h with
    | some b, some l => decide (b.launch = h ∧ b.epoch = prevEpoch l.cur ∧ b.state = 3)
    | _, _ => false
  else match r.objects[i - 256]? with
    | some o => match (s.part p).objects.at? o.1 with
      | some x => (List.range x.pages).all (fun j => !s.held p (o.1 / pageBytes + j))
      | none => false
    | none => false

/-- Copy one unit of an outgoing segment to the staging object; its poison goes with it (R359). -/
def State.stageUnit (s : State) (p src dst : Nat) : State :=
  let poisoned := s.pagePoison p (src / pageBytes)
  let s := s.collWrite p dst (s.partRead p src chunkBytes)
  if poisoned then match ((s.part p).page dst).a with
    | some x => s.poisonHome x
    | none => s
  else s

/-- Segments of a range marked staged. -/
def stageMarks (l : List Seg) (x : Nat × Nat) : List Seg := l.map (fun g => if g.inRange x then { g with staged := true } else g)

/-- Range `i` of a launch's re-shard, a bucket number, or 256 + the place of an object among those named: its outgoing
segments are staged and sent, and it opens when what lands in it has landed. -/
def rangePermute (p h i : Nat) (s : State) : State :=
  match s.reshard? p h with
  | none => s
  | some r =>
    let base := r.staging.getD 0
    match s.rangeOf r i with
    | some x =>
      if r.switched && !r.handover && !r.applied.contains i && s.mayPermute p h i r then
        let s := (unitsOf r.segOut).foldl (fun (s : State) u =>
          if x.1 ≤ u.1 ∧ u.1 < x.1 + x.2 then s.stageUnit p u.1 (base + u.2.2.2.2) else s) s
        let s := { s with coll := { s.coll with
          reshards := s.coll.reshards.map (fun (q : Reshard) => if q = r then
            { q with applied := q.applied ++ [i], segOut := stageMarks q.segOut x } else q),
          ops := s.coll.ops.map (fun (o : CollOp) => if o.part = p ∧ o.gid = r.gid ∧ o.opseq = r.opseq ∧ o.pace = false then
            { o with segOut := stageMarks o.segOut x } else o) } }
        let s := match s.reshardOp? r with
          | some o => s.runOp o
          | none => s
        s.openRanges p h
      else s
    | none => s

def execRangePermute (part launch range : Nat) (s : State) : Host.Outcome State Fault Refusal :=
  .next (rangePermute part launch range s)

/-! ## Norms and keys (R432, R444) -/

/-- The 64-byte record of a slot (R432). -/
def NormSlot.bytes (n : NormSlot) (incomplete : Bool) (step : Nat) : List Byte :=
  leBytes 8 n.g2red.toNat ++ leBytes 8 n.g2.toNat ++ leBytes 8 n.u2.toNat ++ leBytes 8 n.w2.toNat ++ leBytes 8 n.elemsRed ++
    leBytes 8 n.elemsOpt ++ leBytes 4 n.nonfinite ++ leBytes 4 (b2n incomplete) ++ leBytes 8 step

/-- The norm table of a launch. -/
def Launch.normTable (l : Launch) : NormTable := { step := l.step, norm0 := l.norm0, norm1 := l.norm1, incomplete := l.incomplete }

/-- The bank that a read names, and its step index; that of a bank of step −1 is left open. -/
def NormTable.bank (t : NormTable) (previous : Bool) (open_ : Nat) : Tab NormSlot × Nat :=
  let step := if previous then t.step + 1 else t.step
  (if step % 2 = 0 then t.norm0 else t.norm1, if previous then (if t.step = 0 then open_ else t.step - 1) else t.step)

/-- A bank with slots zeroed. -/
def NormTable.clear (t : NormTable) (previous : Bool) (first count : Nat) : NormTable :=
  let f := fun (b : Tab NormSlot) => Tab.keep b (fun n _ => !(decide (first ≤ n ∧ n < first + count)))
  if (if previous then t.step + 1 else t.step) % 2 = 0 then { t with norm0 := f t.norm0 } else { t with norm1 := f t.norm1 }

def normsReadGo (s : State) (c : Cmd) : Reply :=
  let d := c.d
  let p := c.part
  let previous := decide (dfld d 17 0 1 = 1)
  let clear := decide (dfld d 17 1 1 = 1)
  let h := dfld d 20 0 16
  let first := dfld d 22 0 16
  let count := dfld d 24 0 16
  let addr := dfld d 32 0 64
  if dRestZero d [(16, 0, 4), (17, 0, 2), (20, 0, 16), (22, 0, 16), (24, 0, 16), (32, 0, 64)] = false ∨ count = 0 ∨ 1024 < count ∨
      1024 < first + count ∨ addr % 64 ≠ 0 then badOperand c
  else
    let s := match s.launch? p h with
      | some l => s.setLaunch p h l.writeNorms
      | none => s
    let t : Option NormTable := match s.launch? p h with
      | some l => some l.normTable
      | none => (s.part p).norms.at? h
    match t with
    | none => .fail kCmNoLaunch c.fn
    | some t =>
      let b := t.bank previous (Config.pick s.free % 2 ^ 64)
      let s := s.fresh
      let s := (List.range count).foldl (fun (s : State) i =>
        s.hostWrite (addr + 64 * i) ((b.1.getD (first + i) NormSlot.zero).bytes (t.incomplete && !previous) b.2)) s
      let t' := if clear then t.clear previous first count else t
      let s := match s.launch? p h with
        | some l => s.setLaunch p h { l with norm0 := t'.norm0, norm1 := t'.norm1 }
        | none => s.setPart p { s.part p with norms := (s.part p).norms.put h t' }
      .ok s (BitVec.ofNat 64 (b.2 % 2 ^ 32))

def execNormsRead (fn : Nat) (d : BitVec 512) (s : State) : Host.Outcome State Fault Refusal :=
  .next (s.runWcp vfPart fn d normsReadGo)

def rngKeySetGo (s : State) (c : Cmd) : Reply :=
  let d := c.d
  if dRestZero d [(16, 0, 4), (17, 0, 4), (24, 0, 64)] = false then badOperand c
  else .ok (s.setPart c.part { s.part c.part with
    keys := (s.part c.part).keys.put (dfld d 17 0 4) (BitVec.ofNat 64 (dfld d 24 0 64)) }) 0

def execRngKeySet (fn : Nat) (d : BitVec 512) (s : State) : Host.Outcome State Fault Refusal :=
  .next (s.runWcp vfPart fn d rngKeySetGo)

end Sys2Proof.Machine
end

