-- ==== Sys2Proof/Machine/Spillway.lean ====
section
/-! DEFINITION. Spillway: partitions, graphs, launches, phases and step boundaries, pre-emption, saves and restores,
cyclic schedules and generation tokens (R291 to R332, R49, R120 to R125, R541 to R553). -/

namespace Sys2Proof.Machine

open Sys2Proof

def swFail (c : Cause) (p : Nat) : Reply := .fail c (partInst p)

/-! ## Grants (R291, R292) -/

/-- The grant of a descriptor (R541). -/
def grantOf (d : BitVec 512) : Grant :=
  { cascades := BitVec.ofNat 64 (dfld d 24 0 64), groups := BitVec.ofNat 64 (dfld d 32 0 64),
    ways := BitVec.ofNat 64 (dfld d 40 0 64), streams := dfld d 20 0 15 }

/-- The minimums of R291. -/
def Grant.minimal (g : Grant) : Bool :=
  decide (g.cascades ≠ 0 ∧ g.groups ≠ 0) && (List.range 4).all (fun d => decide (bits g.ways.toNat (16 * d) 16 ≠ 0))

/-- What a partition holds or is about to hold. -/
def Part.holdsGrant (p : Part) : Grant :=
  let n := p.newGrant.getD Grant.none
  { cascades := p.grant.cascades ||| n.cascades ||| p.oldCascades, groups := p.grant.groups ||| n.groups,
    ways := p.grant.ways ||| n.ways, streams := 0 }

/-- Something that a grant asks for is held by another partition. -/
def State.grantTaken (s : State) (p : Nat) (g : Grant) : Bool :=
  s.parts.any (fun q => decide (q.1 ≠ p ∧ q.2.state ≠ 0) &&
    (let h := q.2.holdsGrant
     decide (h.cascades &&& g.cascades ≠ 0 ∨ h.groups &&& g.groups ≠ 0 ∨ h.ways &&& g.ways ≠ 0)))

/-- Checks 3 to 5 of R292. -/
def State.grantCheck (s : State) (p : Nat) (g : Grant) : Option Cause :=
  if !g.minimal then some kSwBadGrant
  else if s.grantTaken p g then some kSwNoResource
  else if g.streams < s.entriesOf p then some kSwBadGrant
  else none

/-- The operand bytes of a grant. -/
def grantFields : List (Nat × Nat × Nat) := [(16, 0, 4), (17, 0, 1), (18, 0, 4), (20, 0, 15), (24, 0, 64), (32, 0, 64), (40, 0, 64)]

/-! ## `partition.create`, `partition.query` (R541, R544) -/

/-- A partition as it starts (R293, R389, R444). -/
def Part.created (d : BitVec 512) (retired : Tab Nat) : Part :=
  let g := grantOf d
  { Part.reset with state := 1, serving := decide (dfld d 17 0 1 = 1), vf := dfld d 18 0 4, grant := g,
                    quotaH := groupPages g.groups, retired := retired }

def partitionCreateGo (s : State) (c : Cmd) : Reply :=
  let d := c.d
  let p := c.part
  if (s.part p).state ≠ 0 then swFail kSwNoPartition p
  else match s.grantCheck p (grantOf d) with
    | some k => swFail k p
    | none =>
      let vf := dfld d 18 0 4
      if dRestZero d grantFields = false ∨ 16384 < dfld d 20 0 15 ∨ s.host.numVfs < vf then badOperand c
      else if vf ≠ 0 ∧ (s.partOfVf vf).isSome then .fail kCmVfTaken c.fn
      else
        let s := s.setPart p (Part.created d (s.part p).retired)
        let s := s.clearRecord p
        .ok (if s.mode = .ready then s.setMode .service else s) 0

def execPartitionCreate (fn : Nat) (d : BitVec 512) (s : State) : Host.Outcome State Fault Refusal :=
  .next (s.runWcp ⟨true, some 0, false⟩ fn d partitionCreateGo)

/-- Contexts of a partition at a kind of place. -/
def State.countCtxs (s : State) (p : Nat) (f : Loc → Bool) : Nat :=
  (s.ctxs.filter (fun c => decide (keyPart c.1 = p ∧ c.2.launch ≠ noLaunch) && f c.2.loc)).length

/-- Value of SW_PART_STATE (R329). -/
def State.partStateWord (s : State) (p : Nat) : Nat :=
  let q := s.part p
  let slot := match q.schedule with | some c => c.slot | none => 0
  let resident := s.countCtxs p (fun l => match l with | .resident _ _ => true | _ => false)
  let saved := s.countCtxs p (fun l => decide (l = .saved))
  q.state + 8 * b2n q.serving + 16 * b2n q.schedule.isSome + 32 * (slot % 64) + 2048 * (q.launches.length % 8) +
    16384 * (resident % 65536) + 2 ^ 30 * (saved % 65536)

/-- The 64-byte record of `partition.query` (R544). -/
def State.partRecord (s : State) (p : Nat) : List Byte :=
  let q := s.part p
  leBytes 8 q.grant.cascades.toNat ++ leBytes 8 q.grant.groups.toNat ++ leBytes 8 q.grant.ways.toNat ++
    leBytes 8 (s.partStateWord p) ++ leBytes 4 q.quotaH ++ leBytes 4 q.quotaD ++ leBytes 4 q.quotaF ++
    leBytes 4 (q.use 0) ++ leBytes 4 (q.use 1) ++ leBytes 4 (q.use 2) ++ leBytes 2 q.grant.streams ++
    leBytes 2 (s.entriesOf p) ++ leBytes 4 (q.vf % 16)

def partitionQueryGo (s : State) (c : Cmd) : Reply :=
  let addr := dfld c.d 24 0 64
  if dRestZero c.d [(16, 0, 4), (24, 0, 64)] = false ∨ addr % 64 ≠ 0 then badOperand c
  else .ok (s.hostWrite addr (s.partRecord c.part)) 0

def execPartitionQuery (fn : Nat) (d : BitVec 512) (s : State) : Host.Outcome State Fault Refusal :=
  .next (s.runWcp vfPart fn d partitionQueryGo)

/-! ## Stop requests (R311, R318) -/

/-- A stop is requested of a context that runs or is being restored; one being saved ignores it (R318). -/
def State.requestStop (s : State) (k : Nat) : State :=
  match s.ctx? k with
  | none => s
  | some c => match c.loc with
    | .resident _ _ => s.setCtx k { c with stopReq := true }
    | .restoring _ => s.setCtx k { c with stopReq := true }
    | _ => s

/-- Rill on which a context is, in any frame. -/
def Context.onRill (c : Context) : Option Nat :=
  match c.loc with
  | .resident r _ => some r
  | .saving r => some r
  | .restoring r => some r
  | .saved => none

/-! ## Resizing (R296, R297) -/

/-- Contexts of a partition on cascades that leave it. -/
def State.ctxsLeaving (s : State) (p : Nat) : List Nat :=
  (s.ctxs.filter (fun c => decide (keyPart c.1 = p ∧ c.2.launch ≠ noLaunch) &&
    (match c.2.onRill with | some r => (s.part p).leaving (r / 16) | none => false))).map (fun c => c.1)

/-- Every launch of the partition holds, or is parked: its step boundary (R296). -/
def Part.allHold (p : Part) : Bool := p.launches.vals.all (fun l => l.holding || l.parked)

/-- Stage 2 begins: contexts on departing cascades are to be saved. -/
def State.resizeStage2 (s : State) (p : Nat) : State :=
  let s := s.setPart p { s.part p with stage := 2 }
  (s.ctxsLeaving p).foldl (fun (s : State) k => s.requestStop k) s

/-- Tiles in fault-return deques and rill deques of departing cascades go where the partition stays (R307). -/
def State.moveLeaving (s : State) (p : Nat) : State :=
  let q := s.part p
  let s := (q.rills.filter (fun r => q.leaving (r / 16))).foldl (fun (s : State) r =>
    (s.part p).launches.foldl (fun (s : State) l =>
      let items := l.2.deques.getD r [] ++ l.2.lists.getD r []
      let s := items.foldl (fun (s : State) t => s.pushFrq (s.returnCascade p (r / 16)) { part := p, tile := t }) s
      s.setLaunch p l.1 { l.2 with deques := l.2.deques.del r, lists := l.2.lists.del r }) s) s
  (q.cascadeList.filter (fun c => q.leaving c)).foldl (fun (s : State) c =>
    let items := s.frq c ++ s.frqOverflow c
    let s := { s with frqs := s.frqs.del c, frqOver := s.frqOver.del c }
    items.foldl (fun (s : State) x => s.pushFrq (s.returnCascade p c) x) s) s

/-- Stage 3: the cascade grant changes, and the next step of every holding launch may start. -/
def State.resizeStage3 (s : State) (p : Nat) : State :=
  match (s.part p).newGrant with
  | none => s
  | some g =>
    let s := s.moveLeaving p
    let q := s.part p
    let s := s.setPart p { q with
      stage := 3, oldCascades := q.grant.cascades &&& ~~~g.cascades,
      grant := { q.grant with cascades := g.cascades },
      launches := q.launches.mapV (fun _ l => { l with holding := false }) }
    s.checkRills p

/-- Go on with a pending resize: at the partition's step boundary, and when the departing contexts are saved. -/
def State.resizeGo (s : State) (p : Nat) : State :=
  let q := s.part p
  if q.state ≠ 2 then s
  else
    let s := if q.stage = 1 ∧ q.schedule.isNone ∧ q.allHold then s.resizeStage2 p else s
    if (s.part p).stage = 2 ∧ (s.ctxsLeaving p).isEmpty then s.resizeStage3 p else s

/-- The `partition.resize` in progress of a partition. -/
def State.resizeCmd? (s : State) (p : Nat) : Option Cmd :=
  s.host.inProgress.find? (fun c => decide (dOpcode c.d = 0x0102 ∧ c.part = p ∧ c.started = true))

def partitionResizeGo (s : State) (c : Cmd) : Reply :=
  let d := c.d
  let p := c.part
  let q := s.part p
  if q.state = 0 ∨ q.state = 3 then swFail kSwNoPartition p
  else if q.state = 2 then swFail kSwResizePending p
  else match s.grantCheck p (grantOf d) with
    | some k => swFail k p
    | none =>
      if dRestZero d [(16, 0, 4), (20, 0, 15), (24, 0, 64), (32, 0, 64), (40, 0, 64)] = false ∨ 16384 < dfld d 20 0 15 then badOperand c
      else .wait ((s.setPart p { q with state := 2, newGrant := some (grantOf d), stage := 1 }).resizeGo p)

def execPartitionResize (fn : Nat) (d : BitVec 512) (s : State) : Host.Outcome State Fault Refusal :=
  .next (s.runWcp ⟨true, some 0, false⟩ fn d partitionResizeGo)

/-- HBM group of a place lies in a mask. -/
def Place.inGroups (x : Place) (groups : BitVec 64) : Bool := decide (x.tier = 0) && bit groups.toNat x.group

/-- A page is moved out of departing groups: dropped to its home copy, or moved to a remaining group or a lower tier. -/
def State.movePageOut (s : State) (p n : Nat) : Option State :=
  let g := (s.part p).pages.getD n Page.absent
  match g.b with
  | some _ => some (s.dropUpper p n)
  | none =>
    match s.allocIn p 0 with
    | some (s, y) => some (s.movePage p n y)
    | none =>
      let ts := match (s.part p).objOf n with | some o => o.2.tiers.filter (fun t => decide (t ≠ 0)) | none => []
      match s.placeFirst p ((s.part p).rankOf n) ts with
      | some (s, y) => some (s.movePage p n y)
      | none => none

/-- Stage 5 over a list of pages: how far it came, and whether all fitted. -/
def State.evacuate (s : State) (p : Nat) : List Nat → State × Bool
  | [] => (s, true)
  | n :: ns =>
    match s.movePageOut p n with
    | some s => s.evacuate p ns
    | none => (s, false)

/-- Write back and drop the lines that a partition holds in departing ways (stage 4). -/
def State.leaveWays (s : State) (p : Nat) (gone : BitVec 64) : State :=
  (s.mem.lines.filter (fun l => decide (l.2.part = p) && bit gone.toNat (16 * dieOf (l.1 * 256) + l.2.way))).foldl
    (fun (s : State) l => s.evict l.1) s

/-- The HBM quota after a resize (R389). -/
def resizedQuota (quota : Nat) (old new : BitVec 64) : Nat :=
  let kept := if old &&& ~~~new = 0 then quota else min quota (groupPages (old &&& new))
  if new &&& ~~~old = 0 then kept else min (kept + groupPages (new &&& ~~~old)) (groupPages new)

/-- The resize ends: its command completes, and STATE returns to ACTIVE. -/
def State.endResize (s : State) (p : Nat) (k : Option Cause) : State :=
  let s := s.setPart p { s.part p with state := 1, newGrant := none, stage := 0, oldCascades := 0 }
  match s.resizeCmd? p, k with
  | some c, none => s.finish c 0 0
  | some c, some k => s.failCmd c k (partInst p) p
  | none, _ => s

/-- Stages 4 to 6 of R296, once nothing holds a page of a departing group; R297 when the pages do not fit. -/
def resizeComplete (p : Nat) (s : State) : State :=
  let q := s.part p
  match q.newGrant with
  | none => s
  | some g =>
    if q.state ≠ 2 ∨ q.stage ≠ 3 then s
    else
      let s := s.leaveWays p (q.grant.ways &&& ~~~g.ways)
      let gone := q.grant.groups &&& ~~~g.groups
      let ps : List Nat := Tab.keys (q.pages.filter (fun x => (x.2.a.toList ++ x.2.dest.toList).any (fun y => y.inGroups gone)))
      let busy := ps.any (fun n => s.held p n ||
        (let x := q.pages.getD n Page.absent
         decide (x.state = .staging ∨ x.state = .moving) || x.dest.isSome))
      if busy then s
      else
        let s := s.setPart p { q with grant := { q.grant with groups := q.grant.groups &&& g.groups } }
        let r := s.evacuate p ps
        let s := r.1
        let q' := s.part p
        if r.2 then
          let s := s.setPart p { q' with grant := g, quotaH := resizedQuota q'.quotaH q.grant.groups g.groups }
          (s.endResize p none).sweepSluice
        else
          ((s.setPart p { q' with grant := q.grant }).endResize p (some kSlResizeNoRoom)).sweepSluice

def execResizeComplete (part : Nat) (s : State) : Host.Outcome State Fault Refusal := .next (resizeComplete part s)

/-! ## `partition.destroy` (R295, R298, R543) -/

/-- The streams of a partition return to FREE (R257, R295). -/
def State.freeStreams (s : State) (p : Nat) : State :=
  let ns : List Nat := Tab.keys (s.streams.filter (fun (e : Nat × BitVec 1024) => decide (eState e.2 ≠ 0 ∧ ePart e.2 = p)))
  ns.foldl (fun (s : State) n =>
    let s := (List.range cascadeCount).foldl (fun (s : State) c =>
      if (s.copy? c n).isSome then s.setCopies c ((s.copies c).del n) else s) s
    s.setEntry n (eSet (s.entry n) 0 0 3 0)) s

/-- Destroy a partition: its launches, a pending resize and its collective operations end with PARTITION_GONE, its streams
are FREE, and its objects and graphs are freed as their holds end. -/
def State.destroyPart (s : State) (p : Nat) : State :=
  let gone := kSwPartitionGone.flint (partInst p)
  let resize := s.resizeCmd? p
  let s := s.setPart p { s.part p with state := 3, newGrant := none, stage := 0 }
  let s := (s.part p).launches.keys.foldl (fun (s : State) h =>
    (s.raise kSwPartitionGone (partInst p) { part := p }).endLaunch p h gone) s
  let s := match resize with
    | some c => s.failCmd c kSwPartitionGone (partInst p) p
    | none => s
  let s := (s.coll.ops.filter (fun o => decide (o.part = p) && !o.done)).foldl (fun (s : State) o => s.abortOp o kSwPartitionGone) s
  let s := { s with coll := { s.coll with ops := s.coll.ops.filter (fun (o : CollOp) => decide (o.part ≠ p)),
                                          aborted := s.coll.aborted.filter (fun (o : CollOp) => decide (o.part ≠ p)),
                                          groups := s.coll.groups.keep (fun _ g => decide (g.part ≠ p)) } }
  let s := s.freeStreams p
  let s := (s.part p).objects.keys.foldl (fun (s : State) b => s.freeObj p b) s
  let q := s.part p
  (s.setPart p { q with graphs := [], buckets := [], schedule := none, nextSchedule := none, drains := [] }).sweepFrees

def partitionDestroyGo (s : State) (c : Cmd) : Reply :=
  if dRestZero c.d [(16, 0, 4)] = false then badOperand c
  else if (s.part c.part).state = 3 then swFail kSwNoPartition c.part
  else .wait (s.destroyPart c.part)

def execPartitionDestroy (fn : Nat) (d : BitVec 512) (s : State) : Host.Outcome State Fault Refusal :=
  .next (s.runWcp pfPart fn d partitionDestroyGo)

/-! ## Graphs (R545 to R548) -/

/-- A source of bytes: `n` bytes little-endian at an offset. -/
def State.srcLe (s : State) (p : Nat) (obj : Bool) (base off n : Nat) : Nat :=
  if obj then s.partLe p (base + off) n else Memory.le s.mem.host (base + off) n

/-- Header fields of a graph image: phases, tiles, code bytes, entry, and the four offsets. -/
structure GraphHead where
  phases : Nat
  tiles : Nat
  code : Nat
  entry : Nat
  phaseOff : Nat
  tileOff : Nat
  listOff : Nat
  codeOff : Nat
  deriving DecidableEq, Repr

/-- The header, when it keeps R545 and the tables and the code lie inside LENGTH. -/
def graphHead (rd : Nat → Nat → Nat) (len : Nat) : Option GraphHead :=
  let h : GraphHead := { phases := rd 6 2, tiles := rd 8 4, code := rd 12 4, entry := rd 16 8, phaseOff := rd 24 4, tileOff := rd 28 4,
                         listOff := rd 32 4, codeOff := rd 36 4 }
  if 64 ≤ len ∧ rd 0 4 = 0x4B475231 ∧ rd 4 2 = 1 ∧ 1 ≤ h.phases ∧ h.phases ≤ 4096 ∧ 1 ≤ h.tiles ∧ h.tiles ≤ 2 ^ 24 ∧ h.code % 8 = 0 ∧
      rd 40 24 = 0 ∧ h.phaseOff + 64 * h.phases ≤ len ∧ h.tileOff + 32 * h.tiles ≤ len ∧ h.listOff ≤ len ∧ h.codeOff + h.code ≤ len
  then some h else none

/-- One phase record with its lists, when it keeps R546. -/
def State.readPhase (s : State) (p : Nat) (rd : Nat → Nat → Nat) (len : Nat) (h : GraphHead) (k : Nat) : Option Phase :=
  let a := h.phaseOff + 64 * k
  let nb := rd (a + 10) 2
  let lb := h.listOff + rd (a + 12) 4
  let nw := rd (a + 16) 2
  let lw := h.listOff + rd (a + 20) 4
  let gated := decide (rd (a + 18) 1 % 2 = 1)
  let ph : Phase :=
    { firstTile := rd a 4, tileCount := rd (a + 4) 4, normLayer := rd (a + 8) 2,
      buckets := (List.range (min nb 256)).map (fun i => rd (lb + i) 1),
      windows := (List.range (min nw 64)).map (fun i => (rd (lw + 16 * i) 8, rd (lw + 16 * i + 8) 2)), gated := gated,
      gateOff := rd (a + 24) 8, gateBase := BitVec.ofNat 64 (rd (a + 32) 8), gateStep := BitVec.ofNat 64 (rd (a + 40) 8) }
  let q := s.part p
  if 1 ≤ ph.tileCount ∧ ph.firstTile + ph.tileCount ≤ h.tiles ∧ (ph.normLayer < 1024 ∨ ph.normLayer = 0xFFFF) ∧ nb ≤ 256 ∧ nw ≤ 64 ∧
      lb + nb ≤ len ∧ lw + 16 * nw ≤ len ∧ rd (a + 18) 1 / 2 = 0 ∧ rd (a + 19) 1 = 0 ∧ rd (a + 48) 16 = 0 ∧
      ph.windows.all (fun w => (q.objects.at? w.1).any (fun o => decide (o.role = 1 ∨ o.role = 2))) = true ∧
      (List.range nw).all (fun i => decide (rd (lw + 16 * i + 10) 6 = 0)) = true ∧
      (gated = true → ph.gateOff % 8 = 0 ∧ (q.objAt ph.gateOff).isSome = true)
  then some ph else none

/-- All of a list of options, or none. -/
def allSome {α : Type} : List (Option α) → Option (List α)
  | [] => some []
  | none :: _ => none
  | some x :: t => (allSome t).map (fun l => x :: l)

/-- A graph image that keeps its rules, without its code object. -/
def State.readGraph (s : State) (p : Nat) (rd : Nat → Nat → Nat) (len : Nat) : Option (GraphHead × Graph) :=
  match graphHead rd len with
  | none => none
  | some h =>
    match allSome ((List.range h.phases).map (fun k => s.readPhase p rd len h k)) with
    | none => none
    | some phases =>
      let tiles := (List.range h.tiles).map (fun i =>
        let a := rd (h.tileOff + 32 * i) 8
        ((if bit a 63 then some (bits a 0 44) else none), BitVec.ofNat 192 (rd (h.tileOff + 32 * i + 8) 24)))
      some (h, { phases := phases, tiles := tiles, code := 0, codeBytes := h.code, entryPc := h.entry })

/-- Free a graph and its code object. -/
def State.freeGraph (s : State) (p n : Nat) (g : Graph) : State :=
  let s := s.freeObj p g.code
  s.setPart p { s.part p with graphs := (s.part p).graphs.del n }

def graphLoadGo (s : State) (c : Cmd) : Reply :=
  let d := c.d
  let p := c.part
  let q := s.part p
  let n := dfld d 20 0 16
  if dfld d 17 1 1 = 1 then
    if dRestZero d [(16, 0, 4), (17, 1, 1), (20, 0, 16)] = false then badOperand c
    else match q.graphs.at? n with
      | none => badOperand c
      | some g => if q.launches.any (fun l => decide (l.2.graph = n)) then .fail kCmGraphBusy c.fn else .ok (s.freeGraph p n g) 0
  else
    let obj := decide (dfld d 17 0 1 = 1)
    let base := dfld d 24 0 64
    let len := dfld d 32 0 64
    let rd := s.srcLe p obj base
    if dRestZero d [(16, 0, 4), (17, 0, 1), (24, 0, 64), (32, 0, 64)] = false ∨ (obj = true ∧ !q.inObject base len) then badOperand c
    else match s.readGraph p rd len with
      | none => .fail kCmGraphBad c.fn
      | some (h, g) =>
        match (List.range 64).find? (fun k => (q.graphs.at? k).isNone) with
        | none => .fail kCmGraphLimit c.fn
        | some k =>
          match s.declare p (Obj.plain (max 1 ((h.code + pageBytes - 1) / pageBytes)) 7) with
          | none => slFail kSlNoSpace p
          | some (s, b) =>
            let s := s.collWrite p b (leBytes h.code (rd h.codeOff h.code))
            .ok (s.setPart p { s.part p with graphs := (s.part p).graphs.put k { g with code := b } }) (BitVec.ofNat 64 k)

def execGraphLoad (fn : Nat) (d : BitVec 512) (s : State) : Host.Outcome State Fault Refusal :=
  .next (s.runWcp vfPart fn d graphLoadGo)

/-! ## `graph.launch` (R299, R549) -/

/-- Create contexts of a launch with the lowest free numbers, each with a save image of its own. -/
def State.createCtxs (s : State) (p h threads region obj : Nat) (pc : W64) (i : Nat) : Nat → State × List Nat
  | 0 => (s, [])
  | n + 1 =>
    match s.freeNumber p with
    | none => (s, [])
    | some x =>
      let k := ctxKey p x
      let s := s.setCtx k (newCtx h threads region (obj + i * (0x10000 + region)) pc s.clk.tb)
      let r := s.createCtxs p h threads region obj pc (i + 1) n
      (r.1, k :: r.2)

/-- Place a context on a rill when it fits (R299). -/
def State.placeCtx (s : State) (k r : Nat) : Option State :=
  match s.ctx? k with
  | none => none
  | some c => if s.inService r && s.fitsRill r c none then some ((s.claimRegion k r).enterFrame k r) else none

/-- One round over the rills, one context on each that has room. -/
def State.placeRound (s : State) : List Nat → List Nat → State × List Nat
  | [], ks => (s, ks)
  | _, [] => (s, [])
  | r :: rs, k :: ks =>
    match s.placeCtx k r with
    | some s => s.placeRound rs ks
    | none => s.placeRound rs (k :: ks)

/-- Rounds until no rill has room. -/
def State.placeAll (s : State) (rs ks : List Nat) : Nat → State
  | 0 => s
  | n + 1 =>
    let r := s.placeRound rs ks
    if r.2.length = ks.length then r.1 else r.1.placeAll rs r.2 n

/-- A launch as it starts. -/
def Launch.fresh (graph threads contexts region steps saveObj slot : Nat) (tokens : Option (Nat × Nat)) (holding : Bool) (now : Nat) :
    Launch :=
  { graph := graph, threads := threads, contexts := contexts, region := region, steps := steps, tokens := tokens, step := 0, phase := 0,
    released := false, holding := holding, parked := false, stop := false, ended := [], deques := [], lists := [], saveObj := saveObj,
    slot := slot, rotor := [], cur := 1, norm0 := [], norm1 := [], incomplete := false, normBuf := [], stepStart := now, bucketHold := 0,
    windowShrunk := false }

/-- The operands of a new launch are in range (R549). -/
def State.launchOk (s : State) (p : Nat) (d : BitVec 512) : Bool :=
  let q := s.part p
  let h := dfld d 20 0 16
  let tok := decide (dfld d 17 1 1 = 1)
  dRestZero d [(16, 0, 4), (17, 0, 2), (18, 0, 16), (20, 0, 16), (22, 0, 8), (24, 0, 32), (28, 0, 16), (32, 0, 32), (40, 0, 44), (48, 0, 16)] &&
  decide (h ≠ 0xFFFF ∧ 1 ≤ dfld d 22 0 8 ∧ dfld d 22 0 8 ≤ 32 ∧ 1 ≤ dfld d 24 0 32 ∧ 1 ≤ dfld d 28 0 16 ∧ dfld d 28 0 16 ≤ 16) &&
  (!tok || (decide (1 ≤ dfld d 48 0 16 ∧ dfld d 48 0 16 ≤ 4096) && q.inObject (dfld d 40 0 44) (8 * dfld d 48 0 16))) &&
  (q.launches.at? h).isNone &&
  decide (dfld d 24 0 32 + (s.ctxs.filter (fun c => decide (keyPart c.1 = p))).length + q.retired.length ≤ 65536) &&
  (match q.graphs.at? (dfld d 18 0 16) with
   | none => false
   | some g => g.phases.all (fun ph => ph.buckets.all (fun b => (q.buckets.at? b).any (fun x => decide (x.launch = h ∨ x.launch = 0xFFFF)))))

/-- Create a launch with its object, its contexts and their places. -/
def State.startLaunch (s : State) (p : Nat) (d : BitVec 512) (g : Graph) : Option State :=
  let h := dfld d 20 0 16
  let n := dfld d 24 0 32
  let region := dfld d 28 0 16 * 0x10000
  let size := n * (0x10000 + region) + 32 * g.tiles.length
  match s.declare p (Obj.plain ((size + pageBytes - 1) / pageBytes) 6) with
  | none => none
  | some (s, obj) =>
    let q := s.part p
    let slot := ((List.range 4).find? (fun k => !(q.launches.vals.any (fun l => decide (l.slot = k))))).getD 0
    let tok := if dfld d 17 1 1 = 1 then some (dfld d 40 0 44, dfld d 48 0 16) else none
    let held := decide (q.state = 2 ∧ (q.stage = 1 ∨ q.stage = 2)) && q.launches.vals.any (fun l => l.holding)
    let l := Launch.fresh (dfld d 18 0 16) (dfld d 22 0 8) n region (dfld d 32 0 32) obj slot tok held s.now
    let s := s.setPart p { q with launches := q.launches.put h l, norms := q.norms.del h,
                                  buckets := q.buckets.mapV (fun _ b => if b.launch = 0xFFFF then { b with launch := h } else b) }
    let r := s.createCtxs p h (dfld d 22 0 8) region obj (BitVec.ofNat 64 (g.code + g.entryPc)) 0 n
    let s := r.1
    let active := match (s.part p).slotLaunch with | some x => decide (x = h) | none => true
    let s := if active then s.placeAll ((s.part p).rills) r.2 5 else s
    some ((s.windowStaging p h).checkRills p)

def graphLaunchGo (s : State) (c : Cmd) : Reply :=
  let d := c.d
  let p := c.part
  let q := s.part p
  let h := dfld d 20 0 16
  if dfld d 17 0 1 = 1 then
    if dRestZero d [(16, 0, 4), (17, 0, 1), (20, 0, 16)] = false then badOperand c
    else match q.launches.at? h with
      | none => .fail kCmNoLaunch c.fn
      | some l => if l.parked then .ok (s.setLaunch p h { l with parked := false }) 0 else badOperand c
  else if !s.launchOk p d then badOperand c
  else if 4 ≤ q.launches.length then swFail kSwLaunchLimit p
  else match q.graphs.at? (dfld d 18 0 16) with
    | none => badOperand c
    | some g => match s.startLaunch p d g with
      | none => slFail kSlNoSpace p
      | some s => .wait s

def execGraphLaunch (fn : Nat) (d : BitVec 512) (s : State) : Host.Outcome State Fault Refusal :=
  .next (s.runWcp vfPart fn d graphLaunchGo)

/-! ## `graph.preempt` (R311, R550) -/

/-- A launch that is parked with nothing left to save: its `graph.preempt` completes with what it saved. -/
def State.preemptGo (s : State) (p h : Nat) : State :=
  let live := (s.ctxsOf p h).any (fun k => (s.ctx? k).any (fun c => decide (c.loc ≠ .saved)))
  if live then s
  else (s.host.inProgress.filter (fun c => decide (dOpcode c.d = 0x0403 ∧ c.part = p ∧ c.started = true ∧ dfld c.d 20 0 16 = h))).foldl
    (fun (s : State) c => s.finish c 0 (BitVec.ofNat 64 c.a)) s

/-- Park a launch: a stop is requested of its contexts. -/
def State.park (s : State) (p h : Nat) : State :=
  match s.launch? p h with
  | none => s
  | some l => (s.ctxsOf p h).foldl (fun (s : State) k => s.requestStop k) (s.setLaunch p h { l with parked := true })

def graphPreemptGo (s : State) (c : Cmd) : Reply :=
  let d := c.d
  let p := c.part
  let h := dfld d 20 0 16
  if dRestZero d [(16, 0, 4), (20, 0, 16)] = false then badOperand c
  else match s.launch? p h with
    | none => .fail kCmNoLaunch c.fn
    | some l =>
      if l.parked then .ok s 0
      else
        let n := ((s.ctxsOf p h).filter (fun k => (s.ctx? k).any (fun x => decide (x.loc ≠ .saved)))).length
        .wait ((((s.updCmd c.order (fun c => { c with a := n })).park p h).preemptGo p h).resizeGo p)

def execGraphPreempt (fn : Nat) (d : BitVec 512) (s : State) : Host.Outcome State Fault Refusal :=
  .next (s.runWcp vfPart fn d graphPreemptGo)

/-! ## `step.fence` (R551) -/

def stepFenceGo (s : State) (c : Cmd) : Reply :=
  let d := c.d
  if dRestZero d [(16, 0, 4), (17, 0, 1), (20, 0, 16)] = false then badOperand c
  else if (s.launch? c.part (dfld d 20 0 16)).isNone then .fail kCmNoLaunch c.fn
  else .wait s

def execStepFence (fn : Nat) (d : BitVec 512) (s : State) : Host.Outcome State Fault Refusal :=
  .next (s.runWcp vfPart fn d stepFenceGo)

/-! ## Releasing a phase (R300, R380, R426, R443) -/

/-- Base die that holds the copy of an anchor page that accesses use. -/
def Part.anchorDie (p : Part) (a : Option Nat) : Option Nat :=
  match a with
  | some off => if (p.objAt off).isSome then ((p.page off).a).map (fun x => x.die) else none
  | none => none

/-- The next rill of a list at or after a pointer. -/
def rotate (l : List Nat) (ptr : Nat) : Option Nat :=
  match l.find? (fun r => decide (ptr ≤ r)) with
  | some r => some r
  | none => l.head?

/-- Rill of a tile's first assignment, with the launch's rotations after it. -/
def Part.assign (p : Part) (rills : List Nat) (l : Launch) (a : Option Nat) : Option (Launch × Nat) :=
  let on := fun (t : Nat) => rills.filter (fun r => decide (r / 256 = t))
  let pick := fun (key : Nat) (c : List Nat) =>
    (rotate c (l.rotor.getD key 0)).map (fun r => ({ l with rotor := l.rotor.put key (r + 1) }, r))
  match (p.anchorDie a).bind (fun d => ((List.range 4).map (fun i => (d + i) % 4)).find? (fun t => !(on t).isEmpty)) with
  | some t => pick t (on t)
  | none => pick 4 rills

/-- Put a tile behind a rill's deque, or behind its tile list when the deque is full (R302). -/
def Launch.enqueue (l : Launch) (r : Nat) (t : Tile) : Launch :=
  if (l.deques.getD r []).length < 256 ∧ (l.lists.getD r []).length = 0 then { l with deques := l.deques.put r (l.deques.getD r [] ++ [t]) }
  else { l with lists := l.lists.put r (l.lists.getD r [] ++ [t]) }

/-- Release the tiles of a phase. -/
def Part.releaseTiles (p : Part) (rills : List Nat) (g : Graph) (h phase : Nat) (ns : List Nat) (l : Launch) : Launch :=
  ns.foldl (fun (l : Launch) n =>
    let rec_ := g.tiles.getD n (none, 0)
    match p.assign rills l rec_.1 with
    | some (l, r) => l.enqueue r { launch := h, index := n, phase := phase, args := rec_.2, retry := false, stolen := false }
    | none => l) l

/-- A record of a launch's token area is VALID (R553). -/
def State.tokensValid (s : State) (p : Nat) (t : Option (Nat × Nat)) : Bool :=
  match t with
  | none => false
  | some (off, n) => (List.range n).any (fun i => bit (s.partLe p (off + 8 * i) 8) 15)

/-- The gate of a phase is open at a step (R443). -/
def State.gateOpen (s : State) (p : Nat) (ph : Phase) (step : Nat) : Bool :=
  !ph.gated || decide ((ph.gateBase.toNat + ph.gateStep.toNat * step) % 2 ^ 64 ≤ s.partLe p ph.gateOff 8)

/-- Every bucket that a phase lists is REDUCED (R426). -/
def Part.bucketsReady (p : Part) (ph : Phase) : Bool := ph.buckets.all (fun b => (p.buckets.at? b).any (fun x => decide (x.state = 3)))

/-- Release the next phase of a launch when everything that R300, R296, R426, R443 and R553 ask for holds. -/
def State.releasePhase (s : State) (p h : Nat) : State :=
  let q := s.part p
  match q.launches.at? h with
  | none => s
  | some l =>
    match q.graphs.at? l.graph with
    | none => s
    | some g => match g.phases[l.phase]? with
      | none => s
      | some ph =>
        if l.released || l.holding || decide (q.state ≠ 1 ∧ q.state ≠ 2) || !q.bucketsReady ph || !s.gateOpen p ph l.step ||
            (decide (l.phase = 0 ∧ 0 < l.step) && s.tokensValid p l.tokens) then s
        else
          let rills := q.rills.filter s.inService
          let l := q.releaseTiles rills g h l.phase ((List.range ph.tileCount).map (fun i => ph.firstTile + i)) { l with released := true, ended := [] }
          ((s.setLaunch p h l).windowStaging p h).checkRills p

def execPhaseRelease (part launch : Nat) (s : State) : Host.Outcome State Fault Refusal := .next (if s.pwr.held then s else s.releasePhase part launch)

/-- The gate of the phase that waits is looked at again; only a gated phase is concerned. -/
def gateCheck (p h : Nat) (s : State) : State :=
  let gated : Bool := match (s.part p).launches.at? h with
    | some l => (((s.part p).graphs.at? l.graph).bind (fun g => g.phases[l.phase]?)).any (fun ph => ph.gated)
    | none => false
  if gated then s.releasePhase p h else s

def execGateCheck (part launch : Nat) (s : State) : Host.Outcome State Fault Refusal := .next (if s.pwr.held then s else gateCheck part launch s)

/-! ## Generation tokens (R275, R553) -/

/-- TAG of a generation stream's completions. -/
def tokenTag (n : Nat) : W32 := BitVec.ofNat 32 (0xFF000000 + n)

/-- A token of an OPEN generation stream is posted: POSITION grows, and the stream is DONE at MAX_POS. -/
def State.postToken (s : State) (f n tok : Nat) : State :=
  let e := s.entry n
  let pos := (eStep e + 1) % 2 ^ 32
  let e := eSet e 56 0 32 pos
  let full := decide (eMaxPos e ≠ 0 ∧ eMaxPos e ≤ pos)
  let e := if full then eSet e 0 0 3 3 else e
  let s := (s.setEntry n e).updateCopies n
  let s := { s with host := { s.host with limitsTold := s.host.limitsTold.filter (fun m => decide (m ≠ n)) } }
  s.post f 0 (tokenTag n) (BitVec.ofNat 64 (tok + pos * 2 ^ 32)) false

/-- One VALID record: what it does, or nothing yet when it needs a completion entry and none is free. -/
def State.postRecord (s : State) (p f off : Nat) : Option State :=
  let w := s.partLe p off 8
  let n := bits w 0 14
  let e := s.entry n
  let clear := fun (s : State) => s.partWriteGo p off (leBytes 8 (setBits w 15 1 0))
  let mine := decide (ePart e = p) && eGeneration e
  if mine && decide (eState e = 1) then
    if s.freeEntries f = 0 then none else some (clear (s.postToken f n (bits w 32 32)))
  else if mine && decide (eState e = 3) then
    if s.host.limitsTold.contains n then some (clear s)
    else if s.freeEntries f = 0 then none
    else
      let s := { s with host := { s.host with limitsTold := n :: s.host.limitsTold } }
      let s := s.raiseStream kStPositionLimit 0xFFF n { part := p }
      some (clear (s.post f (kStPositionLimit.flint 0xFFF) (tokenTag n) (BitVec.ofNat 64 (eStep e * 2 ^ 32)) false))
  else some ((clear s).raise kWhTokenDropped f { part := p })

/-- Records in order, as far as entries are free. -/
def State.postRecords (s : State) (p f : Nat) : List Nat → State
  | [] => s
  | off :: t =>
    if bit (s.partLe p off 8) 15 then
      match s.postRecord p f off with
      | some s => s.postRecords p f t
      | none => s
    else s.postRecords p f t

/-- The token area of a launch, posted to the mailbox of the partition's VF, or PF0's. -/
def State.postTokens (s : State) (p : Nat) (t : Option (Nat × Nat)) : State :=
  match t with
  | none => s
  | some (off, n) => s.postRecords p (s.vfOf p) ((List.range n).map (fun i => off + 8 * i))

/-- Records that wait for entries of a function are posted: of launches at a step boundary, and of launches that have
ended. -/
def State.postWaiting (s : State) (f : Nat) : State :=
  s.parts.keys.foldl (fun (s : State) p =>
    if s.vfOf p ≠ f ∨ (s.part p).state = 0 then s
    else
      let s := (s.part p).launches.foldl (fun (s : State) l =>
        if l.2.phase = 0 ∧ l.2.released = false ∧ 0 < l.2.step then s.postTokens p l.2.tokens else s) s
      let s := (s.part p).drains.foldl (fun (s : State) t => s.postTokens p (some t)) s
      s.setPart p { s.part p with drains := (s.part p).drains.filter (fun t => s.tokensValid p (some t)) }) s

/-! ## The step boundary of a launch (R49, R296, R322, R407, R425, R428, R429, R435, R512, R514, R551, R553) -/

/-- Every bucket of the launch is REDUCED, every norm buffer has written back, and no tile is left. -/
def State.stepDone (s : State) (p h : Nat) (l : Launch) : Bool :=
  let q := s.part p
  !l.released && q.stepOver l && l.normBuf.isEmpty && (q.bucketsOf h).all (fun b => decide (b.2.state = 3) &&
    (!b.2.zero || b.2.pageNums.all (fun n => !s.held p n)))

/-- The range of a bucket with ZERO becomes ABSENT, its lines invalid (R425). -/
def State.zeroBucket (s : State) (p : Nat) (b : Bucket) : State :=
  b.pageNums.foldl (fun (s : State) n =>
    match (s.part p).pages.at? n with
    | none => s
    | some g =>
      let l := g.a.toList ++ g.b.toList ++ g.dest.toList
      let s := l.foldl (fun (s : State) x => (s.dropLines x).freePlace x) (s.forgetPage p n)
      s.setPart p { s.part p with pages := (s.part p).pages.del n }) s

/-- Buckets at a step boundary: back to OPEN, or with the settings that waited for it. -/
def State.turnBuckets (s : State) (p h : Nat) : State :=
  ((s.part p).bucketsOf h).foldl (fun (s : State) b =>
    let s := if b.2.zero then s.zeroBucket p b.2 else s
    match b.2.next with
    | some d => s.applyBucket p b.1 d
    | none => s.setBucket p b.1 { b.2 with state := 0 }) s

/-- WINDOW and LAYERS hints that waited take effect (R407). -/
def Part.turnHints (p : Part) : Part :=
  { p with objects := p.objects.mapV (fun _ o =>
      { o with window := o.nextWindow.getD o.window, layers := o.nextLayers.getD o.layers, nextWindow := none, nextLayers := none }) }

/-- Pace exchanges of a launch that ended a step: one in each group with PACE that a bucket of it names (R512). -/
def State.startPace (s : State) (p h step idle dur : Nat) : State :=
  let gids := (((s.part p).bucketsOf h).filterMap (fun b => if b.2.op ≠ 0 then some b.2.group else none)).eraseDups
  gids.foldl (fun (s : State) gid =>
    match s.group? p gid with
    | some g =>
      if g.pace then
        s.startOp { CollOp.fresh p gid (bucketOpseq step 0) 1 1 0 with
          pace := true, own := leBytes 4 (min (usOf idle) (2 ^ 31 - 1)) ++ leBytes 4 1, idle := idle, step := dur, len := 8 }
      else s
    | none => s) s

/-- A `handover.begin` of the launch is pending: the launch is parked and the copy starts (R514). -/
def State.startHandover (s : State) (p h : Nat) : State :=
  match s.reshard? p h with
  | some r =>
    if r.handover && !r.switched then
      let s := { s with coll := { s.coll with reshards := s.coll.reshards.map (fun (q : Reshard) => if q = r then { q with switched := true } else q) } }
      (s.park p h).startOp { CollOp.fresh p r.gid r.opseq 5 2 0 with segOut := r.segOut, segIn := r.segIn, cmd := some r.cmd }
    else s
  | none => s

/-- The launch whose slot it is gives the rest of it away (R322). -/
def State.earlyEnd (s : State) (p h : Nat) : State :=
  let q := s.part p
  match q.schedule with
  | none => s
  | some c =>
    match c.entries[c.slot]? with
    | none => s
    | some e =>
      if e.launch = h ∧ e.earlyEnd = true ∧ c.early = false then
        let s := s.setPart p { q with schedule := some { c with early := true } }
        if (s.part p).slotLaunch = some h then s else (s.ctxsOf p h).foldl (fun (s : State) k => s.requestStop k) s
      else s

/-- The fences of a launch complete with the index of the step just ended; whether one asks for the launch to end. -/
def State.endFences (s : State) (p h step : Nat) : State × Bool :=
  let fs := s.host.inProgress.filter (fun c => decide (dOpcode c.d = 0x0405 ∧ c.part = p ∧ c.started = true ∧ dfld c.d 20 0 16 = h))
  (fs.foldl (fun (s : State) c => s.finish c 0 (BitVec.ofNat 64 step)) s, fs.any (fun c => decide (dfld c.d 17 0 1 = 1)))

/-- Release waits for the boundary of a resizing partition. -/
def Part.holdsSteps (p : Part) : Bool := decide (p.state = 2 ∧ p.stage = 1) && p.schedule.isNone

/-- The step boundary of a launch. -/
def launchStepBoundary (p h : Nat) (s : State) : State :=
  match s.launch? p h with
  | none => s
  | some l =>
    if !s.stepDone p h l then s
    else
      let ended := l.step
      let idle := l.bucketHold
      let dur := s.now - l.stepStart
      let l := if ended % 2 = 0 then { l with norm1 := [] } else { l with norm0 := [] }
      let l := { l with step := ended + 1, phase := 0, ended := [], stepStart := s.now, bucketHold := 0, incomplete := false }
      let s := (s.setLaunch p h l).turnBuckets p h
      let s := (s.setPart p (s.part p).turnHints).trySwitch p h true
      let s := s.postTokens p l.tokens
      let f := s.endFences p h ended
      let s := f.1.startPace p h ended idle dur
      if f.2 || decide (l.steps ≠ 0 ∧ l.steps ≤ ended + 1) then
        let s := if s.tokensValid p l.tokens then s.setPart p { s.part p with drains := (s.part p).drains ++ l.tokens.toList } else s
        ((s.endLaunch p h 0 (BitVec.ofNat 64 (ended + 1))).resizeGo p)
      else
        let s := s.startHandover p h
        let s := match s.launch? p h with
          | some l => s.setLaunch p h { l with holding := (s.part p).holdsSteps }
          | none => s
        ((s.earlyEnd p h).windowStaging p h).resizeGo p

def execLaunchStepBoundary (part launch : Nat) (s : State) : Host.Outcome State Fault Refusal :=
  .next (if s.pwr.held then s else launchStepBoundary part launch s)

/-! ## Cyclic schedules (R319 to R323, R552) -/

/-- The period of a table in ns. -/
def Schedule.period (c : Schedule) : Nat := (c.entries.map (fun e => e.durationUs)).sum * 1000

/-- Entry whose window holds a time within the period, in ns. -/
def slotAt : List SlotEntry → Nat → Nat → Nat
  | [], i, _ => i
  | e :: t, i, x => if x < e.durationUs * 1000 then i else slotAt t (i + 1) (x - e.durationUs * 1000)

/-- An 8-byte entry of a table, when it keeps R319. -/
def Part.readSlot (p : Part) (w : Nat) : Option SlotEntry :=
  let e : SlotEntry := { durationUs := bits w 0 24, launch := bits w 24 16, earlyEnd := bit w 40 }
  if 50 ≤ e.durationUs ∧ bits w 41 23 = 0 ∧ (e.launch = 0xFFFF ∨ (p.launches.at? e.launch).isSome) then some e else none

/-- End of the current period of a table, in ns. -/
def Schedule.periodEnd (c : Schedule) (t : Nat) : Nat :=
  if t < c.start ∨ c.period = 0 then c.start else c.start + ((t - c.start) / c.period + 1) * c.period

def scheduleTableSetGo (s : State) (c : Cmd) : Reply :=
  let d := c.d
  let p := c.part
  let q := s.part p
  let n := dfld d 20 0 16
  let addr := dfld d 24 0 64
  if !q.serving then swFail kSwNotServing p
  else if dRestZero d [(16, 0, 4), (20, 0, 16), (24, 0, 64)] = false ∨ 64 < n ∨ addr % 8 ≠ 0 then badOperand c
  else
    let at_ := match q.schedule with
      | some x => x.periodEnd s.tbNs
      | none => if n = 0 then s.tbNs else (s.tbNs + 999) / 1000 * 1000
    if n = 0 ∧ q.schedule.isNone then .ok s (BitVec.ofNat 64 at_)
    else match allSome ((List.range n).map (fun i => q.readSlot (Memory.le s.mem.host (addr + 8 * i) 8))) with
      | none => swFail kSwBadTable p
      | some es =>
        .ok (s.setPart p { q with nextSchedule := some { entries := es, start := at_, slot := 0, early := false } }) (BitVec.ofNat 64 at_)

def execScheduleTableSet (fn : Nat) (d : BitVec 512) (s : State) : Host.Outcome State Fault Refusal :=
  .next (s.runWcp pfPart fn d scheduleTableSetGo)

/-- A slot begins: contexts of other launches are pre-empted, the window of its launch is staged, and a pending resize of
the partition reaches its boundary (R298, R321, R413). -/
def State.beginSlot (s : State) (p : Nat) : State :=
  let q := s.part p
  let h := q.slotLaunch
  let s := (s.ctxs.filter (fun c => decide (keyPart c.1 = p ∧ c.2.launch ≠ noLaunch ∧ some c.2.launch ≠ h))).foldl
    (fun (s : State) c => s.requestStop c.1) s
  let s := match h with
    | some x => s.windowStaging p x
    | none => s
  if q.state = 2 ∧ q.stage = 1 then (s.resizeStage2 p).resizeGo p else s

/-- The next slot of a partition's table begins (R320, R321). -/
def slotStart (p : Nat) (s : State) : State :=
  let q := s.part p
  match q.schedule with
  | none => s
  | some c =>
    if s.tbNs < c.start ∨ c.period = 0 then s
    else
      let i := slotAt c.entries 0 ((s.tbNs - c.start) % c.period)
      if i = c.slot then s
      else (s.setPart p { q with schedule := some { c with slot := i, early := false } }).beginSlot p

def execSlotStart (part : Nat) (s : State) : Host.Outcome State Fault Refusal := .next (if s.pwr.held then s else slotStart part s)

/-- A table, or its removal, takes effect (R323). -/
def scheduleTableEffect (p : Nat) (s : State) : State :=
  let q := s.part p
  match q.nextSchedule with
  | none => s
  | some n =>
    if s.tbNs < n.start ∨ q.state = 0 ∨ q.state = 3 then s
    else if n.entries = [] then (s.setPart p { q with schedule := none, nextSchedule := none }).resizeGo p
    else (s.setPart p { q with schedule := some n, nextSchedule := none }).beginSlot p

def execScheduleTableEffect (part : Nat) (s : State) : Host.Outcome State Fault Refusal := .next (if s.pwr.held then s else scheduleTableEffect part s)

/-! ## Saves (R122 to R124, R166, R312, R313) -/

/-- A stop request reaches the rill: the context's threads issue nothing, and its queued instructions are recorded.
`latency` is what the rill measures until the state stands in frame 4 (R312). -/
def contextStopRequest (p n latency : Nat) (s : State) : State :=
  let k := ctxKey p n
  match s.ctx? k with
  | none => s
  | some c =>
    match c.loc with
    | .resident r _ =>
      if !c.stopReq || c.stopping || c.zeroing then s
      else
        let v := s.rill r
        let mine := fun (q : QEntry) => decide (q.ctx = k)
        let s := s.setCtx k { c with stopping := true, mx := c.mx ++ v.mxQ.filter mine, vx := c.vx ++ v.vxQ.filter mine }
        let s := s.setRill r { v with mxQ := v.mxQ.filter (fun q => !mine q), vxQ := v.vxQ.filter (fun q => !mine q) }
        let s := (s.setF (swPreLast r) latency).setF (swPreMax r) (max (s.getF (swPreMax r)) latency)
        s.wakeRill r
    | _ => s

def execContextStopRequest (part ctx latency : Nat) (s : State) : Host.Outcome State Fault Refusal :=
  .next (if s.pwr.held then s else contextStopRequest part ctx latency s)

/-- The pages of a context's save image. -/
def Context.imagePages (c : Context) : List Nat := pagesOf c.image (0x10000 + c.regionLen)

/-- A poisoned page of the save image ends the launch (R318). -/
def State.imagePoison (s : State) (k : Nat) (c : Context) : Option State :=
  let p := keyPart k
  if c.imagePages.any (fun n => s.pagePoison p n) then
    some ((s.raise kSwImagePoison (partInst p) (s.aboutCtx k)).endLaunch p c.launch (kSwImagePoison.flint (partInst p)))
  else none

/-- Poisoned lanes of a region: each is read by the save copy and carried as zero (R241). -/
def State.saveLanes (s : State) (r : Nat) (c : Context) : List Nat :=
  (s.rill r).poison.filter (fun l => decide (c.regionBase ≤ l ∧ l < c.regionBase + c.regionLen))

/-- The copy into the image finishes: trackers, region and frame 4 are free, and the context is saved. -/
def contextSaveComplete (p n : Nat) (s : State) : State :=
  let k := ctxKey p n
  match s.ctx? k with
  | none => s
  | some c =>
    match c.loc with
    | .saving r =>
      match s.imagePoison k c with
      | some s => (s.wakeRill r).resizeGo p
      | none =>
        let lanes := s.saveLanes r c
        let s := lanes.foldl (fun (s : State) l => s.poisonHit r l (s.aboutCtx k)) s
        let raw := Memory.slice s.mem.cells (spadBase r + c.regionBase) c.regionLen 0
        let region := lanes.foldl (fun m l => Memory.zero m (l - c.regionBase) 4) raw
        let s := s.setCtx k { c with loc := .saved, region := region, lostLanes := c.lostLanes || !lanes.isEmpty, stopReq := false,
                                     stopping := false, tbSave := s.clk.tb }
        let v := s.rill r
        let s := s.setRill r { v with frames := v.frames.del 4, trackers := v.trackers.filter (fun t => decide (t.1 ≠ k)) }
        let s := ((s.addF (swSaves r) 1).credit (keyPart k) 25 1).wakeRill r
        (s.preemptGo p c.launch).resizeGo p
    | _ => s

def execContextSaveComplete (part ctx : Nat) (s : State) : Host.Outcome State Fault Refusal := .next (if s.pwr.held then s else contextSaveComplete part ctx s)

/-! ## Restores (R124, R125, R313 to R315) -/

/-- A tile of a launch is available (R314). -/
def State.tileAvailable (s : State) (p h : Nat) : Bool :=
  match s.launch? p h with
  | none => false
  | some l => (l.deques ++ l.lists).any (fun d => !d.2.isEmpty) ||
      (s.frqs ++ s.frqOver).any (fun q => q.2.any (fun x => decide (x.part = p ∧ x.tile.launch = h)))

/-- A thread keeps its saved context from being runnable. -/
def Context.threadWaits (c : Context) (t : Nat) (h : Thread) (available : Bool) : Bool :=
  match h.st with
  | .idle => true
  | .fault => true
  | .waitRemote => c.awaitsRemote t h.wait
  | .waitTile => !available
  | _ => false

/-- A saved context is runnable (R314). -/
def State.runnable (s : State) (k : Nat) (c : Context) : Bool :=
  let p := keyPart k
  match s.launch? p c.launch with
  | none => false
  | some l =>
    decide (c.loc = .saved) && !c.stopped && !l.parked &&
    (match (s.part p).slotLaunch with | some x => decide (x = c.launch) | none => true) &&
    (let av := s.tileAvailable p c.launch
     !(c.threads.zipIdx.all (fun x => c.threadWaits x.2 x.1 av)))

/-- A saved context is offered before another (R315, R317): of the launch of a swap's victim, then holding a tile with the
earliest save, then with the lowest number. -/
def offeredBefore (first : Option Nat) (a b : Nat × Context) : Bool :=
  let own := fun (x : Nat × Context) => decide (first = some x.2.launch)
  let tile := fun (x : Nat × Context) => x.2.threads.any (fun h => h.tile.isSome)
  if own a ≠ own b then own a
  else if tile a ≠ tile b then tile a
  else if tile a ∧ a.2.tbSave ≠ b.2.tbSave then decide (a.2.tbSave < b.2.tbSave)
  else decide (a.1 < b.1)

/-- The context that is offered first among a list. -/
def firstOffered (first : Option Nat) (l : List (Nat × Context)) : Option (Nat × Context) :=
  l.foldl (fun (b : Option (Nat × Context)) x =>
    match b with
    | none => some x
    | some y => if offeredBefore first x y then some x else some y) none

/-- Runnable saved contexts of a partition that fit a rill, `except` naming one about to leave it. -/
def State.restorable (s : State) (p r : Nat) (except : Option Nat) : List (Nat × Context) :=
  s.ctxs.filter (fun c => decide (keyPart c.1 = p) && s.runnable c.1 c.2 && s.fitsRill r c.2 except)

/-- Spillway may restore contexts of a partition on a rill. -/
def State.restoresOn (s : State) (p r : Nat) : Bool :=
  let q := s.part p
  s.inService r && !s.resetCheck r && decide (q.state = 1 ∨ q.state = 2) && !q.leaving (r / 16) && s.pwr.resetting.isNone && !s.pwr.held

/-- A rill with room starts restoring the chosen context, in frame 4. -/
def contextRestore (r : Nat) (s : State) : State :=
  match s.partOfCascade (r / 16) with
  | none => s
  | some p =>
    if !s.restoresOn p r || ((s.rill r).frames.at? 4).isSome then s
    else match firstOffered (s.rill r).swap (s.restorable p r none) with
      | none => s
      | some (k, c) =>
        match s.imagePoison k c with
        | some s => s
        | none =>
          let s := (s.claimRegion k r)
          match s.ctx? k with
          | none => s
          | some c =>
            let s := s.setCtx k { c with loc := .restoring r }
            let v := s.rill r
            s.setRill r { v with frames := v.frames.put 4 k, swap := none,
                                 array := if c.ownsArray then { v.array with owner := some k } else v.array }

def execContextRestore (rill : Nat) (s : State) : Host.Outcome State Fault Refusal := .next (if s.pwr.held then s else contextRestore rill s)

/-- A thread as it stands after a restore: one in WAIT_TILE repeats its `sy.steal`, one that waited for an engine, a line or
room issues again (R318). -/
def Thread.resumed (h : Thread) : Thread :=
  match h.wait with
  | .steal _ => { h with st := .ready, wait := .none }
  | .line _ => { h with st := .ready, wait := .none }
  | .ls => { h with st := .ready, wait := .none }
  | .mxRoom => { h with st := .ready, wait := .none }
  | .vxRoom => { h with st := .ready, wait := .none }
  | .ftRoom => { h with st := .ready, wait := .none }
  | _ => h

/-- Queue entries numbered in the rill's issue order from `n` on. -/
def renumber (l : List QEntry) (n : Nat) : List QEntry := l.zipIdx.map (fun x => { x.1 with order := n + x.2 })

/-- Deliver the replies that were held while a restore ran (R124). -/
def State.deliverHeld (s : State) (l : List Instr) : State :=
  l.foldl (fun (s : State) i => match i with
    | .ftCompletion tag status value data sealBad => ftCompletion tag status value data sealBad s
    | _ => s) s

/-- The restore finishes: the context is resident, its slots take trackers, its recorded instructions wait again, and held
replies are delivered; tiles of a context whose save lost lanes are returned before it issues (R241). -/
def contextRestoreComplete (p n : Nat) (s : State) : State :=
  let k := ctxKey p n
  match s.ctx? k with
  | none => s
  | some c =>
    match c.loc with
    | .restoring r =>
      if c.zeroing then s
      else match s.imagePoison k c with
      | some s => (s.wakeRill r).resizeGo p
      | none =>
        let v := s.rill r
        let cells := pasteCells s.mem.cells (spadBase r + c.regionBase) c.regionLen c.region
        let s := { s with mem := { s.mem with cells := cells } }
        let open_ := (c.slots.filter (fun z => !z.2.done)).map (fun z => (k, z.1, z.2.issued / Config.unitsPerNs))
        let s := s.setRill r { v with
          frames := v.frames.del 4, trackers := v.trackers ++ open_,
          poison := v.poison.filter (fun l => !(decide (c.regionBase ≤ l ∧ l < c.regionBase + c.regionLen))),
          array := if c.ownsArray then { v.array with owner := some k, acc0 := c.acc0, acc1 := c.acc1, badAcc := [] } else v.array,
          mxQ := v.mxQ ++ renumber c.mx v.order, vxQ := v.vxQ ++ renumber c.vx (v.order + c.mx.length),
          order := v.order + c.mx.length + c.vx.length }
        let s := s.setCtx k { c with loc := .saved, threads := c.threads.map Thread.resumed, region := [], acc0 := [], acc1 := [],
                                     ownsArray := false, mx := [], vx := [], held := [], lostLanes := false }
        let s := (((s.enterFrame k r).noteTrackers r).addF (swRestores r) 1).credit (keyPart k) 26 1
        let s := if c.lostLanes then s.recoverCtx k else s
        ((s.deliverHeld c.held).mxGo r).wakeRill r
    | _ => s

def execContextRestoreComplete (part ctx : Nat) (s : State) : Host.Outcome State Fault Refusal :=
  .next (if s.pwr.held then s else contextRestoreComplete part ctx s)

/-! ## Blocked swap (R316, R317) -/

/-- TB units of issue of a context's oldest outstanding remote request. -/
def Context.oldestRemote (c : Context) : Option Nat :=
  (c.slots.filter (fun z => z.2.op.remote && !z.2.done)).foldl (fun (m : Option Nat) z =>
    match m with
    | none => some z.2.issued
    | some t => some (min t z.2.issued)) none

/-- Frame of a resident context. -/
def Context.frame (c : Context) : Nat := match c.loc with | .resident _ f => f | _ => 4

/-- The victim on a rill whose contexts are all blocked: the oldest outstanding remote request, then the lowest frame. -/
def victimOf (l : List (Nat × Context)) : Option (Nat × Context) :=
  l.foldl (fun (b : Option (Nat × Context)) x =>
    match b, x.2.oldestRemote with
    | none, some _ => some x
    | some y, some t =>
      let u := y.2.oldestRemote.getD 0
      if t < u ∨ (t = u ∧ x.2.frame < y.2.frame) then some x else some y
    | b, none => b) none

/-- Every resident context of a rill has been blocked for SWAP_HOLD: a swap of the victim starts when a saved context would
fit in its place. -/
def blockedSwap (r : Nat) (s : State) : State :=
  let l := s.residentOn r
  let hold := nsU (max 1 (s.getF swSwapHold))
  match s.partOfCascade (r / 16), victimOf l with
  | some p, some (k, c) =>
    if s.getF swSwapEn = 1 ∧ l.all (fun x => (x.2.blockedSince).any (fun t => decide (t + hold ≤ s.now)) && !x.2.stopReq) = true ∧
        (s.restorable p r (some k)).isEmpty = false ∧ s.restoresOn p r = true then
      let s := s.requestStop k
      s.setRill r { s.rill r with swap := some c.launch }
    else s
  | _, _ => s

def execBlockedSwap (rill : Nat) (s : State) : Host.Outcome State Fault Refusal := .next (if s.pwr.held then s else blockedSwap rill s)

/-! ## Errors (R332) and rills out of service (R128, R309) -/

/-- Tiles of a launch that a context holds. -/
def State.heldTiles (s : State) (p h : Nat) : List Nat :=
  (s.ctxsOf p h).flatMap (fun k => match s.ctx? k with
    | some c => c.tiles.map (fun t => t.index)
    | none => [])

/-- Tiles of a launch in any deque, overflow list or tile list. -/
def State.queuedTiles (s : State) (p h : Nat) (l : Launch) : List Nat :=
  (l.deques ++ l.lists).flatMap (fun d => d.2.map (fun t => t.index)) ++
    (s.frqs ++ s.frqOver).flatMap (fun q => (q.2.filter (fun x => decide (x.part = p ∧ x.tile.launch = h))).map (fun x => x.tile.index))

/-- Tiles of the released phase of a launch that stand nowhere. -/
def State.missingTiles (s : State) (p h : Nat) (l : Launch) (g : Graph) (ph : Phase) : List Tile :=
  let away := l.ended ++ s.heldTiles p h ++ s.queuedTiles p h l
  (((List.range ph.tileCount).map (fun i => ph.firstTile + i)).filter (fun n => !away.contains n)).map (fun n =>
    { launch := h, index := n, phase := l.phase, args := (g.tiles.getD n (none, 0)).2, retry := true, stolen := false })

/-- A deque entry cannot be corrected: the rill's work deque for the launch is emptied, and the tiles that stand nowhere are
released again, once, into the cascade's fault-return deque. -/
def dequeUncorrected (p h r : Nat) (s : State) : State :=
  match s.launch? p h with
  | none => s
  | some l =>
    if 1024 ≤ r ∨ !bit (s.part p).grant.cascades.toNat (r / 16) then s
    else
      let s := (s.raise kSwDequeUncorrected r { part := p }).beginRecovery (.cascade (r / 16)) (kSwDequeUncorrected.flint r)
      let l := { l with deques := l.deques.del r }
      let s := s.setLaunch p h l
      match ((s.part p).graphs.at? l.graph).bind (fun g => (g.phases[l.phase]?).map (fun ph => (g, ph))) with
      | some (g, ph) =>
        if l.released then (s.missingTiles p h l g ph).foldl (fun (s : State) t => s.returnTile p (r / 16) t) s else s
      | none => s

def execDequeUncorrected (part launch rill : Nat) (s : State) : Host.Outcome State Fault Refusal :=
  .next (dequeUncorrected part launch rill s)

/-- A row of the context location table cannot be corrected: the launch of the context ends. -/
def locationUncorrected (p n : Nat) (s : State) : State :=
  let k := ctxKey p n
  match s.ctx? k with
  | none => s
  | some c =>
    if c.launch = noLaunch then s
    else (s.raise kSwLocationUncorrected (partInst p) (s.aboutCtx k)).endLaunch p c.launch (kSwLocationUncorrected.flint (partInst p))

def execLocationUncorrected (part ctx : Nat) (s : State) : Host.Outcome State Fault Refusal := .next (locationUncorrected part ctx s)

/-- RL_CTRL.OUT_OF_SERVICE is written. -/
def rlOutOfServiceWrite (r : Nat) (v : W64) (s : State) : State :=
  if 1024 ≤ r then s
  else if bit v.toNat 0 then s.outOfService r
  else s.setF (rlOutOfService r) 0

def execRlOutOfService (rill : Nat) (value : BitVec 64) (s : State) : Host.Outcome State Fault Refusal :=
  .next (rlOutOfServiceWrite rill value s)

/-- A context number is free again 2 ms after its context's last operation has ended (R120). -/
def contextNumberFree (p n : Nat) (s : State) : State :=
  match (s.part p).retired.at? n with
  | some t => if t + nsU 2000000 ≤ s.now then s.setPart p { s.part p with retired := (s.part p).retired.del n } else s
  | none => s

def execContextNumberFree (part ctx : Nat) (s : State) : Host.Outcome State Fault Refusal := .next (contextNumberFree part ctx s)

end Sys2Proof.Machine
end

