-- ==== Sys2Proof/Machine/Fabric.lean ====
section
/-! DEFINITION. The Grestlink fabric: link states and identity, flits and retry, faults on a link, routing, remote
requests, time from the parent, and the fabric commands (R447 to R484, R600). -/

namespace Sys2Proof.Machine

open Sys2Proof

/-! ## Checks of flits and headers (R456, R465) -/

/-- CRC-32 of IEEE 802.3, reflected. -/
def crc32Bit (c : Nat) : Nat → Nat
  | 0 => c
  | n + 1 => crc32Bit (if c % 2 = 1 then (c / 2) ^^^ 0xEDB88320 else c / 2) n

def crc32Go (c : Nat) : List Byte → Nat
  | [] => c
  | b :: t => crc32Go (crc32Bit (c ^^^ b.toNat) 8) t

def crc32 (bs : List Byte) : Nat := crc32Go 0xFFFFFFFF bs ^^^ 0xFFFFFFFF

/-- CRC-16/CCITT, polynomial 0x1021, from 0xFFFF (PRESUMED, notes/assumptions/27.md). -/
def crc16Bit (c : Nat) : Nat → Nat
  | 0 => c
  | n + 1 => crc16Bit ((if c / 2 ^ 15 % 2 = 1 then (c * 2) ^^^ 0x1021 else c * 2) % 2 ^ 16) n

def crc16Go (c : Nat) : List Byte → Nat
  | [] => c
  | b :: t => crc16Go (crc16Bit (c ^^^ (b.toNat * 256)) 8) t

/-- Bytes 0 to 267 of a flit. -/
def flitBytes (f : Flit) : List Byte :=
  leBytes 2 (f.seq % 4096 + f.kind % 16 * 4096) ++ leBytes 2 (f.ack % 4096 + b2n f.nak * 4096) ++
  leBytes 1 (f.vc % 16 + b2n f.poison * 16 + b2n f.last * 32) ++ leBytes 1 (f.orig % 32) ++ leBytes 2 (f.credits % 4096) ++
  (f.body ++ List.replicate (260 - f.body.length) 0).take 260

/-- The LCRC of a flit passes. -/
def lcrcOk (f : Flit) : Bool := decide (crc32 (flitBytes f) = f.lcrc.toNat)

def hFld (h : BitVec 256) (byte lo w : Nat) : Nat := bits h.toNat (8 * byte + lo) w
def hSet (h : BitVec 256) (byte lo w v : Nat) : BitVec 256 := BitVec.ofNat 256 (setBits h.toNat (8 * byte + lo) w v)
def hDst (h : BitVec 256) : Nat := hFld h 0 0 16
def hSrc (h : BitVec 256) : Nat := hFld h 2 0 16
def hType (h : BitVec 256) : Nat := hFld h 4 0 4
def hClass (h : BitVec 256) : Nat := hFld h 4 4 2
def hViaActive (h : BitVec 256) : Bool := decide (hFld h 5 0 1 = 1)
def hDetoured (h : BitVec 256) : Bool := decide (hFld h 5 1 1 = 1)
def hSidesteps (h : BitVec 256) : Nat := hFld h 5 2 2
def hHops (h : BitVec 256) : Nat := hFld h 6 0 8
def hVia (h : BitVec 256) : Nat := hFld h 8 0 16
def hParcels (h : BitVec 256) : Nat := hFld h 10 0 5
def hTag (h : BitVec 256) : W32 := BitVec.ofNat 32 (hFld h 12 0 32)
def hAddr (h : BitVec 256) : Nat := hFld h 16 0 64

/-- The HCRC passes: bytes 0 to 4 and 8 to 29. -/
def hcrcOk (h : BitVec 256) : Bool :=
  let bs := leBytes 32 h.toNat
  decide (crc16Go 0xFFFF (bs.take 5 ++ (bs.drop 8).take 22) = hFld h 30 0 16)

/-! ## Ports and links -/

/-- The FAB domain runs (R451). -/
def State.fabRuns (s : State) : Bool := s.clk.tbRuns

/-- Ends of the in-package links as ports: 0x100 + i on the lower die, 0x110 + i on the higher (R460). -/
def iplOf (p : Nat) : Option Nat := if 0x100 ≤ p ∧ p % 16 < 6 ∧ p < 0x120 then some (p % 16) else none

/-- Base die on which a port stands (R447, R480). -/
def portDie (p : Nat) : Nat :=
  match iplOf p with
  | some i =>
    let lo := if i < 3 then 0 else if i < 5 then 1 else 2
    let hi := if i < 3 then i + 1 else if i < 5 then i - 1 else 3
    if p < 0x110 then lo else hi
  | none => p % 4

/-- A port of the module carries traffic: an ACTIVE external port, or an end of an in-package link that is not lost. -/
def State.carries (s : State) (p : Nat) : Bool :=
  match iplOf p with
  | some i => !(s.ipl i).lost
  | none => decide (p < 24 ∧ (s.port p).state = 4)

/-- A port takes flits: one that carries traffic, or one in IDENTIFY or ISOLATED (R452). -/
def State.listens (s : State) (p : Nat) : Bool :=
  s.fabRuns && (s.carries p || decide (p < 24 ∧ ((s.port p).state = 3 ∨ (s.port p).state = 5)))

/-- ACTIVE ports of a bundle, lowest first. -/
def State.activePorts (s : State) (b : Nat) : List Nat := ((List.range 4).map (fun i => 4 * b + i)).filter s.carries

/-- A counter of an external port. -/
def State.portCount (s : State) (p : Nat) (f : Nat → Fld) (n : Nat) : State := if p < 24 then s.addF (f p) n else s

/-- A saturating counter of an external port, or of the in-package link. -/
def State.portSat (s : State) (p : Nat) (f : Nat → Fld) (g : Option (Nat → Fld)) (n : Nat) : State :=
  match iplOf p with
  | some i => match g with | some g => s.satF (g i) n | none => s
  | none => if p < 24 then s.satF (f p) n else s

/-- INSTANCE of a cause of a port or of an in-package link (R484). -/
def portInst (p : Nat) : Nat := match iplOf p with | some i => 0x100 + i | none => p

/-! ## Sending flits (R456 to R458) -/

/-- Send a flit now: it takes the next SEQ, the ACK and the credits owed, and is kept until it is acknowledged. -/
def State.sendNow (s : State) (p : Nat) (f : Flit) : State :=
  let v := s.port p
  let owed := (v.owed.filter (fun x => decide (0 < x.2))).head?
  let carry := decide (f.kind ≠ 4)
  let f : Flit := { f with
    seq := v.nextSeq, ack := v.accepted,
    orig := if carry then (match owed with | some x => x.1 | none => 0) else f.orig,
    credits := if carry then (match owed with | some x => min x.2 4095 | none => 0) else f.credits }
  let f : Flit := { f with lcrc := BitVec.ofNat 32 (crc32 (flitBytes f)) }
  let data := decide (f.kind = 1 ∨ f.kind = 2 ∨ f.kind = 4)
  let v := { v with
    nextSeq := (v.nextSeq + 1) % 4096, window := v.window ++ [(f, 0)], ackSent := v.accepted,
    since := if v.window.isEmpty then s.now else v.since,
    owed := match owed with | some x => if carry then v.owed.put x.1 (x.2 - min x.2 4095) else v.owed | none => v.owed,
    credits := if data then v.credits.put f.vc (v.credits.getD f.vc 0 - 1) else v.credits }
  ((s.setPort p v).portCount p glTx 1).emit (.flit p f)

/-- Send a flit, or keep it while the window of 2,048 flits is full. -/
def State.sendFlit (s : State) (p : Nat) (f : Flit) : State :=
  let v := s.port p
  if 2048 ≤ v.window.length ∨ v.queue ≠ [] then s.setPort p { v with queue := v.queue ++ [f] } else s.sendNow p f

/-- Send what waits, as far as the window allows. -/
def State.drainQueue (s : State) (p : Nat) : Nat → State
  | 0 => s
  | n + 1 =>
    let v := s.port p
    match v.queue with
    | [] => s
    | f :: t => if 2048 ≤ v.window.length then s else ((s.setPort p { v with queue := t }).sendNow p f).drainQueue p n

def idleFlit : Flit :=
  { seq := 0, kind := 0, ack := 0, nak := false, vc := 0, poison := false, last := false, orig := 0, credits := 0, body := [],
    lcrc := 0 }

/-- The module's own identity record on a port (R453). -/
def State.ownRecord (s : State) (p : Nat) : NeighbourRecord :=
  { fabricId := s.fabric.fabricId, chip := BitVec.ofNat 16 s.fabric.chip, x := s.fabric.x, y := s.fabric.y, z := s.fabric.z,
    spare := s.fabric.spare, port := p, moduleId := Config.moduleId, wcp := 0x0302, withdrawn := decide (s.mode = .withdrawn),
    rtt := 0 }

/-! ## Identity (R448, R455, R466, R476) -/

/-- Coordinates one step along a bundle. -/
def Fabric.step (f : Fabric) (b : Nat) : Nat × Nat × Nat :=
  let go := fun (c ring : Nat) => if b % 2 = 0 then (c + 1) % ring else (c + ring - 1) % ring
  if b / 2 = 0 then (go f.x f.ringX, f.y, f.z) else if b / 2 = 1 then (f.x, go f.y f.ringY, f.z) else (f.x, f.y, go f.z f.ringZ)

/-- Ring size of dimension `d`, and the own coordinate in it. -/
def Fabric.ring (f : Fabric) (d : Nat) : Nat := if d = 0 then f.ringX else if d = 1 then f.ringY else f.ringZ
def Fabric.coord (f : Fabric) (d : Nat) : Nat := if d = 0 then f.x else if d = 1 then f.y else f.z

/-- Judge a port by the records of both ends: it is ACTIVE when every condition of R455 holds, else ISOLATED. -/
def State.judgePort (s : State) (p : Nat) : State :=
  let v := s.port p
  match v.nb with
  | none => if v.state = 4 then s.setPort p { v with state := 5 } else s
  | some r =>
    if v.state < 3 ∨ v.state = 6 then s
    else
      let f := s.fabric
      let b := p / 4
      let own := decide (f.chip ≠ 0xFFFF)
      let nbOn := decide (r.chip.toNat ≠ 0xFFFF)
      let unused := decide (f.ring (b / 2) = 1)
      let place := decide ((r.x, r.y, r.z) = f.step b)
      let mis := decide (r.port ≠ p ^^^ 4) || (own && nbOn && !unused && !place)
      let foreign := decide (r.fabricId ≠ f.fabricId) || !nbOn
      let ok := own && !foreign && decide (f.fabricId ≠ 0) && !mis && !unused && !r.withdrawn && decide (s.mode ≠ .withdrawn)
      let s := s.setPort p { v with state := if ok then 4 else 5, miswired := mis, foreign := foreign }
      let s := if ok && decide (v.state ≠ 4) then s.raise kGlLinkUp p else s
      let s := if foreign && !v.foreign then s.raise kGlForeign p else s
      if mis && !v.miswired then s.raise kGlMiswired p else s

/-- Every port identifies again after a change of assignment or of state. -/
def State.reidentify (s : State) : State :=
  (List.range 24).foldl (fun (s : State) p =>
    let v := s.port p
    if 3 ≤ v.state ∧ v.state ≤ 5 then (s.judgePort p).emit (.identity p (s.ownRecord p)) else s) s

/-! ## Training (R452) -/

/-- A full training starts. -/
def State.trainFull (s : State) (p : Nat) : State :=
  let v := s.port p
  let v := if v.state = 6 then
      { v with nextSeq := 0, acked := 0xFFF, accepted := 0xFFF, ackSent := 0xFFF, window := [], queue := [], credits := [], owed := [] }
    else v
  s.setPort p { v with state := 2, fast := false, live := 0, nb := none, miswired := false, foreign := false }

def signalDetect (p : Nat) (s : State) : State :=
  if p < 24 ∧ (s.port p).state = 1 ∧ s.fabRuns = true then s.trainFull p else s

def execSignalDetect (port : Nat) (s : State) : Host.Outcome State Fault Refusal := .next (signalDetect port s)

/-- Training completes on the lanes that locked, of those that it may use. -/
def trainingComplete (p : Nat) (lanes : BitVec 4) (s : State) : State :=
  let v := s.port p
  let may := if v.fast then v.live else BitVec.ofNat 4 (s.getF (glLaneMask p))
  if p < 24 ∧ v.state = 2 ∧ lanes &&& may ≠ 0 ∧ s.fabRuns = true then
    (s.setPort p { v with state := 3, live := lanes &&& may, fast := false }).emit (.identity p (s.ownRecord p))
  else s

def execTrainingComplete (port : Nat) (lanes : BitVec 4) (s : State) : Host.Outcome State Fault Refusal :=
  .next (trainingComplete port lanes s)

/-- A full training that failed is tried again every 100 ms. -/
def trainingRetry (p : Nat) (s : State) : State :=
  let v := s.port p
  if p < 24 ∧ v.state = 1 ∧ v.since ≠ 0 ∧ v.since + nsU 100000000 ≤ s.now ∧ s.fabRuns = true then s.trainFull p else s

def execTrainingRetry (port : Nat) (s : State) : Host.Outcome State Fault Refusal := .next (trainingRetry port s)

def identityRecord (p : Nat) (nb : NeighbourRecord) (s : State) : State :=
  let v := s.port p
  if p < 24 ∧ 3 ≤ v.state ∧ v.state ≤ 5 ∧ s.fabRuns = true then (s.setPort p { v with nb := some nb }).judgePort p else s

def execIdentityRecord (port : Nat) (nb : NeighbourRecord) (s : State) : Host.Outcome State Fault Refusal :=
  .next (identityRecord port nb s)

/-- GL_PORT_CTRL.RETRAIN (R481). -/
def portRetrain (p : Nat) (s : State) : State :=
  if p < 24 ∧ (s.port p).state ≠ 0 ∧ s.fabRuns = true then s.trainFull p else s

def execPortRetrain (port : Nat) (s : State) : Host.Outcome State Fault Refusal := .next (portRetrain port s)

def failedPortRetrain (p : Nat) (s : State) : State :=
  let v := s.port p
  if p < 24 ∧ v.state = 6 ∧ v.since + nsU 1000000000 ≤ s.now ∧ s.fabRuns = true then s.trainFull p else s

def execFailedPortRetrain (port : Nat) (s : State) : Host.Outcome State Fault Refusal := .next (failedPortRetrain port s)

/-- GL_PORT_CTRL.ENABLE changes (R452). -/
def State.portEnable (s : State) (p : Nat) (on : Bool) : State :=
  let v := s.port p
  if on then (if v.state = 0 then s.setPort p { v with state := 1, since := 0 } else s)
  else s.setPort p { v with state := 0, live := 0, nb := none, miswired := false, foreign := false, fast := false }

/-- Every external port goes DOWN when the FAB domain stops (R451). -/
def State.portsDown (s : State) : State :=
  (List.range 24).foldl (fun (s : State) p =>
    let v := s.port p
    if v.state = 0 then s
    else s.setPort p { v with state := 1, live := 0, nb := none, miswired := false, foreign := false, fast := false, since := 0 }) s

/-! ## Routing (R466 to R469) -/

def destX (e : W64) : Nat := bits e.toNat 0 6
def destY (e : W64) : Nat := bits e.toNat 6 6
def destZ (e : W64) : Nat := bits e.toNat 12 6
def destCoord (e : W64) (d : Nat) : Nat := if d = 0 then destX e else if d = 1 then destY e else destZ e
def destValid (e : W64) : Bool := bit e.toNat 18
def destViaValid (e : W64) : Bool := bit e.toNat 19
def destVia (e : W64) : Nat := bits e.toNat 20 16

/-- Direction of the shorter way round a ring: 0 for +, which a tie takes, 1 for −. -/
def shorter (m e ring : Nat) : Nat := if 2 * ((e + ring - m) % ring) ≤ ring then 0 else 1

/-- What a router does with a packet. -/
inductive Route where
  | deliver
  | noRoute
  | hopLimit
  /-- The header as it leaves, the bundle, and whether the detour rule turned it. -/
  | forward (h : BitVec 256) (b : Nat) (turned sidestep : Bool)
  deriving DecidableEq, Repr

/-- The bundle for a packet to the coordinates of `e`: dimension order, or the detour rule. -/
def State.bundleFor (s : State) (h : BitVec 256) (e : W64) : Route :=
  let f := s.fabric
  let differ := (List.range 3).filter (fun d => decide (destCoord e d ≠ f.coord d))
  let short := fun (d : Nat) => 2 * d + shorter (f.coord d) (destCoord e d) (f.ring d)
  let open_ := fun (b : Nat) => !(s.activePorts b).isEmpty
  let hop := fun (h : BitVec 256) => hSet h 6 0 8 (hHops h + 1)
  match differ with
  | [] => .noRoute
  | d :: rest =>
    if open_ (short d) then .forward (hop h) (short d) false false
    else match rest.find? (fun d => open_ (short d)) with
      | some d => .forward (hop h) (short d) true false
      | none =>
        match [(d + 1) % 3, (d + 2) % 3].find? (fun d => open_ (2 * d)) with
        | some d =>
          if 2 ≤ hSidesteps h then .noRoute
          else .forward (hop (hSet (hSet h 5 1 1 1) 5 2 2 (hSidesteps h + 1))) (2 * d) true true
        | none => .noRoute

/-- The routing of R468; a waypoint may send the packet through it again. -/
def State.route (s : State) (die : Nat) (h : BitVec 256) : Nat → Route
  | 0 => .noRoute
  | n + 1 =>
    if max 1 (s.getF (glHopLimit die)) ≤ hHops h then .hopLimit
    else
      let t := if hViaActive h then hVia h else hDst h
      let e := s.fabric.dest.getD t 0
      let f := s.fabric
      if !destValid e then .noRoute
      else if t = f.chip ∧ destX e = f.x ∧ destY e = f.y ∧ destZ e = f.z then
        if hViaActive h then s.route die (hSet h 5 0 1 0) n else .deliver
      else if hHops h = 0 ∧ destViaValid e = true ∧ hViaActive h = false then
        s.route die (hSet (hSet h 8 0 16 (destVia e)) 5 0 1 1) n
      else s.bundleFor h e

/-- Virtual channel on the next link (R467): the escape channel once DETOURED, else 1 from a ring's wrap link on and 0
before it. -/
def State.vcFor (s : State) (h : BitVec 256) (b : Nat) (from? : Option (Nat × Nat)) : Nat :=
  let f := s.fabric
  let wrap := if b % 2 = 0 then decide (f.coord (b / 2) + 1 = f.ring (b / 2)) else decide (f.coord (b / 2) = 0)
  let stays := match from? with
    | some (p, vc) => decide (p < 24 ∧ p / 4 / 2 = b / 2 ∧ vc % 3 = 1)
    | none => false
  3 * hClass h + (if hDetoured h then 2 else if wrap || stays then 1 else 0)

/-- The ACTIVE port of a bundle with most free credits for a virtual channel; of equal ones the port on the die, then the
rotating pointer (R468). -/
def State.pickPort (s : State) (die b vc : Nat) : State × Nat :=
  let l := s.activePorts b
  let credit := fun (p : Nat) => (s.port p).credits.getD vc 0
  let best := l.foldl (fun (m : Int) p => max m (credit p)) (match l with | p :: _ => credit p | [] => 0)
  let ties := l.filter (fun p => decide (credit p = best))
  if ties.contains (4 * b + die) then (s, 4 * b + die)
  else
    let r := s.fabric.rotors.getD die 0
    let p := (((List.range 4).map (fun i => 4 * b + (r + i) % 4)).find? (fun p => ties.contains p)).getD (4 * b)
    ({ s with fabric := { s.fabric with rotors := s.fabric.rotors.put die ((p % 4 + 1) % 4) } }, p)

/-- A packet is dropped: a request is answered with the code, another only counted (R469). -/
def State.dropPacket (s : State) (die : Nat) (h : BitVec 256) (k : Cause) (n : Nat) : State :=
  let s := s.satF (glDrops die n) 1
  if hType h ≤ 4 then
    (s.raise k (0x200 + die)).emit (.reply (BitVec.ofNat 16 (hSrc h)) (hTag h) (k.flint (0x200 + die)) 0 [])
  else s

/-- A header flit. -/
def headerFlit (h : BitVec 256) (vc : Nat) (last : Bool) : Flit :=
  { idleFlit with kind := 1, vc := vc, last := last, body := leBytes 32 h.toNat ++ List.replicate 228 0 }

/-- The first packet on a die's ports that has this header and no route yet. -/
def State.unrouted (s : State) (die : Nat) (h : BitVec 256) : Option (Nat × Partial) :=
  s.fabric.partials.find? (fun x => decide (portDie (x.1 / 16) = die ∧ x.2.hdr = h ∧ x.2.hop = .unrouted))

def State.setPartial (s : State) (k : Nat) (x : Partial) : State :=
  { s with fabric := { s.fabric with partials := s.fabric.partials.put k x } }

def State.delPartial (s : State) (k : Nat) : State :=
  { s with fabric := { s.fabric with partials := s.fabric.partials.del k } }

/-- The flits of a packet go no further. -/
def State.sinkPartial (s : State) (x : Option (Nat × Partial)) : State :=
  match x with
  | some (k, q) => if q.ended then s.delPartial k else s.setPartial k { q with hop := .sink, held := [] }
  | none => s

/-- A header reaches a router. -/
def packetRoute (die : Nat) (h : BitVec 256) (s : State) : State :=
  let x := s.unrouted die h
  match s.route die h 4 with
  | .deliver =>
    if hcrcOk h then s.sinkPartial x
    else ((s.satF (glDrops die 2) 1).raise kGlHeaderCrc (0x200 + die)).sinkPartial x
  | .noRoute => (s.dropPacket die h kGlNoRoute 0).sinkPartial x
  | .hopLimit => (s.dropPacket die h kGlHopLimit 1).sinkPartial x
  | .forward h' b turned side =>
    let s := if turned then s.addF (glLocalDetours die) 1 else s
    let s := if side then s.addF (glSidesteps die) 1 else s
    let vc := s.vcFor h' b (x.map (fun x => (x.1 / 16, x.1 % 16)))
    let (s, p) := s.pickPort die b vc
    match x with
    | none => s.sendFlit p (headerFlit h' vc (decide (hParcels h' = 0)))
    | some (k, q) =>
      let s := s.sendFlit p (headerFlit h' vc (q.ended && q.held.isEmpty))
      let s := q.held.foldl (fun (s : State) f => s.sendFlit p { f with vc := vc }) s
      if q.ended then s.delPartial k else s.setPartial k { q with hop := .port p vc, held := [], since := s.now }

def execPacketRoute (router : Nat) (hdr : BitVec 256) (s : State) : Host.Outcome State Fault Refusal :=
  .next (if router < 4 then packetRoute router hdr s else s)

/-! ## A port fails (R461, R462) -/

/-- An unacknowledged flit as a replay flit; one that replays an earlier failure keeps its origin. -/
def replayOf (p : Nat) (f : Flit) : Flit :=
  if f.kind = 4 then f else { f with kind := 4, orig := p, credits := f.seq, nak := false }

/-- Flits of a REPLAY packet: 16 at a time. -/
def chunksOf {α : Type} (n : Nat) : Nat → List α → List (List α)
  | 0, _ => []
  | k + 1, l => if l.isEmpty then [] else l.take n :: chunksOf n k (l.drop n)

/-- Replay flits leave on another ACTIVE port of the bundle, or in REPLAY packets to the neighbour's chip by detour. -/
def State.replayOut (s : State) (p : Nat) (nb : Option NeighbourRecord) (fs : List Flit) : State :=
  match (s.activePorts (p / 4)).head? with
  | some q => fs.foldl (fun (s : State) f => s.sendFlit q f) s
  | none =>
    match nb with
    | none => s
    | some r =>
      let h : BitVec 256 := hSet (hSet (hSet 0 0 0 16 r.chip.toNat) 2 0 16 s.fabric.chip) 4 0 8 0x39
      (chunksOf 16 fs.length fs).foldl (fun (s : State) l =>
        match s.route (p % 4) h 4 with
        | .forward h' b turned side =>
          let s := if turned then s.addF (glLocalDetours (p % 4)) 1 else s
          let s := if side then s.addF (glSidesteps (p % 4)) 1 else s
          let vc := s.vcFor h' b none
          let (s, q) := s.pickPort (p % 4) b vc
          let s := s.emit (.replay q r.chip ((l.head?.map (fun f => f.orig)).getD p) ((l.head?.map (fun f => f.credits)).getD 0) l)
          l.foldl (fun (s : State) f => s.sendFlit q { f with kind := 2, vc := vc }) (s.sendFlit q (headerFlit h' vc false))
        | .hopLimit => s.dropPacket (p % 4) h kGlHopLimit 1
        | _ => s.dropPacket (p % 4) h kGlNoRoute 0) s

/-- A port becomes FAILED: its receive record is kept, and its unacknowledged flits are replayed. -/
def State.failPort (s : State) (p : Nat) : State :=
  let v := s.port p
  let late := v.queue.zipIdx.map (fun x => if x.1.kind = 4 then x.1 else { x.1 with seq := (v.nextSeq + x.2) % 4096 })
  let fs := (v.window.map (fun x => x.1) ++ late).filter (fun f => decide (f.kind ≠ 0)) |>.map (replayOf p)
  let s := s.setPort p { v with
    state := 6, live := 0, fast := false, window := [], queue := [], since := s.now, record := some (v.accepted, s.now) }
  let s := (s.raise kGlPortDown p).beginRecovery (.link p) (kGlPortDown.flint p)
  let s := if (s.activePorts (p / 4)).isEmpty then s.raise kGlLinkDown p else s
  s.replayOut p v.nb fs

def portDown (p : Nat) (s : State) : State :=
  let v := s.port p
  if p < 24 ∧ ((3 ≤ v.state ∧ v.state ≤ 5) ∨ (v.state = 2 ∧ v.fast = true)) then s.failPort p else s

def execPortDown (port : Nat) (s : State) : Host.Outcome State Fault Refusal := .next (portDown port s)

/-- Training does not lock in time: a fast retrain that fails fails the port, a full training leaves it DOWN. -/
def trainingFailure (p : Nat) (s : State) : State :=
  let v := s.port p
  if p < 24 ∧ v.state = 2 then
    if v.fast then s.failPort p else s.setPort p { v with state := 1, live := 0, since := s.now }
  else s

def execTrainingFailure (port : Nat) (s : State) : Host.Outcome State Fault Refusal := .next (trainingFailure port s)

/-- A lane fails: a fast retrain without it, or the port fails when it is narrow already (R461, R479). -/
def laneFailed (p lane : Nat) (s : State) : State :=
  let v := s.port p
  if p < 24 ∧ lane < 4 ∧ ((3 ≤ v.state ∧ v.state ≤ 5) ∨ (v.state = 2 ∧ v.fast = true)) ∧ v.live.getLsbD lane = true then
    let rest := v.live &&& ~~~(BitVec.ofNat 4 (2 ^ lane))
    let s := s.satF (glLaneDrops p) 1
    if v.fast || decide (v.live.toNat ≠ s.getF (glLaneMask p)) || decide (rest = 0) then s.failPort p
    else
      let s := s.setPort p { v with state := 2, fast := true, live := rest }
      (s.raise kGlLaneFailed p).beginRecovery (.link p) (kGlLaneFailed.flint p)
  else s

def execLaneFailed (port lane : Nat) (s : State) : Host.Outcome State Fault Refusal := .next (laneFailed port lane s)

/-- A lane group of an in-package link fails: the spare takes its place; without one the link narrows, and below 8
groups it is lost and the module withdraws. -/
def iplSpared (i : Nat) (s : State) : State :=
  let v := s.ipl i
  if 6 ≤ i ∨ v.lost = true then s
  else if !v.spareUsed then
    ((s.setIpl i { v with spareUsed := true }).raise kGlIplSpared (0x100 + i)).beginRecovery (.link (0x100 + i))
      (kGlIplSpared.flint (0x100 + i))
  else
    let s := s.setIpl i { v with groups := v.groups - 1, lost := decide (v.groups ≤ 8) }
    if v.groups ≤ 8 then (s.raise kGlIplLost (0x100 + i)).withdraw 4 (kGlIplLost.flint (0x100 + i))
    else s.beginRecovery (.link (0x100 + i)) (kGlIplSpared.flint (0x100 + i))

def execIplSpared (link : Nat) (s : State) : Host.Outcome State Fault Refusal := .next (iplSpared link s)

/-! ## Receiving flits (R457, R458, R463) -/

/-- Resend every unacknowledged flit in order; one resent 16 times fails the port (R458, R461). -/
def State.resend (s : State) (p : Nat) : State :=
  let v := s.port p
  if v.window.isEmpty then s
  else
    let w := v.window.map (fun x =>
      let f := { x.1 with ack := v.accepted }
      ({ f with lcrc := BitVec.ofNat 32 (crc32 (flitBytes f)) }, x.2 + 1))
    let s := s.setPort p { v with window := w, since := s.now, ackSent := v.accepted }
    let s := s.portSat p glReplays (some glIplReplays) w.length
    let s := w.foldl (fun (s : State) x => (s.portCount p glTx 1).emit (.flit p x.1)) s
    let s := if p < 24 then s.raiseLimited (kGlFlitRetried.flint p).toNat kGlFlitRetried p else s
    if w.any (fun x => decide (16 ≤ x.2)) ∧ p < 24 then s.failPort p else s

/-- A flit of a packet goes on: a header waits for its route, a further flit follows it. -/
def State.passFlit (s : State) (p : Nat) (f : Flit) (header : Bool) : State :=
  let k := p * 16 + f.vc
  if header then
    s.setPartial k { hdr := BitVec.ofNat 256 (leNat (f.body.take 32)), hop := .unrouted, held := [], ended := f.last, since := s.now }
  else match s.fabric.partials.at? k with
    | none => s
    | some x =>
      match x.hop with
      | .unrouted => s.setPartial k { x with held := x.held ++ [f], ended := f.last, since := s.now }
      | .port q vc =>
        let s := s.sendFlit q { f with vc := vc }
        if f.last then s.delPartial k else s.setPartial k { x with since := s.now }
      | .sink => if f.last then s.delPartial k else s

/-- A flit is accepted or discarded with a NAK; its ACK and credits count when it is accepted. -/
def flitReceive (p : Nat) (f : Flit) (s : State) : State :=
  if s.listens p = false then s
  else
    let v := s.port p
    if lcrcOk f && decide (f.seq = (v.accepted + 1) % 4096) then
      let n := (f.ack + 4096 - v.acked) % 4096
      let gone := if n ≤ v.window.length then n else 0
      let packet := decide (f.kind = 1 ∨ f.kind = 2)
      let v := { v with
        accepted := f.seq, window := v.window.drop gone, acked := if 0 < gone then f.ack else v.acked,
        since := if 0 < gone then s.now else v.since,
        credits := if f.kind ≠ 4 ∧ 0 < f.credits then v.credits.put f.orig (v.credits.getD f.orig 0 + f.credits) else v.credits,
        owed := if packet then v.owed.put f.vc (v.owed.getD f.vc 0 + 1) else v.owed }
      let s := (s.setPort p v).portCount p glRx 1
      let s := if packet && s.carries p then s.passFlit p f (decide (f.kind = 1)) else s
      let s := s.drainQueue p 2048
      if f.nak then s.resend p else s
    else
      (s.portSat p glLcrcFail (some glIplLcrc) 1).sendFlit p { idleFlit with nak := true }

def execFlitReceive (port : Nat) (f : Flit) (s : State) : Host.Outcome State Fault Refusal := .next (flitReceive port f s)

/-- An acknowledgement that is due rides on an idle flit. -/
def ackTimer (p : Nat) (s : State) : State :=
  let v := s.port p
  if s.listens p && decide (v.ackSent ≠ v.accepted) then s.sendFlit p idleFlit else s

def execAckTimer (port : Nat) (s : State) : Host.Outcome State Fault Refusal := .next (ackTimer port s)

def replayTimeout (p : Nat) (s : State) : State :=
  let v := s.port p
  if s.listens p && !v.window.isEmpty && decide (v.since + nsU 10000 ≤ s.now) then s.resend p else s

def execReplayTimeout (port : Nat) (s : State) : Host.Outcome State Fault Refusal := .next (replayTimeout port s)

/-- ACCEPTED of a port as replays find it: its record for 2 ms after its failure, or the value of a port that has not
failed. -/
def State.recordOf (s : State) (p : Nat) : Option Nat :=
  let v := s.port p
  match v.record with
  | some (a, t) => if s.now < t + nsU 2000000 then some a else none
  | none => if 2 ≤ v.state ∧ v.state ≤ 5 then some v.accepted else none

/-- A replay flit is filtered against the record of the port that failed here (R462). -/
def replayFlit (p : Nat) (f : Flit) (s : State) : State :=
  let q := f.orig ^^^ 4
  if s.listens p = false ∨ 24 ≤ f.orig then s
  else
    match s.recordOf q with
    | none => s.raise kGlReplayLost q
    | some a =>
      if f.credits = (a + 1) % 4096 then
        let v := s.port q
        let s := s.setPort q (match v.record with
          | some (_, t) => { v with record := some (f.credits, t) }
          | none => { v with accepted := f.credits })
        let header := match s.fabric.partials.at? (q * 16 + f.vc) with
          | some x => x.ended
          | none => true
        s.passFlit q f header
      else s.satF (glReplayDiscarded q) 1

def execReplayFlit (port : Nat) (f : Flit) (s : State) : Host.Outcome State Fault Refusal := .next (replayFlit port f s)

def replayRecordExpiry (p : Nat) (s : State) : State :=
  let v := s.port p
  match v.record with
  | some (_, t) => if t + nsU 2000000 ≤ s.now then s.setPort p { v with record := none } else s
  | none => s

def execReplayRecordExpiry (port : Nat) (s : State) : Host.Outcome State Fault Refusal := .next (replayRecordExpiry port s)

/-- A packet that a router has forwarded in part, and whose next flit has not come, is ended (R463). -/
def truncated (die p : Nat) (s : State) : State :=
  let limit := nsU (1000 * max 1 (s.getF (glTruncUs die)))
  match s.fabric.partials.find? (fun x => decide (x.1 / 16 = p ∧ x.2.since + limit ≤ s.now) &&
      (match x.2.hop with | .port _ _ => true | _ => false)) with
  | some (k, x) =>
    if portDie p ≠ die then s
    else match x.hop with
      | .port q vc =>
        let s := s.sendFlit q { idleFlit with kind := 3, vc := vc, last := true }
        let s := (s.setPartial k { x with hop := .sink }).portSat p glTruncatedCount none 1
        s.raise kGlTruncated (portInst p)
      | _ => s
  | none => s

def execTruncated (router port : Nat) (s : State) : Host.Outcome State Fault Refusal := .next (truncated router port s)

/-! ## Remote requests (R471, R472) -/

/-- An acceptance entry covers a requester. -/
def accepts (e : W64) (src part : Nat) (write : Bool) : Bool :=
  bit e.toNat 48 && decide (bits e.toNat 0 16 ≤ src ∧ src ≤ bits e.toNat 16 16) && bit e.toNat (32 + part) &&
  (!write || bit e.toNat 49)

/-- First byte and length of what a request touches: the parcels of a read, the bytes that a write carries, eight bytes
of an atomic. -/
def requestRange (h : BitVec 256) (data : List Byte) : Nat × Nat :=
  let off := faOff (hAddr h)
  if hType h = 0 then (off / 256 * 256, 256 * max 1 (hParcels h))
  else if hType h ≤ 2 then (off, data.length)
  else (off, 8)

/-- A request that was accepted acts on the partition's memory, and is answered. -/
def State.serveRequest (s : State) (p : Nat) (h : BitVec 256) (data : List Byte) : State :=
  let x := requestRange h data
  let reply := fun (s : State) (status : W32) (v : W64) (bs : List Byte) =>
    s.emit (.reply (BitVec.ofNat 16 (hSrc h)) (hTag h) status v bs)
  let pages := pagesOf x.1 x.2
  let s := s.touchPages p pages
  let bad := pages.any (fun n => s.pagePoison p n)
  let ns := if x.2 = 0 then [] else (List.range ((x.1 + x.2 - 1) / 256 - x.1 / 256 + 1)).map (fun i => x.1 / 256 + i)
  if hType h = 0 then
    let s := ns.foldl (fun (s : State) n => s.touchParcel p n) s
    reply s (if bad then pendingCode kRlPoison else 0) 0 (s.partRead p x.1 x.2)
  else if hType h ≥ 2 ∧ bad = true then reply s (pendingCode kRlPoison) 0 []
  else
    let s := pages.foldl (fun (s : State) n =>
      if ((s.part p).pages.getD n Page.absent).state = .absent then (s.firstCopy p (n * pageBytes)).getD s else s) s
    let s := ns.foldl (fun (s : State) n => s.touchParcel p n) s
    if hType h = 1 then reply (s.partPut p x.1 ((List.range data.length).zip data)) 0 0 []
    else if hType h = 2 then
      let old := words32 (s.partRead p x.1 x.2)
      let new := (old.zip (words32 data)).map (fun w =>
        if Config.addwInt32 h then w.1 + w.2 else BitVec.ofNat 32 (addFp32 w.1.toNat w.2.toNat))
      let bs := bytes32 new
      let s := ((s.part p).localAddr x.1).elim s (fun a => (s.addF (pcAddwCount (dieOf a)) ns.length).credit p 38 ns.length)
      reply (s.partPut p x.1 ((List.range bs.length).zip bs)) 0 0 []
    else
      let old := s.partLe p x.1 8
      let v := leNat (data.take 8)
      let bs := leBytes 8 (if hType h = 3 then (old + v) % 2 ^ 64 else v)
      reply (s.partPut p x.1 ((List.range 8).zip bs)) 0 (BitVec.ofNat 64 old) []

/-- What the pages and the buckets under a request say. -/
def State.requestPass (s : State) (p : Nat) (h : BitVec 256) (data : List Byte) : Pass :=
  let x := requestRange h data
  let write := decide (hType h ≠ 0)
  ((pagesOf x.1 x.2).map (fun n => (s.bucketPass p n write).and
    (match s.pageUse p n false with | .ready => .proceed | _ => .wait))).foldl Pass.and .proceed

/-- Serve a request, answer it with a refusal, or hold it while its pages or its buckets do; a page in flash is staged. -/
def State.tryRequest (s : State) (die : Nat) (h : BitVec 256) (data : List Byte) : State :=
  let p := faPart (hAddr h)
  match s.requestPass p h data with
  | .proceed => s.serveRequest p h data
  | .refuse code => s.emit (.reply (BitVec.ofNat 16 (hSrc h)) (hTag h) code 0 [])
  | .wait =>
    let x := requestRange h data
    let s := (pagesOf x.1 x.2).foldl (fun (s : State) n =>
      match s.pageUse p n false with
      | .stage => (s.stageInto p n ((s.part p).demandTiers n)).getD s
      | _ => s) s
    { s with fabric := { s.fabric with waiting := s.fabric.waiting ++ [(die, h, data)] } }

/-- Try again the requests that wait. -/
def State.retryRequests (s : State) : State :=
  let l := s.fabric.waiting
  l.foldl (fun (s : State) x => s.tryRequest x.1 x.2.1 x.2.2) { s with fabric := { s.fabric with waiting := [] } }

/-- A delivered request passes the checks of R472 in their order. -/
def remoteRequest (die : Nat) (h : BitVec 256) (data : List Byte) (s : State) : State :=
  let p := faPart (hAddr h)
  let refuse := fun (s : State) (k : Cause) => s.emit (.reply (BitVec.ofNat 16 (hSrc h)) (hTag h) (pendingCode k) 0 [])
  if 4 ≤ die ∨ 5 ≤ hType h then s
  else if !hcrcOk h then (s.satF (glDrops die 2) 1).raise kGlHeaderCrc (0x200 + die)
  else if (s.part p).state = 0 ∨
      ((s.part p).accept.vals.any (fun e => accepts e (hSrc h) (tagPart (hTag h)) (decide (hType h ≠ 0)))) = false then
    refuse (s.satF (glDrops die 3) 1) kRlRemoteRefused
  else
    let x := requestRange h data
    if !(pagesOf x.1 x.2).all (fun n => match (s.part p).objOf n with | some o => !o.2.freeing | none => false) then
      refuse s kRlUnmapped
    else s.tryRequest die h data

def execRemoteRequest (router : Nat) (hdr : BitVec 256) (data : List Byte) (s : State) : Host.Outcome State Fault Refusal :=
  .next (remoteRequest router hdr data s)

/-! ## Time from the parent (R477, R600) -/

/-- Largest rate correction: 200 ppm in units of 0.01 ppm (R599). -/
def slewMax : Nat := 20000

/-- A measurement against the parent: TB steps at the first one, is slewed while TIME_VALID is set, and loses TIME_VALID
beyond 10 µs.  The rate within its bound is left open (notes/assumptions/28.md). -/
def tbSync (parentTb : Nat) (valid : Bool) (s : State) : State :=
  if s.fabric.timeMaster || !valid || !s.clk.tbRuns || (List.range 6).all (fun b => (s.activePorts b).isEmpty) then s
  else
    let d : Int := (parentTb : Int) - (s.tbNs : Int)
    let off : W32 := BitVec.ofNat 32 (ofInt 32 d)
    if !s.clk.timeValid then
      { s with clk := { s.clk with tb := nsU (parentTb % 2 ^ 64), timeValid := true, offset := off, slew := 0 } }.raise kPwTimeValid 0xFFF
    else if 10000 < d.natAbs then
      { s with clk := { s.clk with timeValid := false, offset := off, slew := 0 } }.raise kPwTimeLost 0xFFF
    else
      let m : Nat := if d = 0 then 0 else Config.pick s.free % (slewMax + 1)
      let r : Int := if d < 0 then -(m : Int) else m
      { s with clk := { s.clk with offset := off, slew := BitVec.ofNat 16 (ofInt 16 r) } }.fresh

def execTbSync (parentTb : Nat) (valid : Bool) (s : State) : Host.Outcome State Fault Refusal := .next (tbSync parentTb valid s)

/-! ## Commands (R478) -/

/-- The discover record of a port. -/
def State.discoverRecord (s : State) (p : Nat) : List Byte :=
  let v := s.port p
  let lanes := ((List.range 4).filter (fun i => v.live.getLsbD i)).length
  let r := if 3 ≤ v.state then v.nb else none
  leBytes 1 p ++ leBytes 1 (v.state % 8 + 8 * lanes) ++
  leBytes 1 (b2n v.miswired + 2 * b2n v.foreign + 4 * b2n ((r.map (fun r => r.spare)).getD false)) ++
  (match r with
    | some r => leBytes 1 r.port ++ leBytes 4 r.fabricId.toNat ++ leBytes 2 r.chip.toNat ++ leBytes 1 r.x ++ leBytes 1 r.y ++
        leBytes 1 r.z ++ leBytes 3 0 ++ leBytes 8 r.moduleId.toNat ++ leBytes 4 r.rtt ++ leBytes 2 r.wcp.toNat ++ leBytes 34 0
    | none => leBytes 61 0)

def fabricDiscoverGo (s : State) (c : Cmd) : Reply :=
  let a := dfld c.d 24 0 64
  if dRestZero c.d [(24, 0, 64)] = false ∨ a % 64 ≠ 0 then .fail kGlAssignBad 0xFFF
  else
    let s := s.hostWrite a ((List.range 24).flatMap s.discoverRecord)
    .ok s (BitVec.ofNat 64 ((List.range 24).filter (fun p => decide (3 ≤ (s.port p).state ∧ (s.port p).state ≤ 5))).length)

def execFabricDiscover (fn : Nat) (d : BitVec 512) (s : State) : Host.Outcome State Fault Refusal :=
  .next (s.runWcp pfNone fn d fabricDiscoverGo)

/-- Operands of `fabric.assign` in range. -/
def assignOk (d : BitVec 512) : Bool :=
  let r := fun (i : Nat) => dfld d (27 + i) 0 8
  let x := fun (i : Nat) => dfld d (24 + i) 0 8
  decide (dfld d 20 0 32 ≠ 0 ∧ (dfld d 19 0 8 ≤ 5 ∨ dfld d 19 0 8 = 7)) &&
  (List.range 3).all (fun i => decide (1 ≤ r i ∧ r i ≤ 64 ∧ x i < r i))

def fabricAssignGo (s : State) (c : Cmd) : Reply :=
  let d := c.d
  let chip := dfld d 16 0 16
  let f := s.fabric
  if dRestZero d [(16, 0, 16), (18, 0, 2), (19, 0, 8), (20, 0, 32), (24, 0, 48)] = false ∨ (chip ≠ 0xFFFF ∧ assignOk d = false) ∨
      (chip ≠ f.chip ∧ s.mode ≠ .ready ∧ f.chip ≠ 0xFFFF) then .fail kGlAssignBad 0xFFF
  else if chip = 0xFFFF then
    let f := { f with chip := 0xFFFF, fabricId := 0, spare := false, timeMaster := false, timeParent := 7, x := 0, y := 0, z := 0,
                      ringX := 1, ringY := 1, ringZ := 1 }
    .ok ({ s with fabric := f }).reidentify 0
  else
    let master := decide (dfld d 18 1 1 = 1)
    let f := { f with chip := chip, fabricId := BitVec.ofNat 32 (dfld d 20 0 32), spare := decide (dfld d 18 0 1 = 1),
                      timeMaster := master, timeParent := dfld d 19 0 8, x := dfld d 24 0 8, y := dfld d 25 0 8, z := dfld d 26 0 8,
                      ringX := dfld d 27 0 8, ringY := dfld d 28 0 8, ringZ := dfld d 29 0 8 }
    let clk := if master then { s.clk with timeValid := true, slew := 0 } else s.clk
    .ok ({ s with fabric := f, clk := clk }).reidentify 0

def execFabricAssign (fn : Nat) (d : BitVec 512) (s : State) : Host.Outcome State Fault Refusal :=
  .next (s.runWcp pfNone fn d fabricAssignGo)

/-- Entries of a table as host memory holds them. -/
def State.hostEntries (s : State) (a n : Nat) : List Nat := (List.range n).map (fun i => Memory.le s.mem.host (a + 8 * i) 8)

/-- A table with entries written from an index on; an entry of 0 is not listed. -/
def putEntries (t : Tab W64) (first : Nat) (l : List Nat) : Tab W64 :=
  l.zipIdx.foldl (fun (t : Tab W64) x =>
    if x.1 = 0 then t.del (first + x.2) else t.put (first + x.2) (BitVec.ofNat 64 x.1)) t

def fabricRouteSetGo (s : State) (c : Cmd) : Reply :=
  let d := c.d
  let p := dfld d 16 0 4
  let table := dfld d 17 0 8
  let first := dfld d 20 0 32
  let n := dfld d 24 0 32
  let es := s.hostEntries (dfld d 32 0 64) n
  if dRestZero d [(16, 0, if table = 1 then 4 else 0), (17, 0, 8), (20, 0, 32), (24, 0, 32), (32, 0, 64)] = false ∨ 1 < table ∨
      n = 0 ∨ 16384 < n then .fail kGlRouteBad 0xFFF
  else if table = 0 then
    let t := putEntries s.fabric.dest first es
    if 0xFFFF < first + n ∨ es.any (fun e => decide (bits e 36 28 ≠ 0)) = true ∨ 16384 < (t.vals.filter destValid).length then
      .fail kGlRouteBad 0xFFF
    else .ok { s with fabric := { s.fabric with dest := t } } 0
  else if (s.part p).state = 0 then swFail kSwNoPartition p
  else if 64 < first + n ∨ es.any (fun e => decide (bits e 50 14 ≠ 0)) = true then .fail kGlRouteBad 0xFFF
  else .ok (s.setPart p { s.part p with accept := putEntries (s.part p).accept first es }) 0

def execFabricRouteSet (fn : Nat) (d : BitVec 512) (s : State) : Host.Outcome State Fault Refusal :=
  .next (s.runWcp pfNone fn d fabricRouteSetGo)

def fabricSpareEnableGo (s : State) (c : Cmd) : Reply :=
  let chip := dfld c.d 16 0 16
  if dRestZero c.d [(16, 0, 16)] = false ∨ s.fabric.spare = false ∨ chip = 0xFFFF then .fail kGlSpareBad 0xFFF
  else .ok ({ s with fabric := { s.fabric with chip := chip, spare := false } }).reidentify 0

def execFabricSpareEnable (fn : Nat) (d : BitVec 512) (s : State) : Host.Outcome State Fault Refusal :=
  .next (s.runWcp pfNone fn d fabricSpareEnableGo)

end Sys2Proof.Machine
end

