-- ==== Sys2Proof/Machine/Collective.lean ====
section
/-! DEFINITION. The collective engine's commands and packets: groups, launches and resumes, re-shards, aborts, handovers;
CONTRIB, RESULT, DATA, ACK and ABORT, resends and stalls (R485 to R488, R495 to R499, R503, R504, R507 to R511, R514,
R515). -/

namespace Sys2Proof.Machine

open Sys2Proof

/-! ## Groups (R485, R486, R488) -/

/-- Little-endian 32-bit values of bytes. -/
def nats32 (bs : List Byte) : List Nat := (List.range (bs.length / 4)).map (fun i => leNat ((bs.drop (4 * i)).take 4))

/-- No number twice in a list. -/
def noRepeat (l : List Nat) : Bool :=
  let m := sortBy (fun a b => decide (a ≤ b)) l
  (m.zip (m.drop 1)).all (fun x => decide (x.1 ≠ x.2))

/-- Something still uses a group. -/
def State.groupBusy (s : State) (p gid : Nat) : Bool :=
  s.coll.ops.any (fun o => decide (o.part = p ∧ o.gid = gid) && !o.done) ||
  s.coll.aborted.any (fun o => decide (o.part = p ∧ o.gid = gid)) ||
  (s.part p).buckets.vals.any (fun b => decide (b.op ≠ 0 ∧ b.group = gid)) ||
  s.coll.reshards.any (fun r => decide (r.part = p ∧ r.gid = gid))

/-- The group is no longer held; finished records of its operations go with it. -/
def State.dropGroup (s : State) (p gid : Nat) : State :=
  { s with coll := { s.coll with
    groups := s.coll.groups.del (groupKey p gid),
    ops := s.coll.ops.filter (fun o => !(decide (o.part = p ∧ o.gid = gid))) } }

def ceFail (c : Cause) (p : Nat) : Reply := .fail c (partInst p)

def groupCreateGo (s : State) (c : Cmd) : Reply :=
  let d := c.d
  let p := c.part
  let gid := dfld d 20 0 16
  let n := dfld d 24 0 32
  let a := dfld d 32 0 64
  let fromObj := decide (dfld d 17 2 1 = 1)
  if dRestZero d [(16, 0, 4), (17, 0, 3), (18, 0, 8), (20, 0, 16), (24, 0, 32), (32, 0, 64)] = false ∨ 16384 < n then ceFail kCeBadOp p
  else if n = 0 then
    if (s.group? p gid).isNone then ceFail kCeNoGroup p
    else if s.groupBusy p gid then ceFail kCeGroupBusy p
    else .ok (s.dropGroup p gid) 0
  else if fromObj ∧ (2 ^ 44 ≤ a ∨ (s.part p).inObject a (4 * n) = false) then ceFail kCeBadOp p
  else
    let l := nats32 (if fromObj then s.partRead p a (4 * n) else Memory.readN s.mem.host a (4 * n))
    let me := s.fabric.chip + p * 65536
    if gid = 0 ∨ dfld d 18 0 8 < 2 ∨ 8 < dfld d 18 0 8 ∨ l.any (fun x => decide (2 ^ 20 ≤ x)) = true ∨ noRepeat l = false ∨
        l.contains me = false then ceFail kCeBadGroup p
    else if s.groupBusy p gid then ceFail kCeGroupBusy p
    else
      let s := s.dropGroup p gid
      if 64 ≤ s.coll.groups.length then ceFail kCeGroupLimit p
      else
        let rank := l.findIdx (fun x => decide (x = me))
        let g : Group := { part := p, members := l.map (fun x => (x % 65536, x / 65536)), rank := rank, fanin := dfld d 18 0 8,
                           ordered := decide (dfld d 17 1 1 = 1), pace := decide (dfld d 17 0 1 = 1), count := 0 }
        .ok { s with coll := { s.coll with groups := s.coll.groups.put (groupKey p gid) g } } (BitVec.ofNat 64 rank)

def execCollGroupCreate (fn : Nat) (d : BitVec 512) (s : State) : Host.Outcome State Fault Refusal :=
  .next (s.runWcp vfPart fn d groupCreateGo)

/-! ## Maps (R509) -/

/-- A record of a map as a segment. -/
def Seg.ofNat (r : Nat) (staged : Bool) : Seg :=
  { localOff := bits r 0 44, peerRank := bits r 44 14, peerOff := bits r 64 44, units := bits r 108 20, staged := staged }

/-- Segments share no local byte. -/
def segsApart (l : List Seg) : Bool :=
  let m := sortBy (fun a b => decide (a.localOff ≤ b.localOff)) (l.filter (fun g => decide (g.units ≠ 0)))
  (m.zip (m.drop 1)).all (fun x => decide (x.1.localOff + chunkBytes * x.1.units ≤ x.2.localOff))

/-- The outgoing and incoming segments of the map at a partition offset; `none` when it breaks the rules. -/
def State.readMap (s : State) (p n m : Nat) (staged : Bool) : Option (List Seg × List Seg) :=
  let q := s.part p
  let outs := s.partLe p m 4
  let ins := s.partLe p (m + 4) 4
  if 2 ^ 44 ≤ m ∨ q.inObject m 16 = false ∨ 65536 < outs ∨ 65536 < ins ∨ s.partLe p (m + 8) 8 ≠ 0 ∨
      q.inObject m (16 + 16 * (outs + ins)) = false then none
  else
    let recs := (List.range (outs + ins)).map (fun i => s.partLe p (m + 16 + 16 * i) 16)
    let good := recs.all (fun r =>
      decide (bits r 58 6 = 0 ∧ bits r 0 44 % chunkBytes = 0 ∧ bits r 64 44 % chunkBytes = 0 ∧ bits r 44 14 < n) &&
      (decide (bits r 108 20 = 0) || q.inObject (bits r 0 44) (chunkBytes * bits r 108 20)))
    let o := (recs.take outs).map (fun r => Seg.ofNat r staged)
    let i := (recs.drop outs).map (fun r => Seg.ofNat r false)
    if good && segsApart o && segsApart i then some (o, i) else none

/-! ## Launch and resume (R489, R496, R504, R515) -/

/-- Operands of a new operation are in range. -/
def State.collOk (s : State) (p : Nat) (g : Group) (d : BitVec 512) : Bool :=
  let op := dfld d 17 0 3
  let dt := dfld d 17 4 2
  decide (op ≤ 5 ∧ dt ≤ 2 ∧ dfld d 17 6 2 ≤ 2 ∧ (dt = 2 → op ≠ 0 ∧ op ≠ 1 ∧ op ≠ 3) ∧ dfld d 22 0 16 = 0 ∧ dfld d 40 0 32 = 0) &&
  (decide (op = 2 ∨ op = 3 ∨ op = 5) || decide (dfld d 18 0 16 < g.members.length)) &&
  (decide (op = 5) || (decide (dfld d 48 0 64 = 0 ∧ dfld d 32 0 64 % 256 = 0 ∧ dfld d 24 0 64 + dfld d 32 0 64 ≤ 2 ^ 44) &&
    (s.part p).inObject (dfld d 24 0 64) (max 1 (dfld d 32 0 64))))

/-- A chunk at the start of an attempt: one that its root has committed is not reduced again. -/
def CollOp.again (o : CollOp) (c : Nat) (h : Chunk) : Chunk :=
  if c < 256 * o.fromStep then { h with inputs := [], unacked := [] }
  else { Chunk.zero with started := h.committed, committed := h.committed }

/-- The roots of committed chunks send their RESULT again. -/
def State.resendResults (s : State) (o : CollOp) (g : Group) : State :=
  if o.op ≠ 1 then s
  else (o.chunks.filter (fun x => x.2.committed && decide (256 * o.fromStep ≤ x.1))).foldl (fun (s : State) x =>
    let bs := s.ownData o x.1
    (treeChildren g.members.length g.fanin (o.rootOf g.members.length x.1) g.rank).foldl (fun (s : State) k =>
      s.sendKept o x.1 1 k (chunkBytes * x.1) bs) s) s

/-- Resume an aborted operation from a step. -/
def State.resumeOp (s : State) (x : CollOp) (g : Group) (from_ order : Nat) : State :=
  let o := { x with attempt := (x.attempt + 1) % 256, fromStep := from_, cmd := some order, cause := 0 }
  let o := { o with chunks := o.chunks.mapV (fun c h => o.again c h) }
  let s := { s with coll := { s.coll with
    aborted := s.coll.aborted.filter (fun y => !y.same x),
    ops := s.coll.ops.filter (fun (y : CollOp) => !y.same x) ++ [{ o with waiting := true, last := s.now }] } }
  (s.resendResults o g).fillPlaces s.coll.ops.length

def collLaunchGo (s : State) (c : Cmd) : Reply :=
  let d := c.d
  let p := c.part
  let gid := dfld d 20 0 16
  if dRestZero d [(16, 0, 4), (17, 0, 8), (18, 0, 16), (20, 0, 16), (22, 0, 16), (24, 0, 64), (32, 0, 64), (40, 0, 32), (48, 0, 64)]
      = false then ceFail kCeBadOp p
  else match s.group? p gid with
    | none => ceFail kCeNoGroup p
    | some g =>
      if dfld d 17 3 1 = 1 then
        match s.coll.aborted.find? (fun o => decide (o.part = p ∧ o.gid = gid ∧ o.opseq = dfld d 22 0 16)) with
        | none => ceFail kCeResumeBad p
        | some x =>
          if x.doneSteps g < dfld d 40 0 32 then ceFail kCeResumeBad p
          else .wait (s.resumeOp x g (dfld d 40 0 32) c.order)
      else if !s.collOk p g d then ceFail kCeBadOp p
      else
        let op := dfld d 17 0 3
        match (if op = 5 then s.readMap p g.members.length (dfld d 48 0 64) true else some ([], [])) with
        | none => ceFail kCeBadMap p
        | some m =>
          let r := s.nextOpseq p gid
          .wait (r.1.startOp { CollOp.fresh p gid r.2 op (dfld d 17 4 2) (dfld d 17 6 2) with
            root := dfld d 18 0 16, off := dfld d 24 0 64, len := if op = 5 then 0 else dfld d 32 0 64,
            segOut := m.1, segIn := m.2, cmd := some c.order })

def execCollLaunch (fn : Nat) (d : BitVec 512) (s : State) : Host.Outcome State Fault Refusal :=
  .next (s.runWcp vfPart fn d collLaunchGo)

/-! ## Re-shard (R435, R508) -/

/-- Objects that a map touches outside the fenced bucket ranges of a launch. -/
def State.namedObjects (s : State) (p h cur : Nat) (l : List Seg) : List Nat :=
  let q := s.part p
  let fenced := (q.buckets.vals.filter (fun b => decide (b.launch = h ∧ b.epoch = cur))).map Bucket.range
  ((l.filter (fun g => !(fenced.any (fun x => g.inRange x)))).filterMap (fun g => (q.objOf (g.localOff / pageBytes)).map (fun o => o.1))).eraseDups

def collReshardGo (s : State) (c : Cmd) : Reply :=
  let d := c.d
  let p := c.part
  let h := dfld d 20 0 16
  let gid := dfld d 22 0 16
  if dRestZero d [(16, 0, 4), (20, 0, 16), (22, 0, 16), (24, 0, 64)] = false then ceFail kCeBadOp p
  else match s.group? p gid, s.launch? p h with
    | none, _ => ceFail kCeNoGroup p
    | _, none => .fail kCmNoLaunch c.fn
    | some g, some l =>
      if (s.reshard? p h).isSome then ceFail kCeReshardPending p
      else match s.readMap p g.members.length (dfld d 24 0 64) false with
        | none => ceFail kCeBadMap p
        | some m =>
          let bytes := chunkBytes * (m.1.map (fun g => g.units)).sum
          match (if bytes = 0 then some (s, none) else (s.declare p (Obj.plain ((bytes + pageBytes - 1) / pageBytes) 0)).map
              (fun (x : State × Nat) => (x.1, some x.2))) with
          | none => slFail kSlNoSpace p
          | some (s, base) =>
            let r := s.nextOpseq p gid
            let s := r.1
            let new := nextEpoch l.cur
            let objs := s.namedObjects p h l.cur (m.1 ++ m.2)
            let s := s.setPart p { s.part p with buckets := (s.part p).buckets.mapV (fun _ b =>
              if b.launch = h then { b with opened := false } else b) }
            let x : Reshard := { part := p, launch := h, gid := gid, opseq := r.2, cmd := c.order, new := new, switched := false,
                                 objects := objs.map (fun o => (o, false)), applied := [], segOut := m.1, segIn := m.2,
                                 staging := base, handover := false }
            .wait (({ s with coll := { s.coll with reshards := s.coll.reshards ++ [x] } }).trySwitch p h false)

def execCollReshard (fn : Nat) (d : BitVec 512) (s : State) : Host.Outcome State Fault Refusal :=
  .next (s.runWcp vfPart fn d collReshardGo)

/-! ## Abort by command (R503, R507, R511) -/

/-- The host drops an aborted record; the launch of a bucket or of a re-shard completes with the record's cause. -/
def State.dropRecord (s : State) (p gid opseq : Nat) : State :=
  match s.coll.aborted.find? (fun o => decide (o.part = p ∧ o.gid = gid ∧ o.opseq = opseq)) with
  | none => s
  | some x =>
    let s := { s with coll := { s.coll with aborted := s.coll.aborted.filter (fun y => !y.same x) } }
    match x.launch with
    | some h => s.endLaunch p h x.cause
    | none => s

def collAbortGo (s : State) (c : Cmd) : Reply :=
  let d := c.d
  let p := c.part
  let gid := dfld d 20 0 16
  let opseq := dfld d 22 0 16
  let final := decide (dfld d 17 0 1 = 1)
  let mine := fun (o : CollOp) => decide (o.part = p ∧ o.gid = gid ∧ o.opseq = opseq) && !o.pace
  if dRestZero d [(16, 0, 4), (17, 0, 1), (20, 0, 16), (22, 0, 16)] = false then ceFail kCeBadOp p
  else if (s.group? p gid).isNone then ceFail kCeNoGroup p
  else match s.coll.ops.find? (fun o => mine o && !o.done) with
    | some o =>
      let s := s.abortOp o kCeAborted
      .ok (if final then s.dropRecord p gid opseq else s) 0
    | none => if final && s.coll.aborted.any mine then .ok (s.dropRecord p gid opseq) 0 else ceFail kCeBadOp p

def execCollAbort (fn : Nat) (d : BitVec 512) (s : State) : Host.Outcome State Fault Refusal :=
  .next (s.runWcp vfPart fn d collAbortGo)

/-! ## Handover (R514) -/

/-- The partition whose two-member group a `handover.begin` names: the lowest in which this module has the rank of the
role. -/
def State.handoverPart (s : State) (gid role : Nat) : Option Nat :=
  (List.range 16).find? (fun p => match s.group? p gid with
    | some g => decide (g.members.length = 2 ∧ g.rank = role)
    | none => false)

def handoverGo (s : State) (c : Cmd) : Reply :=
  let d := c.d
  let role := dfld d 17 0 1
  let h := dfld d 20 0 16
  let gid := dfld d 22 0 16
  let n := dfld d 24 0 32
  if dRestZero d [(17, 0, 1), (20, 0, 16), (22, 0, 16), (24, 0, 32), (32, 0, 64)] = false ∨ n = 0 ∨ 256 < n then .fail kCeBadOp 0xFFF
  else if (List.range 16).all (fun p => (s.group? p gid).isNone) then .fail kCeNoGroup 0xFFF
  else match s.handoverPart gid role with
    | none => .fail kCeHandoverBad 0xFFF
    | some p =>
      let offs := (List.range n).map (fun i => Memory.le s.mem.host (dfld d 32 0 64 + 8 * i) 8)
      let objs := offs.filterMap (fun o => (s.object? p o).map (fun x => (o, x)))
      if role = 0 ∧ (s.launch? p h).isNone = true then .fail kCmNoLaunch c.fn
      else if role = 0 ∧ (s.reshard? p h).isSome = true then ceFail kCeReshardPending p
      else if objs.length ≠ n ∨ noRepeat offs = false then ceFail kCeHandoverBad p
      else
        let segs := fun (peer : Nat) (staged : Bool) => objs.map (fun (o : Nat × Obj) =>
          ({ localOff := o.1, peerRank := peer, peerOff := o.1, units := o.2.pages * (pageBytes / chunkBytes), staged := staged } : Seg))
        let s := s.updCmd c.order (fun c => { c with part := p })
        let r := s.nextOpseq p gid
        let s := r.1
        if role = 0 then
          let x : Reshard := { part := p, launch := h, gid := gid, opseq := r.2, cmd := c.order, new := 0, switched := false,
                               objects := objs.map (fun o => (o.1, false)), applied := [], segOut := segs 1 true, segIn := [],
                               staging := none, handover := true }
          .wait { s with coll := { s.coll with reshards := s.coll.reshards ++ [x] } }
        else .wait (s.startOp { CollOp.fresh p gid r.2 5 2 0 with segIn := segs 0 false, cmd := some c.order })

def execHandoverBegin (fn : Nat) (d : BitVec 512) (s : State) : Host.Outcome State Fault Refusal :=
  .next (s.runWcp pfNone fn d handoverGo)

/-! ## Packets (R487, R495 to R499) -/

def pktPart (k : CollPacket) : Nat := faPart k.addr.toNat
def pktOff (k : CollPacket) : Nat := faOff k.addr.toNat
def pktChunk (k : CollPacket) : Nat := pktOff k / chunkBytes
def pktSlice (k : CollPacket) : Nat := pktChunk k % 4

/-- The operation of a packet, as this member runs it or keeps it. -/
def State.pktOp (s : State) (k : CollPacket) : Option CollOp :=
  s.coll.ops.find? (fun o => decide (o.part = pktPart k ∧ o.gid = k.gid.toNat ∧ o.opseq = k.opseq.toNat ∧ o.pace = k.pace) && !o.waiting)

/-- A packet of a sender that may not send it is discarded and counted. -/
def State.foreign (s : State) (k : CollPacket) : State := s.addF (ceForeign (pktSlice k)) 1

/-- A duplicate is discarded, acknowledged again and counted. -/
def State.duplicate (s : State) (o : CollOp) (r : Nat) (k : CollPacket) : State :=
  (s.addF (ceDup (pktSlice k)) 1).collSend o 2 r (pktOff k) []

/-- A packet whose seal fails is discarded without an ACK. -/
def State.sealResent (s : State) (k : CollPacket) : State :=
  s.raiseLimited (kCeSealResent.flint (pktSlice k)).toNat kCeSealResent (pktSlice k)

/-- Ranks of a list that the source chip is. -/
def Group.ranksOf (g : Group) (l : List Nat) (src : Nat) : List Nat := l.filter (fun r => decide (g.chip r = src))

/-- A packet that passes: its record's bit is set, the operation has made progress, and the packet is acknowledged. -/
def State.admitPacket (s : State) (o : CollOp) (c r : Nat) (k : CollPacket) : State :=
  ((s.updChunk o c (fun h => { h with seen := r :: h.seen })).updOp o (fun x => { x with last := s.now })).collSend o 2 r (pktOff k) []

/-- The group and the operation of a packet: handled by `f`, or discarded. -/
def State.withOp (s : State) (k : CollPacket) (f : State → Group → CollOp → State) : State :=
  match s.group? (pktPart k) k.gid.toNat with
  | none => s.foreign k
  | some g =>
    if g.members.all (fun m => decide (m.1 ≠ k.src.toNat)) then s.foreign k
    else match s.pktOp k with
      | none => s
      | some o => if o.attempt = k.attempt.toNat then f s g o else s

/-- A child's partial result. -/
def contrib (k : CollPacket) (s : State) : State :=
  s.withOp k (fun s g o =>
    let c := pktChunk k
    let n := g.members.length
    let kids := treeChildren n g.fanin (o.rootOf n c) g.rank
    match g.ranksOf kids k.src.toNat with
    | [] => s.foreign k
    | r0 :: rest =>
      if !o.reduces || decide (o.chunkCount ≤ c) then s.foreign k
      else
        match (r0 :: rest).find? (fun r => !(o.chunk c).seen.contains r) with
        | none => s.duplicate o r0 k
        | some r =>
          if !k.sealOk then s.sealResent k
          else if o.done then s
          else
            let s := if (o.chunk c).committed then s
              else (s.addF (ceBytes (pktSlice k)) k.data.length).updChunk o c (fun h => { h with inputs := h.inputs ++ [(r, words32 k.data)] })
            (s.admitPacket o c r k).runOp o)

def execContrib (p : CollPacket) (s : State) : Host.Outcome State Fault Refusal := .next (contrib p s)

/-- The parent's result of a chunk: written here and sent on. -/
def State.takeDown (s : State) (k : CollPacket) (g : Group) (o : CollOp) (kind : Nat) : State :=
  let c := pktChunk k
  let n := g.members.length
  let root := o.rootOf n c
  match (treeParent n g.fanin root g.rank).filter (fun r => decide (g.chip r = k.src.toNat)) with
  | none => s.foreign k
  | some r =>
    if o.chunkCount ≤ c then s.foreign k
    else if (o.chunk c).seen.contains r then s.duplicate o r k
    else if !k.sealOk then s.sealResent k
    else if o.done then s
    else
      let s := (s.putResult o c k.data).updChunk o c (fun h => { h with written := true })
      let s := (treeChildren n g.fanin root g.rank).foldl (fun (s : State) q => s.sendKept o c kind q (pktOff k) k.data) s
      (s.admitPacket o c r k).runOp o

def result (k : CollPacket) (s : State) : State :=
  s.withOp k (fun s g o => if o.op = 1 then s.takeDown k g o 1 else s.foreign k)

def execResult (p : CollPacket) (s : State) : Host.Outcome State Fault Refusal := .next (result p s)

/-- DATA may land at an offset: every outgoing segment that covers it has been staged or read, and in a fenced range the
permute has been applied (R510). -/
def State.mayLand (s : State) (o : CollOp) (off : Nat) : Bool :=
  let units := (unitsOf o.segOut).zipIdx
  units.all (fun u => decide (u.1.1 ≠ off) || (u.1.2.2.2.1 && (o.staging.isSome || (o.chunk u.2).started))) &&
  (match s.coll.reshards.find? (fun r => decide (r.part = o.part ∧ r.gid = o.gid ∧ r.opseq = o.opseq) && !r.handover) with
    | none => true
    | some r =>
      let bs := (List.range 256).filter (fun i => match (s.part r.part).buckets.at? i with
        | some b => decide (b.launch = r.launch ∧ b.epoch = prevEpoch r.new)
        | none => false)
      (bs ++ (List.range r.objects.length).map (fun i => 256 + i)).all (fun i => match s.rangeOf r i with
        | some x => !(decide (x.1 ≤ off ∧ off < x.1 + x.2)) || r.applied.contains i
        | none => true))

/-- DATA of a permute lands in its unit. -/
def State.landUnit (s : State) (k : CollPacket) (g : Group) (o : CollOp) : State :=
  let off := pktOff k
  match (unitsOf o.segIn).find? (fun u => decide (u.1 = off ∧ g.chip u.2.1 = k.src.toNat)) with
  | none => s.foreign k
  | some u =>
    if o.landed.contains off then s.duplicate o u.2.1 k
    else if !k.sealOk then s.sealResent k
    else if !s.mayLand o off then s
    else
      let s := (s.collWrite o.part off k.data).updOp o (fun x => { x with landed := off :: x.landed, last := s.now })
      let s := s.collSend o 2 u.2.1 off []
      let s := match o.launch with | some h => s.openRanges o.part h | none => s
      s.runOp o

def data (k : CollPacket) (s : State) : State :=
  s.withOp k (fun s g o =>
    if o.op = 5 then s.landUnit k g o else if o.op = 2 ∨ o.op = 4 then s.takeDown k g o 3 else s.foreign k)

def execData (p : CollPacket) (s : State) : Host.Outcome State Fault Refusal := .next (data p s)

/-- The object that a broadcast of a group loads here as the root (R403). -/
def State.broadcastRoot (s : State) (p gid : Nat) : Option Nat :=
  (s.host.inProgress.find? (fun c => decide (dOpcode c.d = 0x0303 ∧ c.part = p ∧ c.started = true ∧ dfld c.d 40 0 32 = gid ∧
    dfld c.d 17 0 1 = 1))).map (fun c => dfld c.d 24 0 44)

/-- Records of the image that a broadcast's root reads. -/
def State.imageRecords (s : State) (p base : Nat) : Nat :=
  match ((s.part p).objects.at? base).bind (fun o => o.image) with
  | some r => 5 + r.dataBytes / 256
  | none => 0

/-- A member's report to the root of a broadcast: its last ACK, or its ABORT. -/
def State.broadcastReport (s : State) (k : CollPacket) (failed : Bool) : State :=
  match s.broadcastRoot (pktPart k) k.gid.toNat, s.group? (pktPart k) k.gid.toNat with
  | some base, some g =>
    if g.members.any (fun m => decide (m.1 = k.src.toNat)) && (failed || decide (pktOff k + 1 = s.imageRecords (pktPart k) base)) then
      s.memberReported (pktPart k) base k.src.toNat failed
    else s
  | _, _ => s

/-- Take the first packet of a list that an ACK covers out of it. -/
def dropAcked (l : List (Nat × Nat × List Byte × Nat)) (kind : Nat) (ranks : List Nat) : List (Nat × Nat × List Byte × Nat) :=
  match l with
  | [] => []
  | x :: t => if x.1 = kind ∧ ranks.contains x.2.1 then t else x :: dropAcked t kind ranks

/-- An acknowledgement of a packet of MSG `of`. -/
def ack (k : CollPacket) (of : Nat) (s : State) : State :=
  if (s.pktOp k).isNone && k.opseq == 0 then s.broadcastReport k false
  else s.withOp k (fun s g o =>
    let n := g.members.length
    let c := if o.op = 5 then
        (unitsOf o.segOut).findIdx (fun u => decide (u.2.2.1 = pktOff k ∧ g.chip u.2.1 = k.src.toNat))
      else pktChunk k
    let tree := treeChildren n g.fanin (o.rootOf n c) g.rank ++ (treeParent n g.fanin (o.rootOf n c) g.rank).toList
    let ranks := g.ranksOf (if o.op = 5 then o.segOut.map (fun x => x.peerRank) else tree) k.src.toNat
    if ranks.isEmpty ∨ o.chunkCount ≤ c then s.foreign k
    else
      let rest := dropAcked (o.chunk c).unacked of ranks
      if rest = (o.chunk c).unacked then s
      else ((s.updChunk o c (fun h => { h with unacked := rest })).updOp o (fun x => { x with last := s.now })).runOp o)

def execAck (p : CollPacket) (of : Nat) (s : State) : Host.Outcome State Fault Refusal := .next (ack p of s)

/-- ABORT of the current attempt from a member that shares a tree or a segment with this one. -/
def abort (k : CollPacket) (s : State) : State :=
  if (s.pktOp k).isNone && k.opseq == 0 then s.broadcastReport k true
  else s.withOp k (fun s g o =>
    let peers := (List.range g.members.length).filter (fun r => decide (g.chip r = k.src.toNat ∧ r ≠ g.rank) &&
      (if o.op = 5 then (o.segOut ++ o.segIn).any (fun x => decide (x.peerRank = r)) else (o.tells { g with rank := r }).contains g.rank))
    if peers.isEmpty then s.foreign k
    else if o.done then s else s.abortOp o kCeAborted)

def execAbort (p : CollPacket) (s : State) : Host.Outcome State Fault Refusal := .next (abort p s)

/-! ## Resends and stalls (R498, R503) -/

/-- Packets of a chunk that have no ACK go out again; after the 8th send the operation aborts. -/
def collResend (p gid opseq c : Nat) (s : State) : State :=
  match s.coll.ops.find? (fun o => decide (o.part = p ∧ o.gid = gid ∧ o.opseq = opseq) && !o.waiting && !o.done &&
      !(o.chunk c).unacked.isEmpty) with
  | none => s
  | some o =>
    let l := (o.chunk c).unacked
    if l.any (fun x => decide (8 ≤ x.2.2.2)) then s.abortOp o kCeNoPath
    else
      let s := s.addF (ceResend (c % 4)) l.length
      let s := l.foldl (fun (s : State) x => s.collSend o x.1 x.2.1 (o.seqOf c) x.2.2.1) s
      s.updChunk o c (fun h => { h with unacked := h.unacked.map (fun x => (x.1, x.2.1, x.2.2.1, x.2.2.2 + 1)) })

def execCollResend (part : Nat) (gid opseq : BitVec 16) (seq : Nat) (s : State) : Host.Outcome State Fault Refusal :=
  .next (collResend part gid.toNat opseq.toNat seq s)

/-- No packet of an operation accepted or acknowledged for STALL_MS. -/
def stalled (p gid opseq : Nat) (s : State) : State :=
  let limit := nsU (1000000 * max 1 (s.getF ceStallMs))
  match s.coll.ops.find? (fun o => decide (o.part = p ∧ o.gid = gid ∧ o.opseq = opseq ∧ o.last + limit ≤ s.now) &&
      !o.waiting && !o.done) with
  | some o => s.abortOp o kCeStalled
  | none => s

def execStalled (part : Nat) (gid opseq : BitVec 16) (s : State) : Host.Outcome State Fault Refusal :=
  .next (stalled part gid.toNat opseq.toNat s)

end Sys2Proof.Machine
end

