-- ==== Sys2Proof/Machine/Crypto.lean ====
section
/-! DEFINITION. SHA-256 and ECDSA P-256 verification, which R570 to R577 name for slates and firmware images: the published
algorithms (FIPS 180-4; FIPS 186 with the curve P-256), PRESUMED by their names (notes/assumptions/29.md). -/

namespace Sys2Proof.Machine

open Sys2Proof

/-! ## SHA-256 -/

/-- The 64 round constants. -/
def shaK : List Nat := [
  0x428a2f98, 0x71374491, 0xb5c0fbcf, 0xe9b5dba5, 0x3956c25b, 0x59f111f1, 0x923f82a4, 0xab1c5ed5,
  0xd807aa98, 0x12835b01, 0x243185be, 0x550c7dc3, 0x72be5d74, 0x80deb1fe, 0x9bdc06a7, 0xc19bf174,
  0xe49b69c1, 0xefbe4786, 0x0fc19dc6, 0x240ca1cc, 0x2de92c6f, 0x4a7484aa, 0x5cb0a9dc, 0x76f988da,
  0x983e5152, 0xa831c66d, 0xb00327c8, 0xbf597fc7, 0xc6e00bf3, 0xd5a79147, 0x06ca6351, 0x14292967,
  0x27b70a85, 0x2e1b2138, 0x4d2c6dfc, 0x53380d13, 0x650a7354, 0x766a0abb, 0x81c2c92e, 0x92722c85,
  0xa2bfe8a1, 0xa81a664b, 0xc24b8b70, 0xc76c51a3, 0xd192e819, 0xd6990624, 0xf40e3585, 0x106aa070,
  0x19a4c116, 0x1e376c08, 0x2748774c, 0x34b0bcb5, 0x391c0cb3, 0x4ed8aa4a, 0x5b9cca4f, 0x682e6ff3,
  0x748f82ee, 0x78a5636f, 0x84c87814, 0x8cc70208, 0x90befffa, 0xa4506ceb, 0xbef9a3f7, 0xc67178f2]

/-- Initial hash value. -/
def shaH0 : List Nat := [0x6a09e667, 0xbb67ae85, 0x3c6ef372, 0xa54ff53a, 0x510e527f, 0x9b05688c, 0x1f83d9ab, 0x5be0cd19]

/-- Rotate a 32-bit word right. -/
def rotr (n x : Nat) : Nat := x / 2 ^ n + x % 2 ^ n * 2 ^ (32 - n)

/-- One message word more: `w` holds the last 16, oldest first. -/
def shaNext (w : List Nat) : Nat :=
  let a := w.getD 1 0
  let b := w.getD 14 0
  let s0 := rotr 7 a ^^^ rotr 18 a ^^^ (a / 8)
  let s1 := rotr 17 b ^^^ rotr 19 b ^^^ (b / 1024)
  (w.getD 0 0 + s0 + w.getD 9 0 + s1) % 2 ^ 32

/-- One round: the constant and the message word added. -/
def shaRound (k w : Nat) : List Nat → List Nat
  | [a, b, c, d, e, f, g, h] =>
    let s1 := rotr 6 e ^^^ rotr 11 e ^^^ rotr 25 e
    let ch := (e &&& f) ^^^ ((0xFFFFFFFF - e) &&& g)
    let t1 := h + s1 + ch + k + w
    let s0 := rotr 2 a ^^^ rotr 13 a ^^^ rotr 22 a
    let mj := (a &&& b) ^^^ (a &&& c) ^^^ (b &&& c)
    [(t1 + s0 + mj) % 2 ^ 32, a, b, c, (d + t1) % 2 ^ 32, e, f, g]
  | x => x

/-- The rounds over the constants that remain. -/
def shaRounds : List Nat → List Nat → List Nat → List Nat
  | [], _, x => x
  | k :: ks, w, x => shaRounds ks (w.drop 1 ++ [shaNext w]) (shaRound k (w.headD 0) x)

/-- Big-endian value of bytes. -/
def beNat (l : List Byte) : Nat := l.foldl (fun v b => 256 * v + b.toNat) 0

/-- Compress the 64-byte blocks of a padded message, `n` of them. -/
def shaBlocks : Nat → List Byte → List Nat → List Nat
  | 0, _, h => h
  | n + 1, m, h =>
    let w := (List.range 16).map (fun i => beNat ((m.drop (4 * i)).take 4))
    let x := shaRounds shaK w h
    shaBlocks n (m.drop 64) ((h.zip x).map (fun p => (p.1 + p.2) % 2 ^ 32))

/-- The digest as a number, its first byte the most significant. -/
def sha256 (m : List Byte) : Nat :=
  let z := (119 - m.length % 64) % 64
  let bits := 8 * m.length
  let p := m ++ [0x80] ++ List.replicate z 0 ++ (leBytes 8 bits).reverse
  (shaBlocks (p.length / 64) p shaH0).foldl (fun v x => v * 2 ^ 32 + x) 0

/-- The digest as 32 bytes. -/
def sha256Bytes (m : List Byte) : List Byte := (leBytes 32 (sha256 m)).reverse

/-! ## P-256 -/

def p256P : Nat := 0xffffffff00000001000000000000000000000000ffffffffffffffffffffffff
def p256N : Nat := 0xffffffff00000000ffffffffffffffffbce6faada7179e84f3b9cac2fc632551
def p256B : Nat := 0x5ac635d8aa3a93e7b3ebbd55769886bc651d06b0cc53b0f63bce3c3e27d2604b
def p256Gx : Nat := 0x6b17d1f2e12c4247f8bce6e563a440f277037d812deb33a0f4a13945d898c296
def p256Gy : Nat := 0x4fe342e2fe1a7f9b8ee7eb4a7c0f9e162bce33576b315ececbb6406837bf51f5

/-- A point in Jacobian coordinates; Z = 0 is the point at infinity. -/
structure EcPoint where
  x : Nat
  y : Nat
  z : Nat
  deriving DecidableEq, Repr

def EcPoint.inf : EcPoint := ⟨1, 1, 0⟩

/-- a − b modulo the field prime. -/
def fsub (a b : Nat) : Nat := (a + p256P - b % p256P) % p256P

def EcPoint.double (q : EcPoint) : EcPoint :=
  if q.z = 0 then q
  else
    let zz := q.z * q.z % p256P
    let m := 3 * (fsub q.x zz * (q.x + zz) % p256P) % p256P
    let yy := q.y * q.y % p256P
    let s := 4 * q.x * yy % p256P
    let x := fsub (m * m % p256P) (2 * s)
    ⟨x, fsub (m * fsub s x % p256P) (8 * yy * yy), 2 * q.y * q.z % p256P⟩

def EcPoint.add (q r : EcPoint) : EcPoint :=
  if q.z = 0 then r
  else if r.z = 0 then q
  else
    let qz := q.z * q.z % p256P
    let rz := r.z * r.z % p256P
    let u := q.x * rz % p256P
    let v := r.x * qz % p256P
    let s := q.y * r.z * rz % p256P
    let t := r.y * q.z * qz % p256P
    if u = v then (if s = t then q.double else EcPoint.inf)
    else
      let h := fsub v u
      let d := fsub t s
      let hh := h * h % p256P
      let hhh := h * hh % p256P
      let uh := u * hh % p256P
      let x := fsub (fsub (d * d % p256P) hhh) (2 * uh)
      ⟨x, fsub (d * fsub uh x % p256P) (s * hhh), h * q.z * r.z % p256P⟩

/-- a·Q + b·R over the top `n` bits still to come (bits n − 1 down to 0). -/
def ecSum (a b : Nat) (q r qr : EcPoint) : Nat → EcPoint → EcPoint
  | 0, acc => acc
  | n + 1, acc =>
    let d := acc.double
    ecSum a b q r qr n
      (if bit a n then (if bit b n then d.add qr else d.add q) else if bit b n then d.add r else d)

/-- a^e modulo m over the top `n` bits still to come. -/
def powMod (a e m : Nat) : Nat → Nat → Nat
  | 0, acc => acc
  | n + 1, acc => powMod a e m n (if bit e n then acc * acc % m * a % m else acc * acc % m)

/-- ECDSA verification of a digest under a public key (x, y) with a signature (r, s). -/
def ecdsaVerify (x y r s e : Nat) : Bool :=
  if x < p256P ∧ y < p256P ∧ y * y % p256P = (fsub (x * x * x) (3 * x) + p256B) % p256P ∧ 1 ≤ r ∧ r < p256N ∧ 1 ≤ s ∧ s < p256N then
    let w := powMod s (p256N - 2) p256N 256 1
    let g : EcPoint := ⟨p256Gx, p256Gy, 1⟩
    let q : EcPoint := ⟨x, y, 1⟩
    let t := ecSum (e * w % p256N) (r * w % p256N) g q (g.add q) 256 EcPoint.inf
    if t.z = 0 then false
    else
      let i := powMod t.z (p256P - 3) p256P 256 1
      decide (t.x * i % p256P % p256N = r)
  else false

/-- A signature of 64 bytes, r then s, under a key of 64 bytes, x then y, each little-endian (R7; DEDUCED). -/
def sigOk (key : BitVec 512) (sig : Nat) (digest : Nat) : Bool :=
  ecdsaVerify (bits key.toNat 0 256) (bits key.toNat 256 256) (bits sig 0 256) (bits sig 256 256) digest

end Sys2Proof.Machine
end

