-- ==== Sys2Proof/Machine/Mailbox.lean ====
section
/-! DEFINITION. The PCI Express port and the mailboxes: link, function resets, bank writes, doorbells, the completion
ring's head, coalescing and held completions (R520 to R534, R554, R558, R561, R562, R663). -/

namespace Sys2Proof.Machine

open Sys2Proof

/-! ## Banks (R528 to R531) -/

/-- The banks of an enabled mailbox open once the module has left BOOT: the fill bank when it holds no untaken
descriptor. -/
def State.openBank (s : State) (f : Nat) : State :=
  let m := s.mailbox f
  if m.enable && decide (s.mode ≠ .boot) && !m.fillOpen && (if m.fill then m.pendB else m.pendA).isEmpty then
    s.setMailbox f { m with fillOpen := true }
  else s

/-- Every mailbox, as the module leaves BOOT. -/
def State.openBanks (s : State) : State := (List.range 16).foldl (fun (s : State) f => s.openBank f) s

/-- A doorbell or a bank write is refused: it is counted, and a cause is raised. -/
def State.refuseMb (s : State) (f : Nat) (k : Cause) : State :=
  let m := s.mailbox f
  (s.setMailbox f { m with refused := min (m.refused + 1) 0xFFFF }).raise k f { fn := f }

/-- The slots of a bank: A or B. -/
def Mailbox.bank (m : Mailbox) (b : Bool) : Tab (BitVec 512) := if b then m.bankB else m.bankA

/-- Key of a word of a bank among the words marked bad. -/
def badKey (b : Bool) (slot word : Nat) : Nat := b2n b * 512 + slot * 8 + word

/-- A whole word written into a bank; one of a poisoned TLP only marks its word. -/
def Mailbox.putWord (m : Mailbox) (b : Bool) (w v : Nat) (poisoned : Bool) : Mailbox :=
  let slot := w / 8
  let key := badKey b slot (w % 8)
  if poisoned then { m with bad := if m.bad.contains key then m.bad else key :: m.bad }
  else
    let t := m.bank b
    let t := t.put slot (BitVec.ofNat 512 (setBits (t.getD slot 0).toNat (64 * (w % 8)) 64 v))
    let m := { m with bad := m.bad.filter (fun x => decide (x ≠ key)) }
    if b then { m with bankB := t } else { m with bankA := t }

/-- A host write into the banks of a mailbox. -/
def mbBankWrite (f off : Nat) (data : List Byte) (poisoned : Bool) (s : State) : State :=
  if 16 ≤ f ∨ 0x2000 ≤ off then s
  else
    let s := if poisoned then (s.satF (pxErr 2) 1).raise kPxPoisonedRx (0x100 + f) { fn := f } else s
    let m := s.mailbox f
    let b := decide (0x1000 ≤ off)
    if off % 8 = 0 ∧ data.length % 8 = 0 ∧ 0 < data.length ∧ off % 0x1000 + data.length ≤ 0x1000 ∧ m.fillOpen = true ∧ m.fill = b then
      s.setMailbox f ((List.range (data.length / 8)).foldl (fun (m : Mailbox) i =>
        m.putWord b (off % 0x1000 / 8 + i) (leNat ((data.drop (8 * i)).take 8)) poisoned) m)
    else s.refuseMb f kWhBankWriteDropped

def execMbBankWrite (fn off : Nat) (data : List Byte) (poisoned : Bool) (s : State) : Host.Outcome State Fault Refusal :=
  .next (mbBankWrite fn off data poisoned s)

/-- END stands in the last slot of a batch and in no lower one (R529). -/
def Mailbox.batchOk (m : Mailbox) (n : Nat) : Bool :=
  let t := m.bank m.fill
  decide (1 ≤ n ∧ n ≤ 64) && dEnd (t.getD (n - 1) 0) && (List.range (n - 1)).all (fun i => !dEnd (t.getD i 0))

/-- The fill bank is committed with `n` descriptors; the other bank is the fill bank when it holds none (R530). -/
def Mailbox.commit (m : Mailbox) (n : Nat) : Mailbox :=
  let l := List.range n
  if m.fill then
    { m with pendB := l, bFirst := m.pendA.isEmpty, fill := !m.pendA.isEmpty, fillOpen := m.pendA.isEmpty }
  else
    { m with pendA := l, bFirst := !m.pendB.isEmpty, fill := m.pendB.isEmpty, fillOpen := m.pendB.isEmpty }

def mbDoorbell (f : Nat) (value : W64) (s : State) : State :=
  if 16 ≤ f then s
  else
    let m := s.mailbox f
    let n := bits value.toNat 0 7
    if !m.fillOpen || !m.enable || decide (s.mode = .boot) then s.refuseMb f kWhDoorbellRefused
    else if !m.batchOk n then s.raise kWhBatchBad f { fn := f }
    else s.setMailbox f (m.commit n)

def execMbDoorbell (fn : Nat) (value : BitVec 64) (s : State) : Host.Outcome State Fault Refusal := .next (mbDoorbell fn value s)

/-! ## The ring (R533, R534, R562) -/

/-- HEAD moves, unless it would pass POSTED; entries that it frees let token records go on (R553). -/
def mbCqHead (f : Nat) (value : W64) (s : State) : State :=
  if 16 ≤ f then s
  else
    let m := s.mailbox f
    let head : W32 := BitVec.ofNat 32 value.toNat
    if (m.posted - m.head).toNat < (head - m.head).toNat then s
    else (s.setMailbox f { m with head := head }).postWaiting f

def execMbCqHead (fn : Nat) (value : BitVec 64) (s : State) : Host.Outcome State Fault Refusal := .next (mbCqHead fn value s)

def coalesceTimer (f : Nat) (s : State) : State :=
  let m := s.mailbox f
  if 0 < m.unsignalled ∧ m.oldest + nsU (1000 * m.coalesceUs) ≤ s.now then s.signal f else s

def execCoalesceTimer (fn : Nat) (s : State) : Host.Outcome State Fault Refusal := .next (coalesceTimer fn s)

/-- A completion write to host memory fails, or the held completions go out. -/
def cqWriteRetry (f : Nat) (ok : Bool) (s : State) : State :=
  if 16 ≤ f then s
  else
    let m := s.mailbox f
    if ok then
      if m.cqStalled then
        m.heldCq.foldl (fun (s : State) e => s.post f e.1 e.2.1 e.2.2.1 e.2.2.2)
          (s.setMailbox f { m with cqStalled := false, heldCq := [] })
      else s
    else (s.setMailbox f { m with cqStalled := true }).raise kWhCqWriteFailed f { fn := f }

def execCqWriteRetry (fn : Nat) (ok : Bool) (s : State) : Host.Outcome State Fault Refusal := .next (cqWriteRetry fn ok s)

/-! ## Function resets and the link (R522, R523, R525, R663) -/

/-- An MB_ instance returns to its reset values; the completions of its commands in progress will be dropped. -/
def State.resetMailbox (s : State) (f : Nat) : State :=
  let lost := (s.mailbox f).heldCq.length
  let s := (s.setMailbox f Mailbox.reset).setReg (mbFault f) 0
  { s with host := { s.host with
    inProgress := s.host.inProgress.map (fun c => if c.fn = f ∧ c.session = none then { c with drop := true } else c),
    cmdsDropped := min (s.host.cmdsDropped + lost) 0xFFFF } }

/-- FLR of a function. -/
def State.flr (s : State) (f : Nat) : State := (s.resetMailbox f).raise kPxFlr (0x100 + f) { fn := f }

/-- VF Enable is cleared: every VF instance is reset, and no VF is left. -/
def State.clearVfs (s : State) : State :=
  let n := s.host.numVfs
  let s := (List.range 15).foldl (fun (s : State) i => if i < n then s.flr (i + 1) else s.resetMailbox (i + 1)) s
  { s with host := { s.host with numVfs := 0 } }

def flrVf (f : Nat) (s : State) : State := if 1 ≤ f ∧ f ≤ s.host.numVfs ∧ f ≤ 15 then s.flr f else s

def execFlrVf (f : Nat) (s : State) : Host.Outcome State Fault Refusal := .next (flrVf f s)

def flrPf0 (s : State) : State := (s.flr 0).clearVfs

def execFlrPf0 (s : State) : Host.Outcome State Fault Refusal := .next (flrPf0 s)

/-- Hot reset, or loss of the link. -/
def hotReset (s : State) : State :=
  let s := flrPf0 s
  { s with host := { s.host with speed := 0, width := 0, flit := false, l0p := false } }.raise kPxLinkDown 0

def execHotReset (s : State) : Host.Outcome State Fault Refusal := .next (hotReset s)

/-- PERST_N: low holds the port in reset, as a link loss. -/
def perstN (level : Bool) (s : State) : State :=
  if level = s.host.perst then s
  else
    let s := { s with host := { s.host with perst := level } }
    if level then s else hotReset s

def execPerstN (level : Bool) (s : State) : Host.Outcome State Fault Refusal := .next (perstN level s)

def pcieLinkTrained (speed width : Nat) (flit : Bool) (s : State) : State :=
  if s.host.perst && decide (1 ≤ speed ∧ speed ≤ 7 ∧ (width = 1 ∨ width = 2 ∨ width = 4 ∨ width = 8)) then
    let s := { s with host := { s.host with speed := speed, width := width, flit := flit, l0p := false } }
    if speed < 7 ∨ width < 8 then s.raise kPxSpeedReduced 0 else s
  else s

def execPcieLinkTrained (speed width : Nat) (flit : Bool) (s : State) : Host.Outcome State Fault Refusal :=
  .next (pcieLinkTrained speed width flit s)

/-- Host software writes VF Enable and NumVFs. -/
def vfEnable (enable : Bool) (n : Nat) (s : State) : State :=
  if enable then (if n ≤ 15 then { s with host := { s.host with numVfs := n } } else s) else s.clearVfs

def execVfEnable (enable : Bool) (numVfs : Nat) (s : State) : Host.Outcome State Fault Refusal := .next (vfEnable enable numVfs s)

/-- The link enters or leaves L0p. -/
def l0p (entered : Bool) (width : Nat) (s : State) : State :=
  if s.host.speed = 0 ∨ ¬(width = 1 ∨ width = 2 ∨ width = 4 ∨ width = 8) then s
  else { s with host := { s.host with l0p := entered, width := width } }

def execL0p (entered : Bool) (width : Nat) (s : State) : Host.Outcome State Fault Refusal := .next (l0p entered width s)

/-- A read of host memory for a command times out, and ends it (R521): the image commands read through events; every other
read is made as its command starts. -/
def hostReadTimeout (f : Nat) (tag : W32) (s : State) : State :=
  let s := s.satF (pxErr 3) 1
  match s.host.inProgress.find? (fun c => decide (c.fn = f ∧ c.session = none ∧ dTag c.d = tag) && (!c.started || imageOp c)) with
  | some c =>
    let s := s.failCmd c kCmHostReadFailed c.fn c.part
    if imageOp c && c.started then s.releaseImage c.part (dfld c.d 24 0 44) else s
  | none => s

def execHostReadTimeout (fn : Nat) (tag : BitVec 32) (s : State) : Host.Outcome State Fault Refusal := .next (hostReadTimeout fn tag s)

end Sys2Proof.Machine
end

