-- ==== Sys2Proof/Machine/Power.lean ====
section
/-! DEFINITION. Operating points, droop, the power cap, sensors and their responses, the heartbeat watch, escalation and
productive time (R578, R603 to R612, R623 to R629, R635 to R637). -/

namespace Sys2Proof.Machine

open Sys2Proof

/-! ## Sensors (R578, R592, R612, R661) -/

def State.sensor (s : State) (i : Nat) : Sensor := s.grotto.sensors.getD i Sensor.reset

/-- Limits of a temperature sensor in 1/16 °C: WARN and CRIT (R574, R578, R674). -/
def State.tempLimits (s : State) (i : Nat) : Int × Int :=
  if i < 8 then (16 * (s.grotto.slate.tempWarn : Int), 16 * (s.grotto.slate.tempCrit : Int))
  else if i < 20 then (16 * 85, 16 * 95)
  else if i = 20 then (16 * 45, 16 * 50)
  else (16 * 60, 16 * 65)

/-- A value lies beyond the WARN (`crit` false) or CRIT limit of a sensor; with `held`, beyond its hysteresis point: 2 °C
below the limit, 1 % inside an electrical one.  The one limit of sensors 22 and 24 is taken as CRIT (DEDUCED). -/
def State.beyond (s : State) (i : Nat) (v : W32) (crit held : Bool) : Bool :=
  if i = 23 then false
  else if i = 22 then crit && decide (v.toNat < 40000 + 400 * b2n held ∨ 60000 - 600 * b2n held < v.toNat)
  else if i = 24 then crit && decide (2100000 - 21000 * b2n held < v.toNat)
  else
    let l := s.tempLimits i
    decide ((if crit then l.2 else l.1) - 32 * (b2n held : Nat) < v.toInt)

/-- Terrace d or base die d is held beyond WARN, or beyond CRIT. -/
def State.dieWarn (s : State) (d : Nat) : Bool := (s.sensor d).warn || (s.sensor (4 + d)).warn
def State.dieCrit (s : State) (d : Nat) : Bool := (s.sensor d).crit || (s.sensor (4 + d)).crit

/-! ## TARGET and G (R604, R608, R612) -/

/-- TARGET of a terrace: its CEILING lowered by the cap hold, to one below CEILING by a thermal WARN, and to OPP 0 by a
thermal CRIT; the lowest holds. -/
def State.target (s : State) (d : Nat) : Nat :=
  let t := s.terrace d
  if s.dieCrit d then 0
  else if s.dieWarn d then min (t.ceiling - t.capHold) (t.ceiling - 1)
  else t.ceiling - t.capHold

/-- Gate duty in force: the highest of the cap loop's and those of R612. -/
def State.gate16 (s : State) (d : Nat) : Nat :=
  let all := if (s.sensor 21).crit || (s.sensor 22).crit then 8 else 0
  let hbm := if (s.sensor (8 + 2 * d)).crit || (s.sensor (9 + 2 * d)).crit then 8 else 0
  max (s.terrace d).g (max (if s.dieCrit d then 15 else 0) (max all hbm))

/-- Boot has been released (R613). -/
def State.booted (s : State) : Bool := decide (s.grotto.stage = 3)

/-! ## `opp.set` and the sequencer (R604, R605, R636, R637) -/

/-- RUNNING of every terrace, two bits each. -/
def State.runningWord (s : State) : W64 :=
  BitVec.ofNat 64 (((List.range 4).map (fun d => (s.terrace d).running * 4 ^ d)).sum)

/-- Every named terrace runs at its TARGET. -/
def State.atTarget (s : State) (mask : Nat) : Bool :=
  (List.range 4).all (fun d => !bit mask d || decide ((s.terrace d).running = s.target d))

/-- Complete the `opp.set` commands whose terraces have reached their TARGET. -/
def State.oppSettle (s : State) : State :=
  (s.host.inProgress.filter (fun c => decide (dOpcode c.d = 0x0902) && c.started)).foldl (fun (s : State) c =>
    if s.atTarget (dfld c.d 17 0 4) then s.finish c 0 s.runningWord else s) s

/-- The sequencer completes a step of one OPP; a divider change waits while the terrace is stretched (R637). -/
def oppStep (d : Nat) (s : State) : State :=
  let t := s.terrace d
  if 4 ≤ d ∨ s.booted = false ∨ t.stretch.isSome = true ∨ s.pwr.held = true then s
  else if t.running < s.target d then (s.setTerrace d { t with running := t.running + 1 }).oppSettle
  else if s.target d < t.running then (s.setTerrace d { t with running := t.running - 1 }).oppSettle
  else s

def execOppStep (terrace : Nat) (s : State) : Host.Outcome State Fault Refusal := .next (oppStep terrace s)

def oppSetGo (s : State) (c : Cmd) : Reply :=
  let d := c.d
  let mask := dfld d 17 0 4
  let opp := dfld d 18 0 2
  if mask = 0 ∨ dRestZero d [(17, 0, 4), (18, 0, 2)] = false then badOperand c
  else if bit s.grotto.slate.oppAllowed opp = false then .fail kPwOppNotAllowed 0xFFF
  else
    let s := (List.range 4).foldl (fun (s : State) t =>
      if bit mask t then s.setTerrace t { s.terrace t with ceiling := opp } else s) s
    if s.atTarget mask then .ok s s.runningWord else .wait s

def oppSet (fn : Nat) (d : BitVec 512) (s : State) : State := s.runWcp pfNone fn d oppSetGo

def execOppSet (fn : Nat) (d : BitVec 512) (s : State) : Host.Outcome State Fault Refusal := .next (oppSet fn d s)

/-! ## Droop (R606, R607, R636) -/

def droopConfigGo (s : State) (c : Cmd) : Reply :=
  let d := c.d
  let mv := dfld d 20 0 16
  let ns := dfld d 22 0 16
  if mv < 10 ∨ 150 < mv ∨ ns < 1000 ∨ dRestZero d [(17, 0, 4), (20, 0, 32)] = false then badOperand c
  else .ok ((List.range 4).foldl (fun (s : State) t =>
    if bit (dfld d 17 0 4) t then (s.setF (ckThreshold t) mv).setF (ckHoldNs t) ns else s) s) 0

def droopConfig (fn : Nat) (d : BitVec 512) (s : State) : State := s.runWcp pfNone fn d droopConfigGo

def execDroopConfig (fn : Nat) (d : BitVec 512) (s : State) : Host.Outcome State Fault Refusal := .next (droopConfig fn d s)

/-- A sensor of a terrace reads below the threshold; a sag during a stretch is part of it. -/
def droop (d : Nat) (s : State) : State :=
  let t := s.terrace d
  if 4 ≤ d ∨ t.stretch.isSome = true then s
  else
    let s := (s.setTerrace d { t with stretch := some s.now }).addF (ckDroopEvents d) 1
    s.raiseLimited (kPwDroop.flint d).toNat kPwDroop d

def execDroop (terrace : Nat) (s : State) : Host.Outcome State Fault Refusal := .next (droop terrace s)

/-- Every sensor reads 10 mV above the threshold; the stretch ends when HOLD_NS have passed as well. -/
def stretchEnd (d : Nat) (s : State) : State :=
  let t := s.terrace d
  match t.stretch with
  | some t0 => if d < 4 ∧ t0 + nsU (s.getF (ckHoldNs d)) ≤ s.now then s.setTerrace d { t with stretch := none } else s
  | none => s

def execStretchEnd (terrace : Nat) (s : State) : Host.Outcome State Fault Refusal := .next (stretchEnd terrace s)

/-! ## The power cap (R609 to R611, R636) -/

/-- POWER_CAPPED, at most once in each 1 s window. -/
def State.powerCapped (s : State) : State := s.raiseLimited (kPwPowerCapped.flint 0xFFF).toNat kPwPowerCapped 0xFFF

/-- A terrace after one loop at mean input power `p` mW under a cap of `cap` W (R609). -/
def Terrace.capLoop (t : Terrace) (p cap : Nat) : Terrace :=
  let c := 1000 * cap
  let g := if c < p then min 15 (t.g + ((p - c) * 50 + c - 1) / c)
    else if 100 * p < 95 * c ∧ 0 < t.g then t.g - 1 else t.g
  let hi := if 8 ≤ g then t.highLoops + 1 else 0
  let held := decide (10 ≤ hi)
  let hold := if held then min 3 (t.capHold + 1) else t.capHold
  let g := if held then 0 else g
  let lo := if 0 < hold ∧ g = 0 ∧ 10 * p < 9 * c then t.lowLoops + 1 else 0
  { t with g := g, highLoops := if held then 0 else hi, capHold := if 100 ≤ lo then hold - 1 else hold,
           lowLoops := if 100 ≤ lo then 0 else lo }

/-- Grotto's loop, once every millisecond of TB after boot is released (R615); not while its firmware restarts (R634). -/
def powerCapLoop (p : Nat) (s : State) : State :=
  if s.booted = false ∨ s.grotto.restart.isSome = true then s
  else
    let s : State := match s.pwr.capNext with
      | some w => { s with pwr := { s.pwr with cap := w, capNext := none } }
      | none => s
    let s : State := (s.host.inProgress.filter (fun c => decide (dOpcode c.d = 0x0901) && c.started)).foldl
      (fun (s : State) c => s.finish c 0 (BitVec.ofNat 64 s.pwr.cap)) s
    let rose := (List.range 4).any (fun d => decide ((s.terrace d).g = 0 ∧ 0 < ((s.terrace d).capLoop p s.pwr.cap).g))
    let s := { s with clk := { s.clk with terr := s.clk.terr.map (fun t => t.capLoop p s.pwr.cap) } }
    (if rose then s.powerCapped else s).oppSettle

def execPowerCapLoop (meanMw : Nat) (s : State) : Host.Outcome State Fault Refusal := .next (powerCapLoop meanMw s)

/-- The input monitor's mean over 100 µs (R610), from stage 4 of power-up on (R615). -/
def inputMonitor (p : Nat) (s : State) : State :=
  if p ≤ 2100000 ∨ s.grotto.powerStage < 4 then s
  else
    let rose := (List.range 4).any (fun d => decide ((s.terrace d).g = 0))
    let s := { s with clk := { s.clk with terr := s.clk.terr.map (fun (t : Terrace) => { t with g := max t.g 8 }) } }
    if rose then s.powerCapped else s

def execInputMonitor (meanMw : Nat) (s : State) : Host.Outcome State Fault Refusal := .next (inputMonitor meanMw s)

/-- `power.cap_set`: CAP changes at the next loop, which completes the command. -/
def powerCapSetGo (s : State) (c : Cmd) : Reply :=
  let w := dfld c.d 24 0 32
  if w < 400 ∨ 2100 < w ∨ dRestZero c.d [(24, 0, 32)] = false then badOperand c
  else .wait { s with pwr := { s.pwr with capNext := some w } }

def powerCapSet (fn : Nat) (d : BitVec 512) (s : State) : State := s.runWcp pfNone fn d powerCapSetGo

def execPowerCapSet (fn : Nat) (d : BitVec 512) (s : State) : Host.Outcome State Fault Refusal := .next (powerCapSet fn d s)

/-! ## The sensor sample (R337, R578, R612) -/

/-- Whole degrees of a value in 1/16 °C, 0 to 255 (R362, R369). -/
def degrees (v : W32) : Nat := min 255 (v.toInt / 16).toNat

/-- One sensor sampled: its value, its crossings and what they raise, and the status fields that show it. -/
def State.sampleOne (s : State) (i : Nat) (v : W32) : State :=
  let o := s.sensor i
  let w := s.beyond i v false o.warn
  let c := s.beyond i v true o.crit
  let since := if s.beyond i v true false then (match o.since with | some t => some t | none => some s.now) else none
  let n : Sensor := { value := v, valid := true, warn := w, crit := c, since := since }
  let s := { s with grotto := { s.grotto with sensors := s.grotto.sensors.put i n } }
  let s := if c && !o.crit then s.raise kGrSensorCrit i else if w && !o.warn then s.raise kGrSensorWarn i else s
  if 8 ≤ i ∧ i < 16 then
    let s := (s.setF (hbTemp (i - 8)) (degrees v)).setF (hbHotBit (i - 8)) (b2n w)
    if w && !o.warn then s.raise kHbHot (i - 8) else s
  else if 16 ≤ i ∧ i < 20 then s.setF (ddTemp (i - 16)) (degrees v)
  else s

/-- A terrace's sensors make the module withdraw: 1 s above CRIT without a break, or more than 10 °C above it (R612). -/
def State.dieTrip (s : State) (d : Nat) : Bool :=
  [d, 4 + d].any (fun i =>
    let x := s.sensor i
    (match x.since with | some t => decide (t + nsU 1000000000 ≤ s.now) | none => false) ||
      (x.valid && decide (16 * (s.grotto.slate.tempCrit : Int) + 160 < x.value.toInt)))

/-- The coolant outlet makes it withdraw: 10 s above its critical limit. -/
def State.coolantTrip (s : State) : Bool :=
  match (s.sensor 21).since with
  | some t => decide (t + nsU 10000000000 ≤ s.now)
  | none => false

/-- Withdraw when a trip condition holds (R612, R629). -/
def State.checkTrip (s : State) : State :=
  if s.mode = .withdrawn ∨ s.pwr.withdrawing ≠ 0 then s
  else match (List.range 4).find? (fun d => s.dieTrip d) with
    | some d => s.withdraw 2 (kPwThermalTrip.flint d)
    | none => if s.coolantTrip then s.withdraw 3 (kPwThermalTrip.flint 0xFFF) else s

/-- Grotto samples every sensor, from stage 4 of power-up on (R615), except while its firmware restarts (R634).  A sensor
without a value, or of a connector that has not trained, is absent. -/
def sensorSample (values : List (Nat × W32)) (s : State) : State :=
  if s.grotto.powerStage < 4 ∨ s.grotto.stage = 4 ∨ s.grotto.restart.isSome = true then s
  else
    let warned := (List.range 4).map s.dieWarn
    let supply := (s.sensor 22).crit
    let s := (List.range 25).foldl (fun (s : State) i =>
      match Tab.at? values i with
      | some v => if 16 ≤ i ∧ i < 20 ∧ s.getF (ddTrained (i - 16)) = 0 then
          { s with grotto := { s.grotto with sensors := s.grotto.sensors.del i } } else s.sampleOne i v
      | none => { s with grotto := { s.grotto with sensors := s.grotto.sensors.del i } }) s
    let s := (List.range 4).foldl (fun (s : State) d =>
      if s.dieWarn d && !(warned.getD d false) then s.raise kPwThermalHold d else s) s
    let s := if (s.sensor 22).crit && !supply then s.raise kPwSupplyRange 0xFFF else s
    s.checkTrip.oppSettle

def execSensorSample (values : List (Nat × BitVec 32)) (s : State) : Host.Outcome State Fault Refusal :=
  .next (sensorSample values s)

/-! ## The heartbeat watch (R623 to R626) -/

/-- WH_HEARTBEAT.COUNT advances; the first advance starts the watch (R624). -/
def heartbeat (s : State) : State :=
  if s.grotto.stage < 2 ∨ 3 < s.grotto.stage ∨ s.pwr.held = true then s
  else
    let h := { s.host with heartbeat := s.host.heartbeat + 1 }
    if s.watch.running then { s with host := h }
    else { s with host := h, watch := { running := true, misses := 0, seen := s.host.heartbeat.toNat, missStart := 0 } }

def execHeartbeat (s : State) : Host.Outcome State Fault Refusal := .next (heartbeat s)

/-- Time lost since `t0`, in ns, up to now (R635). -/
def State.loseSince (s : State) (t0 : Nat) : State :=
  let n := s.tbNs - t0
  { s with pwr := { s.pwr with ptLost := s.pwr.ptLost + n, today := { s.pwr.today with lost := s.pwr.today.lost + n } } }

/-- A hang, stamped `t` ns (R626, R628). -/
def State.hang (s : State) (t : Nat) : State :=
  let s := (s.satF (pwResets 3) 1).loseSince s.watch.missStart
  let s := { s with watch := { s.watch with running := false, misses := 0 }, pwr := { s.pwr with recovery := none } }
  if s.grotto.slate.holdOnHang then
    let s := { s with pwr := { s.pwr with held := true } }.raise kPwHangHeld 0xFFF
    let (s, esc) := s.countEsc t
    if esc then s.withdraw 1 (kPwEscalated.flint 0xFFF) else s
  else
    let code := match s.pwr.wellheadLast with | some c => c | none => kPwHang.flint 0xFFF
    let s := { s with pwr := { s.pwr with kept := some code } }.raise kPwHang 0xFFF
    let (s, esc) := s.countEsc t
    let s := { s with pwr := { s.pwr with resetting := none, cleared := false } }
    if esc then s.withdraw 1 (kPwEscalated.flint 0xFFF) else s.triggerReset (kPwHang.flint 0xFFF)

/-- Grotto checks a slot of 250 µs at its end: the fourth consecutive miss is a hang.  No slot is checked while the watch
does not run, while HELD, or while Grotto's firmware restarts. -/
def heartbeatSlotCheck (s : State) : State :=
  if s.watch.running = false ∨ s.pwr.held = true ∨ s.grotto.restart.isSome = true ∨
      (s.pwr.resetting.isSome = true ∧ s.pwr.cleared = false) then s
  else if s.host.heartbeat.toNat ≠ s.watch.seen then
    { s with watch := { s.watch with misses := 0, seen := s.host.heartbeat.toNat } }
  else
    let t := s.tbNs / 250000 * 250000
    let w := s.watch
    let w := { w with misses := w.misses + 1, missStart := if w.misses = 0 then t - 250000 else w.missStart }
    let s := { s with watch := w }
    if w.misses < 4 then s else s.hang t

def execHeartbeatSlotCheck (s : State) : Host.Outcome State Fault Refusal := .next (heartbeatSlotCheck s)

/-! ## Escalation window and day records (R628, R635) -/

/-- The open window has reached its end. -/
def escalationWindowClose (s : State) : State :=
  match s.pwr.esc with
  | some (t, _) => if t + s.grotto.slate.escWindowS * 1000000000 ≤ s.tbNs then { s with pwr := { s.pwr with esc := none } } else s
  | none => s

def execEscalationWindowClose (s : State) : Host.Outcome State Fault Refusal := .next (escalationWindowClose s)

/-- One day of TB in ns. -/
def dayNs : Nat := 86400000000000

/-- A day of TB has ended: its record closes, and the last 31 stay. -/
def dayRecordClose (s : State) : State :=
  let d := s.pwr.today
  if d.began + dayNs ≤ s.tbNs then
    { s with pwr := { s.pwr with days := keepNewest 31 (s.pwr.days ++ [d]), today := { DayRec.reset with began := d.began + dayNs } } }
  else s

def execDayRecordClose (s : State) : Host.Outcome State Fault Refusal := .next (dayRecordClose s)

/-! ## A clock source fails after start-up (R597) -/

/-- Sources: 0 the crystal, 1 SYSREF, 2 + k one PLL, of the domains ARR0 to ARR3, NOC, HBM, DDR, FLS, FAB and PCIE in
the order of R32.  The domains that it feeds stop: with SYSREF, TB and every link do; with the FAB PLL, every link; with
the PCIE PLL, the PCIe link; with the crystal, every link and the PCIe link. -/
def clockSourceFailed (n : Nat) (s : State) : State :=
  if s.booted = false then s
  else
    let s := { s with clk := { s.clk with failed := if bit s.clk.failed n then s.clk.failed else s.clk.failed + 2 ^ n } }
    if n = 1 then { s with clk := { s.clk with tbRuns := false } }.portsDown
    else
      let s := if n = 0 ∨ n = 10 then s.portsDown else s
      if n = 0 ∨ n = 11 then { s with host := { s.host with speed := 0, width := 0, flit := false, l0p := false } } else s

def execClockSourceFailed (source : Nat) (s : State) : Host.Outcome State Fault Refusal := .next (clockSourceFailed source s)

end Sys2Proof.Machine
end

