-- ==== Sys2Proof/Machine/Firmware.lean ====
section
/-! DEFINITION. The boot NOR flash, the replay-protected record, slates and firmware images (R565, R568 to R577). -/

namespace Sys2Proof.Machine

open Sys2Proof

/-! ## The boot NOR flash (R565) -/

/-- `n` bytes of the NOR flash; erased flash reads 0xFF. -/
def State.norRead (s : State) (a n : Nat) : List Byte := (Memory.readN s.grotto.nor a n).map (fun b => ~~~ b)

def State.norErase (s : State) (a n : Nat) : State :=
  { s with grotto := { s.grotto with nor := Memory.zero s.grotto.nor a n } }

def State.norProgram (s : State) (a : Nat) (bs : List Byte) : State :=
  { s with grotto := { s.grotto with nor := Memory.writeN s.grotto.nor a (bs.map (fun b => ~~~ b)) } }

/-- Base of a slate slot: A 0, B 1. -/
def slateBase (slot : Nat) : Nat := slot * 0x10000

/-- Base and size of a firmware copy: target 0 Grotto, 1 Wellhead; `b` is copy B. -/
def copyBase (target : Nat) (b : Bool) : Nat :=
  if target = 0 then 0x40000 + 0x400000 * b2n b else 0x840000 + 0x1000000 * b2n b

def copySize (target : Nat) : Nat := if target = 0 then 0x400000 else 0x1000000

/-- Number of a copy in `Grotto.factory`. -/
def copyNum (target : Nat) (b : Bool) : Nat := 2 * target + b2n b

/-! ## The replay-protected record (R568) -/

/-- A copy is valid: its HMAC verifies and its RPMC equals the device counter. -/
def Grotto.recordValid (g : Grotto) (r : Record) : Bool := r.authentic && decide (r.rpmc = g.rpmc)

/-- The valid copy. -/
def Grotto.record? (g : Grotto) : Option Record :=
  if g.recordValid g.recordA then some g.recordA else if g.recordValid g.recordB then some g.recordB else none

/-- The record in force. -/
def State.record (s : State) : Record := s.grotto.record?.getD { Record.new with authentic := false }

/-- Update the record: the new one, with the counter's value plus 1, goes into the copy that is not valid, and the counter
is incremented. -/
def State.updRecord (s : State) (f : Record → Record) : State :=
  let g := s.grotto
  let r := { f s.record with rpmc := g.rpmc + 1, authentic := true }
  let g := if g.recordValid g.recordA then { g with recordB := r } else { g with recordA := r }
  { s with grotto := { g with rpmc := g.rpmc + 1 } }

/-- ACTIVE, TRIAL and SVN of a target. -/
def Record.active (r : Record) (target : Nat) : Bool := if target = 0 then r.activeG else r.activeW
def Record.trial (r : Record) (target : Nat) : Bool := if target = 0 then r.trialG else r.trialW
def Record.svn (r : Record) (target : Nat) : Nat := if target = 0 then r.svnG else r.svnW

def Record.setActive (r : Record) (target : Nat) (b : Bool) : Record :=
  if target = 0 then { r with activeG := b } else { r with activeW := b }
def Record.setTrial (r : Record) (target : Nat) (b : Bool) : Record :=
  if target = 0 then { r with trialG := b } else { r with trialW := b }
def Record.setSvn (r : Record) (target n : Nat) : Record :=
  if target = 0 then { r with svnG := n } else { r with svnW := n }

/-! ## Slates (R570 to R572, R574) -/

/-- Little-endian field of bytes. -/
def fieldOf (bs : List Byte) (at' n : Nat) : Nat := leNat ((bs.drop at').take n)

/-- MAGIC, FORMAT and LENGTH are correct, the slate lies within `max` bytes, and the CRC matches (R571). -/
def slateFormOk (bs : List Byte) (max : Nat) : Bool :=
  let len := fieldOf bs 12 4
  if fieldOf bs 0 4 = 0x534C5431 ∧ fieldOf bs 4 2 = 1 ∧ len ≤ 65408 ∧ len % 4 = 0 ∧ 128 + len ≤ max then
    decide (crc32c (bs.take 16 ++ (bs.drop 128).take len) = fieldOf bs 16 4)
  else false

/-- SIGNATURE verifies under the key that SIGNER names; without an owner key, SIGNER 1 names none. -/
def slateSigOk (owner : Option (BitVec 512)) (bs : List Byte) : Bool :=
  let key : Option (BitVec 512) := match fieldOf bs 6 1 with
    | 0 => some Config.kweilatenKey
    | 1 => owner
    | _ => none
  match key with
  | some k => sigOk k (fieldOf bs 32 64) (sha256 (bs.take 32 ++ (bs.drop 128).take (fieldOf bs 12 4)))
  | none => false

/-- The bytes of a slot when it holds a valid slate: header and body. -/
def State.slateIn (s : State) (slot : Nat) : Option (List Byte) :=
  let h := s.norRead (slateBase slot) 128
  if fieldOf h 0 4 = 0x534C5431 ∧ fieldOf h 12 4 ≤ 65408 then
    let bs := h ++ s.norRead (slateBase slot + 128) (fieldOf h 12 4)
    if slateFormOk bs 65536 && slateSigOk s.record.owner bs then some bs else none
  else none

/-- SEQ `x` is newer than `y` (R572). -/
def seqNewer (x y : Nat) : Bool :=
  let d := (x + 2 ^ 32 - y) % 2 ^ 32
  decide (1 ≤ d ∧ d ≤ 2 ^ 31 - 1)

/-- The body records of a slate: KEY and value, in order; a record that runs over the end closes the list. -/
def slateKeys : Nat → List Byte → List (Nat × List Byte)
  | 0, _ => []
  | n + 1, bs =>
    let len := fieldOf bs 2 2
    if bs.length < 4 ∨ bs.length < 4 + len then []
    else (fieldOf bs 0 2, (bs.drop 4).take len) :: slateKeys n (bs.drop (4 + roundUp len 4))

/-- One key applied; `none` when it is unknown or its value out of range (R574). -/
def Slate.apply (x : Slate) (k : Nat × List Byte) : Option Slate :=
  let v := leNat k.2
  let ok := fun (lo hi : Nat) => decide (k.2.length = 4 ∧ lo ≤ v ∧ v ≤ hi)
  match k.1 with
  | 0x0001 => if ok 1 16 then some { x with escCount := v } else none
  | 0x0002 => if ok 60 86400 then some { x with escWindowS := v } else none
  | 0x0003 => if ok 0 1 then some { x with holdOnHang := decide (v = 1) } else none
  | 0x0004 => if ok 400 2100 then some { x with powerCapW := v } else none
  | 0x0005 => if ok 1 15 then some { x with oppAllowed := v } else none
  | 0x0006 => if ok 70 105 then some { x with tempWarn := v } else none
  | 0x0007 => if ok 80 115 then some { x with tempCrit := v } else none
  | 0x0010 => if ok 0 255 then some { x with nodeId := v } else none
  | 0x0011 => if ok 2 255 then some { x with nodeCount := v } else none
  | 0x0012 => if k.2.length = 32 then some { x with mgmtRoot := some (BitVec.ofNat 256 (beNat k.2)) } else none
  | 0x0013 => if ok 100 60000 then some { x with beaconMs := v } else none
  | 0x0020 => if k.2.length = 64 then some { x with ownerKey := some (BitVec.ofNat 512 v) } else none
  | _ => none

/-- The settings of a slate, and whether any key was ignored. -/
def slateSettings (bs : List Byte) : Slate × Bool :=
  let ks := slateKeys (bs.length / 4) (bs.drop 128)
  let r := ks.foldl (fun (r : Slate × Bool) k => match r.1.apply k with
    | some x => (x, r.2)
    | none => (r.1, true)) (Slate.default, false)
  if r.1.tempWarn < r.1.tempCrit then r else ({ r.1 with tempCrit := Slate.default.tempCrit }, true)

/-- The slate selected at boot: 0 A, 1 B, 2 defaults. -/
def State.selectSlot (s : State) : Nat :=
  match s.slateIn 0, s.slateIn 1 with
  | some a, some b => if seqNewer (fieldOf b 8 4) (fieldOf a 8 4) then 1 else 0
  | some _, none => 0
  | none, some _ => 1
  | none, none => 2

/-- Grotto selects the slate, and enrols the owner key that it carries. -/
def State.selectSlate (s : State) : State :=
  let n := s.selectSlot
  let s := if n = 2 then s.raise kGrSlateNone 0xFFF
    else if (s.slateIn (1 - n)).isNone then s.raise kGrSlateInvalid 0xFFF else s
  match (if n = 2 then none else s.slateIn n) with
  | none => { s with grotto := { s.grotto with slateSel := 2, slateSeq := 0, slate := Slate.default, measS := 0 } }
  | some bs =>
    let (x, ignored) := slateSettings bs
    let s := if ignored then s.raise kGrSlateKeyIgnored 0xFFF else s
    let s := { s with grotto := { s.grotto with slateSel := n, slateSeq := fieldOf bs 8 4, slate := x,
                                                measS := BitVec.ofNat 256 (sha256 bs) } }
    if x.ownerKey.isSome ∧ x.ownerKey ≠ s.record.owner then s.updRecord (fun r => { r with owner := x.ownerKey }) else s

/-! ## `slate.write` (R573) -/

/-- The slot that a write goes to: the one that does not hold the selected slate; A when defaults are in force. -/
def State.slateTarget (s : State) : Nat := if s.grotto.slateSel = 0 then 1 else 0

def slateWriteGo (norOk : Bool) (s : State) (c : Cmd) : Reply :=
  let addr := dfld c.d 24 0 64
  let len := dfld c.d 32 0 32
  if len < 128 ∨ 65536 < len ∨ dRestZero c.d [(24, 0, 64), (32, 0, 32)] = false then badOperand c
  else
    let bs := Memory.readN s.mem.host addr len
    if slateFormOk bs len = false then .fail kGrSlateBad 0xFFF
    else if slateSigOk s.record.owner bs = false then .fail kGrSlateSig 0xFFF
    else
      let seq := fieldOf bs 8 4
      if [0, 1].any (fun i => match s.slateIn i with
        | some x => !seqNewer seq (fieldOf x 8 4)
        | none => false) then .fail kGrSlateStale 0xFFF
      else
        let a := slateBase s.slateTarget
        let s := s.norErase a 0x10000
        if norOk then .ok (s.norProgram a (bs.take (128 + fieldOf bs 12 4))) (BitVec.ofNat 64 seq)
        else .failed s kGrNorWriteFail 0xFFF 0

def slateWrite (fn : Nat) (d : BitVec 512) (norOk : Bool) (s : State) : State := s.runWcp pfNone fn d (slateWriteGo norOk)

def execSlateWrite (fn : Nat) (d : BitVec 512) (norOk : Bool) (s : State) : Host.Outcome State Fault Refusal :=
  .next (slateWrite fn d norOk s)

/-! ## Firmware images (R575 to R577) -/

/-- Largest BODY_LEN of a target. -/
def bodyLimit (target : Nat) : Nat := if target = 0 then 0x40000 - 256 else 0x1000000 - 256

/-- The 256-byte header is well formed. -/
def imageFormOk (target : Nat) (h : List Byte) : Bool :=
  decide (fieldOf h 0 4 = 0x46574B31 ∧ fieldOf h 4 1 = target ∧ fieldOf h 5 3 = 0 ∧ fieldOf h 14 2 = 0 ∧
    fieldOf h 16 4 ≤ bodyLimit target ∧ fieldOf h 20 12 = 0 ∧ fieldOf h 128 128 = 0)

/-- The digest matches the body and the signature verifies. -/
def State.imageSigOk (s : State) (target : Nat) (b : Bool) : Bool :=
  let h := s.norRead (copyBase target b) 256
  let body := s.norRead (copyBase target b + 256) (fieldOf h 16 4)
  decide (sha256Bytes body = (h.drop 32).take 32) && sigOk Config.kweilatenKey (fieldOf h 64 64) (sha256 (h.take 64))

/-- SVN and VERSION of a copy. -/
def State.imageSvn (s : State) (target : Nat) (b : Bool) : Nat :=
  if s.grotto.factory.contains (copyNum target b) then Config.factorySvn target
  else fieldOf (s.norRead (copyBase target b) 256) 12 2

def State.imageVersion (s : State) (target : Nat) (b : Bool) : Nat :=
  if s.grotto.factory.contains (copyNum target b) then Config.factoryVersion target
  else fieldOf (s.norRead (copyBase target b) 256) 8 4

/-- Digest of an image for the measurements (R580). -/
def State.imageDigest (s : State) (target : Nat) (b : Bool) : BitVec 256 :=
  if s.grotto.factory.contains (copyNum target b) then Config.factoryDigest target
  else
    let h := s.norRead (copyBase target b) 256
    BitVec.ofNat 256 (sha256 (h ++ s.norRead (copyBase target b + 256) (fieldOf h 16 4)))

/-- The image of a copy verifies (R575). -/
def State.imageOk (s : State) (target : Nat) (b : Bool) : Bool :=
  if s.grotto.factory.contains (copyNum target b) then decide (s.record.svn target ≤ Config.factorySvn target)
  else imageFormOk target (s.norRead (copyBase target b) 256) && s.imageSigOk target b &&
    decide (s.record.svn target ≤ s.imageSvn target b)

/-- The copy in which a verified image of a target is staged. -/
def Grotto.staged (g : Grotto) (target : Nat) : Option Bool := if target = 0 then g.stagedG else g.stagedW

def State.setStaged (s : State) (target : Nat) (b : Option Bool) : State :=
  if target = 0 then { s with grotto := { s.grotto with stagedG := b } } else { s with grotto := { s.grotto with stagedW := b } }

/-- Verify a whole staged image (R576). -/
def State.stageCheck (s : State) (target : Nat) (b : Bool) : Option Cause :=
  if imageFormOk target (s.norRead (copyBase target b) 256) = false then some kGrFwBad
  else if s.imageSigOk target b = false then some kGrFwSig
  else if s.imageSvn target b < s.record.svn target then some kGrFwRollback
  else none

def fwStageGo (norOk : Bool) (s : State) (c : Cmd) : Reply :=
  let d := c.d
  let target := dfld d 17 0 1
  let final := decide (dfld d 17 1 1 = 1)
  let off := dfld d 32 0 32
  let len := dfld d 36 0 32
  if off % 4096 ≠ 0 ∨ len < 256 ∨ 1048576 < len ∨ len % 256 ≠ 0 ∨
      dRestZero d [(17, 0, 2), (24, 0, 64), (32, 0, 32), (36, 0, 32)] = false then badOperand c
  else if s.record.trial target then .fail kGrFwBusy target
  else if copySize target < off + len then .fail kGrFwBad target
  else
    let b := !s.record.active target
    let s := { s with grotto := { s.grotto with factory := s.grotto.factory.filter (fun n => decide (n ≠ copyNum target b)) } }
    let s := if off = 0 then (s.norErase (copyBase target b) (copySize target)).setStaged target none else s
    if norOk = false then .failed s kGrNorWriteFail 0xFFF 0
    else
      let s := s.norProgram (copyBase target b + off) (Memory.readN s.mem.host (dfld d 24 0 64) len)
      if final then
        match s.stageCheck target b with
        | some k => .failed s k target 0
        | none => .ok (s.setStaged target (some b)) (BitVec.ofNat 64 (s.imageVersion target b))
      else .ok s 0

def fwStage (fn : Nat) (d : BitVec 512) (norOk : Bool) (s : State) : State := s.runWcp pfNone fn d (fwStageGo norOk)

def execFwStage (fn : Nat) (d : BitVec 512) (norOk : Bool) (s : State) : Host.Outcome State Fault Refusal :=
  .next (fwStage fn d norOk s)

/-- `fw.activate`: the staged copy becomes ACTIVE, on trial. -/
def fwActivateGo (s : State) (c : Cmd) : Reply :=
  let target := dfld c.d 17 0 1
  if dRestZero c.d [(17, 0, 2)] = false then badOperand c
  else match s.grotto.staged target with
    | none => .fail kGrFwBad target
    | some b =>
      let s := s.updRecord (fun r => (r.setActive target b).setTrial target true)
      if target = 0 then .ok s 0
      else
        let s := { s with pwr := { s.pwr with reload := true } }
        .ok (if dfld c.d 17 1 1 = 1 then s.triggerReset 0 else s) 0

def fwActivate (fn : Nat) (d : BitVec 512) (s : State) : State := s.runWcp pfNone fn d fwActivateGo

def execFwActivate (fn : Nat) (d : BitVec 512) (s : State) : Host.Outcome State Fault Refusal := .next (fwActivate fn d s)

/-! ## Trials (R577) -/

/-- A trial succeeds. -/
def State.trialOk (s : State) (target : Nat) : State :=
  let r := s.record
  if r.trial target then
    let n := s.imageSvn target (r.active target)
    (s.updRecord (fun r => (r.setTrial target false).setSvn target (max (r.svn target) n))).raise kGrFwCommitted target
  else s

/-- A trial fails: ACTIVE returns to the other copy. -/
def State.trialFail (s : State) (target : Nat) : State :=
  if s.record.trial target then
    (s.updRecord (fun r => (r.setTrial target false).setActive target (!r.active target))).raise kGrFwFallback target
  else s

/-- Verify the image of ACTIVE, or while TRIAL is set and it fails, that of the other copy (R569); `none` when no image
runs. -/
def State.bootImage (s : State) (target : Nat) : State × Option Bool :=
  let r := s.record
  let a := r.active target
  if s.imageOk target a then (s, some a)
  else if r.trial target then
    let s := s.trialFail target
    (s, if s.imageOk target (!a) then some (!a) else none)
  else (s, none)

/-- A copy of Grotto's or the Wellhead's firmware runs. -/
def State.runCopy (s : State) (target : Nat) (b : Bool) : State :=
  let v := s.imageVersion target b
  let m := s.imageDigest target b
  if target = 0 then { s with grotto := { s.grotto with grottoSlot := b, grottoVer := v, measG := m } }
  else { s with grotto := { s.grotto with wellheadSlot := b, wellheadVer := v, measW := m } }

/-- The Wellhead's trial ends 1 s after READY or the resumption of service: the heartbeat has advanced for that second, or it
did not start within it, and the other copy runs. -/
def fwTrialTimer (advanced : Bool) (s : State) : State :=
  if s.record.trialW = false ∨ s.booted = false ∨ s.grotto.wellheadSlot ≠ s.record.activeW then s
  else if advanced then s.trialOk 1
  else
    let s := s.trialFail 1
    if s.imageOk 1 s.record.activeW then
      { s.runCopy 1 s.record.activeW with watch := Watch.reset }
    else s

def execFwTrialTimer (advanced : Bool) (s : State) : Host.Outcome State Fault Refusal := .next (fwTrialTimer advanced s)

end Sys2Proof.Machine
end

