-- ==== Sys2Proof/Machine/Grotto.lean ====
section
/-! DEFINITION. Power-on, the boot stages, the input switch, the event log's NOR copy and the management port
(R566 to R569, R579, R582 to R589, R593, R595, R596, R613 to R617, R661, R662, R667). -/

namespace Sys2Proof.Machine

open Sys2Proof

/-! ## Pins of CN9 (R661) -/

/-- MOD_READY is released. -/
def State.modReady (s : State) : Bool := decide (s.mode = .ready ∨ s.mode = .service)

/-- The value of a sampled sensor lies beyond its WARN or CRIT limit (R592). -/
def State.sensorBeyond (s : State) (i : Nat) (crit : Bool) : Bool :=
  (s.sensor i).valid && (s.beyond i (s.sensor i).value crit false || (!crit && decide (i = 22 ∨ i = 24) && s.beyond i (s.sensor i).value true false))

/-- ALERT_N is low. -/
def State.alert (s : State) : Bool :=
  decide (s.mode = .withdrawn ∨ s.grotto.stage = 4) || (List.range 25).any (fun i => s.sensorBeyond i true)

/-- ID_LED_N is low. -/
def State.idLed (s : State) : Bool := s.grotto.identify.isSome || s.grotto.ledUntil.isSome

/-! ## Module power-on reset and the input switch (R616, R617, R662, R667) -/

/-- The value of a stored register after power-on: FS_STATUS and the FS_BLOCKS counts stay (R369), and RETIRED and REPAIRS
of HB_STATUS, which the controllers apply again from their records (R340). -/
def State.keptReg (s : State) (a : Nat) : Nat :=
  if a = fsStatus ∨ (List.range 4).any (fun d => decide (a = fsReg d 0x10)) then s.reg a
  else if (List.range 8).any (fun n => decide (a = hbReg n 8)) then bits (s.reg a) 11 32 * 2 ^ 11
  else regReset a

/-- The memory side after power-on: flash and the poison that Shale and the record areas keep stay; a page retired without a
record is in service again (R345). -/
def Mem.powerOn (m : Mem) : Mem :=
  let kept := m.poison.filter (fun x => x.2)
  { Mem.reset with flash := m.flash, host := m.host, poison := kept,
                   retired := m.retired.filter (fun k => (Tab.at? kept k).isSome) }

/-- Grotto after power-on: what the boot NOR flash holds stays. -/
def Grotto.powerOn (g : Grotto) : Grotto :=
  { Grotto.reset with nor := g.nor, recordA := g.recordA, recordB := g.recordB, rpmc := g.rpmc, stagedG := g.stagedG,
                      stagedW := g.stagedW, factory := g.factory, norLog := g.norLog, nextSeq := g.nextSeq }

/-- Module power-on reset: everything that is not held in flash is at its reset value, and stage 1 begins. -/
def State.powerOn (s : State) : State :=
  let r := s.regs.keys.foldl (fun (t : State) a => t.setReg a (s.keptReg a)) State.reset
  { State.reset with pending := s.pending, regs := r.regs, mem := s.mem.powerOn, grotto := s.grotto.powerOn,
                     pwr := { Power.reset with days := s.pwr.days }, host := { HostIf.reset with perst := s.host.perst },
                     out := s.out, free := s.free }

/-- The input switch is off: the module stops without any orderly sequence (R616). -/
def State.powerOff (s : State) (tripped : Bool) : State :=
  let s := s.powerOn
  { s with input := { on := false, tripped := tripped, retries := 0 }, grotto := { s.grotto with powerStage := 0 } }

/-- The input rises through 40 V, or MOD_RST_N returns high; not while the switch stays off after an overcurrent. -/
def powerOnReset (s : State) : State := if s.input.tripped then s else s.powerOn

def execPowerOnReset (s : State) : Host.Outcome State Fault Refusal := .next (powerOnReset s)

/-- MOD_RST_N has been low for a time in µs and is high again. -/
def modRstN (lowUs : Nat) (s : State) : State := if lowUs < 10 ∨ s.input.on = false then s else s.powerOn

def execModRstN (lowUs : Nat) (s : State) : Host.Outcome State Fault Refusal := .next (modRstN lowUs s)

/-- VIN falls below 38 V. -/
def vinUndervoltage (s : State) : State := s.powerOff false

def execVinUndervoltage (s : State) : Host.Outcome State Fault Refusal := .next (vinUndervoltage s)

/-- VIN rises above 64 V. -/
def vinOvervoltage (s : State) : State := if s.input.on then s.powerOff false else s

def execVinOvervoltage (s : State) : Host.Outcome State Fault Refusal := .next (vinOvervoltage s)

/-- The input current passes its limit. -/
def overcurrent (s : State) : State := if s.input.on then s.powerOff true else s

def execOvercurrent (s : State) : Host.Outcome State Fault Refusal := .next (overcurrent s)

/-- The switch retries 1 s after a trip; after the third failed retry it stays off until VIN falls below 38 V. -/
def overcurrentRetry (again : Bool) (s : State) : State :=
  if s.input.tripped = false ∨ 3 ≤ s.input.retries then s
  else if again then { s with input := { s.input with retries := s.input.retries + 1 } }
  else s.powerOn

def execOvercurrentRetry (tripsAgain : Bool) (s : State) : Host.Outcome State Fault Refusal := .next (overcurrentRetry tripsAgain s)

/-! ## Boot (R566 to R569, R595, R596, R613 to R615) -/

/-- The power-up sequence reaches a stage. -/
def State.atStage (s : State) (n : Nat) : State :=
  { s with grotto := { s.grotto with powerStage := n, stageSince := s.now } }

/-- Grotto halts in BOOT with a cause. -/
def State.haltBoot (s : State) (k : Cause) (inst : Nat) : State :=
  { s with grotto := { s.grotto with stage := 4 } }.raise k inst

/-- A window of 65,536 oscillator cycles ends with a count of crystal cycles; 16 good ones in a row qualify the crystal. -/
def crystalWindow (count : Nat) (s : State) : State :=
  if s.clk.crystal = true ∨ s.grotto.stage = 4 ∨ ¬(s.grotto.powerStage = 1 ∨ s.grotto.powerStage = 2) then s
  else
    let near := fun (a b n : Nat) => decide (a ≤ b + n ∧ b ≤ a + n)
    let good := near count 65536 2000 && (match s.clk.xtalPrev with | some p => near count p 8 | none => false)
    let n := if good then s.clk.xtalGood + 1 else 0
    let s := { s with clk := { s.clk with xtalGood := n, xtalPrev := some count } }
    if n < 16 then { s with grotto := { s.grotto with powerStage := 2 } }
    else { s with clk := { s.clk with crystal := true } }.atStage 3

def execCrystalWindow (count : Nat) (s : State) : Host.Outcome State Fault Refusal := .next (crystalWindow count s)

/-- 200 ms after power-on reset without a stable crystal. -/
def xtalFail (s : State) : State :=
  if s.clk.crystal = false ∧ (s.grotto.powerStage = 1 ∨ s.grotto.powerStage = 2) ∧ s.grotto.stage = 0 ∧ nsU 200000000 ≤ s.clk.boot then
    s.haltBoot kPwXtalFail 0xFFF
  else s

def execXtalFail (s : State) : Host.Outcome State Fault Refusal := .next (xtalFail s)

/-- The ROM starts a Grotto image: stage 4 of power-up begins. -/
def State.startGrotto (s : State) (b : Option Bool) : State :=
  match b with
  | none => s.haltBoot kGrRomImageNone 0xFFF
  | some b => { s.runCopy 0 b with grotto := { (s.runCopy 0 b).grotto with stage := 1 } }.atStage 4

/-- The ROM reconstructs the root secret, checks the records and verifies the Grotto image. -/
def romBoot (pufOk : Bool) (s : State) : State :=
  if s.grotto.powerStage ≠ 3 ∨ s.grotto.stage ≠ 0 then s
  else if pufOk = false then s.haltBoot kGrPufFail 0xFFF
  else if s.grotto.record?.isNone then s.haltBoot kGrReplayFail 0xFFF
  else
    let (s, b) := s.bootImage 0
    s.startGrotto b

def execRomBoot (pufOk : Bool) (s : State) : Host.Outcome State Fault Refusal := .next (romBoot pufOk s)

/-- The ROM watchdog expires before the Grotto firmware on trial has reached the end of its boot: the other copy boots. -/
def romWatchdog (s : State) : State :=
  if s.record.trialG = true ∧ s.grotto.stage < 3 ∧ 4 ≤ s.grotto.powerStage then
    let s := s.trialFail 0
    s.startGrotto (if s.imageOk 0 s.record.activeG then some s.record.activeG else none)
  else s

def execRomWatchdog (s : State) : Host.Outcome State Fault Refusal := .next (romWatchdog s)

/-- Grotto firmware selects the slate and brings the rails up. -/
def bootRailsUp (s : State) : State :=
  if s.grotto.powerStage ≠ 4 ∨ s.grotto.stage ≠ 1 then s
  else
    let s := s.selectSlate
    let top := ((List.range 4).filter (fun n => bit s.grotto.slate.oppAllowed n)).getLastD 0
    { s with pwr := { s.pwr with cap := s.grotto.slate.powerCapW },
             clk := { s.clk with terr := s.clk.terr.map (fun (t : Terrace) => { t with ceiling := top }) } }.atStage 5

def execBootRailsUp (s : State) : Host.Outcome State Fault Refusal := .next (bootRailsUp s)

/-- The PLLs have locked, the FAB PLL to SYSREF: TB starts. -/
def sysrefLock (s : State) : State :=
  if s.grotto.powerStage ≠ 5 ∨ s.grotto.stage ≠ 1 then s
  else { s with clk := { s.clk with sysrefLock := true, arrLock := 0xF, tbRuns := true } }.atStage 6

def execSysrefLock (s : State) : Host.Outcome State Fault Refusal := .next (sysrefLock s)

/-- One second of stage 5 without SYSREF. -/
def sysrefWait (s : State) : State :=
  if s.grotto.powerStage = 5 ∧ s.grotto.stage = 1 ∧ s.grotto.waitTold = false ∧ s.grotto.stageSince + nsU 1000000000 ≤ s.now then
    { s with grotto := { s.grotto with waitTold := true } }.raise kPwSysrefWait 0xFFF
  else s

def execSysrefWait (s : State) : Host.Outcome State Fault Refusal := .next (sysrefWait s)

/-- A PLL has not locked within 10 ms; the domains are numbered in the order of R32. -/
def pllFail (domain : Nat) (s : State) : State :=
  if s.grotto.powerStage = 5 ∧ s.grotto.stage = 1 ∧ s.grotto.stageSince + nsU 10000000 ≤ s.now then
    s.haltBoot kPwPllFail (if domain < 4 then domain else 0xFFF)
  else s

def execPllFail (domain : Nat) (s : State) : Host.Outcome State Fault Refusal := .next (pllFail domain s)

/-- A DDR5 connector in stage 6 (R341 to R343). -/
def State.trainConn (s : State) (x : Spd) : State :=
  let c := x.conn
  if 4 ≤ c ∨ 4 ≤ x.speed then s
  else
    let s := s.setF (ddPresent c) 1
    if x.supported = false ∨ x.gb < 64 ∨ 256 < x.gb then s.raise kDdUnsupported c
    else if x.trained = false then s.raise kDdTrainFail c
    else
      let bytes := x.gb * 1000000000
      let pages := (if x.ecc then bytes else bytes - bytes / 32) / pageBytes
      let s := (((s.setF (ddTrained c) 1).setF (ddInline c) (b2n !x.ecc)).setF (ddSpeed c) x.speed).setF (ddPages c) pages
      let s := s.setF (ddRecordsFree c) (4096 - s.recordsOf (fun k => keyConn k == some c))
      if x.speed < 3 then s.raise kDdSpeedReduced c else s

/-- Stage 6 ends: each stack has trained or not, and each connector shows what it found.  A stack that fails keeps the module
from READY: the sequence goes no further. -/
def bootTrainingDone (hbm : BitVec 8) (spds : List Spd) (s : State) : State :=
  if s.grotto.powerStage ≠ 6 ∨ s.grotto.stage ≠ 1 then s
  else
    let s := (List.range 8).foldl (fun (s : State) n =>
      if bit hbm.toNat n then s.setF (hbTrained n) 1 else s.raise kHbTrainFail n) s
    let s := spds.foldl (fun (s : State) x => s.trainConn x) s
    s.atStage (if hbm = 0xFF then 7 else 10)

def execBootTrainingDone (hbm : BitVec 8) (spds : List Spd) (s : State) : Host.Outcome State Fault Refusal :=
  .next (bootTrainingDone hbm spds s)

/-- The Wellhead image is verified, loaded and started; when none verifies, the module stays in BOOT. -/
def wellheadStart (s : State) : State :=
  if s.grotto.powerStage ≠ 7 ∨ s.grotto.stage ≠ 1 then s
  else
    let (s, b) := s.bootImage 1
    match b with
    | none => s
    | some b => { s.runCopy 1 b with grotto := { (s.runCopy 1 b).grotto with stage := 2 } }.atStage 8

def execWellheadStart (s : State) : Host.Outcome State Fault Refusal := .next (wellheadStart s)

/-- Boot is released: the module enters READY, the banks of its mailboxes open, and Grotto's own trial has succeeded. -/
def bootRelease (s : State) : State :=
  if s.grotto.powerStage ≠ 8 ∨ s.grotto.stage ≠ 2 then s
  else
    let s := { s with grotto := { s.grotto with stage := 3 } }.atStage 9
    (((s.trialOk 0).setMode .ready).openBanks)

def execBootRelease (s : State) : Host.Outcome State Fault Refusal := .next (bootRelease s)

/-! ## The NOR log (R579) -/

/-- Entries up to SEQ `n` that are not yet in the NOR log are copied to it. -/
def logNorCopy (n : Nat) (s : State) : State :=
  if s.grotto.restart.isSome then s
  else
    let old : Option Nat := (s.grotto.norLog.getLast?).map (fun e => e.seq)
    let new := s.grotto.log.filter (fun e => (match old with | some q => seqNewer e.seq q | none => true) && !seqNewer e.seq n)
    { s with grotto := { s.grotto with norLog := keepNewest 131072 (s.grotto.norLog ++ new) } }

def execLogNorCopy (upTo : Nat) (s : State) : Host.Outcome State Fault Refusal := .next (logNorCopy upTo s)

/-! ## Beacons (R583, R584, R587, R592) -/

/-- A DISCOVER frame: answered by a beacon, at most one per 100 ms. -/
def discover (s : State) : State :=
  if s.portOn = false then s
  else match s.grotto.lastAnswer with
    | some t => if s.now < t + nsU 100000000 then s
      else { s with grotto := { s.grotto with lastAnswer := some s.now } }.sendBeacon
    | none => { s with grotto := { s.grotto with lastAnswer := some s.now } }.sendBeacon

def execDiscover (s : State) : Host.Outcome State Fault Refusal := .next (discover s)

/-- Grotto's firmware runs (R593, R634). -/
def State.grottoRuns (s : State) : Bool := decide (1 ≤ s.grotto.stage ∧ s.grotto.stage ≤ 3) && s.grotto.restart.isNone

def beaconTimer (s : State) : State := if s.grottoRuns then s.sendBeacon else s

def execBeaconTimer (s : State) : Host.Outcome State Fault Refusal := .next (beaconTimer s)

/-- GR_T1S_CTRL.BEACON_NOW is written with 1. -/
def beaconNow (s : State) : State :=
  let s := s.sendBeacon
  { s with grotto := { s.grotto with ledUntil := some (s.now + nsU 10000000000) } }

def execBeaconNow (s : State) : Host.Outcome State Fault Refusal := .next (beaconNow s)

/-- Ten seconds after BEACON_NOW was written. -/
def idLedNExpiry (s : State) : State :=
  match s.grotto.ledUntil with
  | some t => if t ≤ s.now then { s with grotto := { s.grotto with ledUntil := none } } else s
  | none => s

def execIdLedNExpiry (s : State) : Host.Outcome State Fault Refusal := .next (idLedNExpiry s)

/-! ## Identify (R589, R592) -/

/-- A write of GR_T1S_CTRL. -/
def State.writeT1sCtrl (s : State) (v : Nat) : State :=
  let s := s.setF grT1sEnable (bits v 0 1)
  let s := if bit v 1 then beaconNow s else s
  { s with grotto := { s.grotto with identify := if bit v 2 then some 0 else none } }

def identify (value : W64) (s : State) : State := s.writeT1sCtrl value.toNat

def execIdentify (value : BitVec 64) (s : State) : Host.Outcome State Fault Refusal := .next (identify value s)

/-- SECONDS have passed. -/
def identifyExpiry (s : State) : State :=
  match s.grotto.identify with
  | some t => if t ≠ 0 ∧ t ≤ s.now then { s with grotto := { s.grotto with identify := none } } else s
  | none => s

def execIdentifyExpiry (s : State) : Host.Outcome State Fault Refusal := .next (identifyExpiry s)

/-! ## Frames, handshakes and sessions (R584 to R586) -/

/-- A frame is dropped and counted. -/
def t1sFrameDropped (why : FrameDrop) (s : State) : State :=
  if s.portOn = false then s
  else match why with
    | .badFcs => s.satF (grT1sDrop 0) 1
    | .runtOrLong => s.satF (grT1sDrop 1) 1
    | .foreign => s.satF (grT1sDrop 2) 1
    | .beacon => s
    | .unauth => s.satF (grT1sDrop 3) 1

def execT1sFrameDropped (why : FrameDrop) (s : State) : Host.Outcome State Fault Refusal := .next (t1sFrameDropped why s)

/-- A handshake is discarded, with SESSION_FAIL at most once in each 1 s window. -/
def State.failHandshake (s : State) (slot : Nat) : State :=
  ({ s with grotto := { s.grotto with handshakes := s.grotto.handshakes.del slot } }.emit (.handshake slot false)).raiseLimited
    (kGrSessionFail.flint 0xFFF).toNat kGrSessionFail 0xFFF

/-- An SPDM message of session establishment. -/
def spdmHandshake (slot : Nat) (m : HandshakeMsg) (s : State) : State :=
  if s.portOn = false then s
  else if s.grottoRuns = false ∨ 4 ≤ slot then s.satF (grT1sDrop 3) 1
  else match m, s.grotto.handshakes.at? slot with
    | .begin, none =>
      { s with grotto := { s.grotto with handshakes := s.grotto.handshakes.put slot { start := s.now, keyed := false } } }
    | .begin, some _ => s.satF (grT1sDrop 3) 1
    | _, none => s.satF (grT1sDrop 3) 1
    | .keyExchange root, some h =>
      if s.grotto.slate.mgmtRoot = some root then
        { s with grotto := { s.grotto with handshakes := s.grotto.handshakes.put slot { h with keyed := true } } }
      else s.failHandshake slot
    | .finish ok, some h =>
      match (List.range 4).find? (fun n => (s.grotto.sessions.at? n).isNone) with
      | none => { s with grotto := { s.grotto with handshakes := s.grotto.handshakes.del slot } }.satF (grT1sDrop 3) 1
      | some n =>
        if ok && h.keyed then
          { s with grotto := { s.grotto with handshakes := s.grotto.handshakes.del slot,
                                             sessions := s.grotto.sessions.put n s.now } }.emit (.handshake slot true)
        else s.failHandshake slot

def execSpdmHandshake (slot : Nat) (m : HandshakeMsg) (s : State) : Host.Outcome State Fault Refusal := .next (spdmHandshake slot m s)

/-- A handshake has not reached FINISH within 2 s. -/
def sessionFail (slot : Nat) (s : State) : State :=
  match s.grotto.handshakes.at? slot with
  | some h => if h.start + nsU 2000000000 ≤ s.now then s.failHandshake slot else s
  | none => s

def execSessionFail (slot : Nat) (s : State) : Host.Outcome State Fault Refusal := .next (sessionFail slot s)

/-- A session has had no traffic for 60 s. -/
def sessionIdle (n : Nat) (s : State) : State :=
  match s.grotto.sessions.at? n with
  | some t => if t + nsU 60000000000 ≤ s.now then { s with grotto := { s.grotto with sessions := s.grotto.sessions.del n } } else s
  | none => s

def execSessionIdle (session : Nat) (s : State) : Host.Outcome State Fault Refusal := .next (sessionIdle session s)

/-- The port runs PLCA as a follower (R586). -/
def State.plcaFollower (s : State) : Bool :=
  s.portOn && decide (1 ≤ s.grotto.slate.nodeId ∧ s.grotto.slate.nodeId ≤ 254)

/-- A follower has heard no PLCA beacon for 100 ms. -/
def plcaLost (s : State) : State :=
  if s.plcaFollower && !s.grotto.plcaLost then
    { s with grotto := { s.grotto with plcaLost := true, plcaHeard := 0 } }.raise kGrPlcaLost 0xFFF
  else s

def execPlcaLost (s : State) : Host.Outcome State Fault Refusal := .next (plcaLost s)

/-- A PLCA beacon is heard; ten in a row bring the follower back. -/
def plcaBeacon (s : State) : State :=
  if s.plcaFollower && s.grotto.plcaLost then
    if 9 ≤ s.grotto.plcaHeard then { s with grotto := { s.grotto with plcaLost := false, plcaHeard := 0 } }
    else { s with grotto := { s.grotto with plcaHeard := s.grotto.plcaHeard + 1 } }
  else s

def execPlcaBeacon (s : State) : Host.Outcome State Fault Refusal := .next (plcaBeacon s)

/-- An error of Grotto's SRAM cannot be corrected: its firmware restarts, and its sessions end. -/
def sramUncorrected (s : State) : State :=
  if s.grottoRuns then
    let s := (s.satF (grEcc 1) 1).raise kGrSramUncorrected 0xFFF
    { s with grotto := { s.grotto with restart := some s.now, sessions := [], handshakes := [] } }
  else s

def execSramUncorrected (s : State) : Host.Outcome State Fault Refusal := .next (sramUncorrected s)

/-! ## SPDM over PCIe (R581) -/

/-- An SPDM message: the response, which DSP0274 gives and the spec does not, is a free value; it goes to RADDR. -/
def spdmGo (s : State) (c : Cmd) : Reply :=
  let d := c.d
  let req := Memory.readN s.mem.host (dfld d 24 0 64) (dfld d 32 0 32)
  let rsp := Config.spdmResponse s.free req
  if dRestZero d [(24, 0, 64), (32, 0, 32), (40, 0, 64), (48, 0, 32)] = false ∨ dfld d 48 0 32 < rsp.length then badOperand c
  else .ok ((s.fresh).hostWrite (dfld d 40 0 64) rsp) (BitVec.ofNat 64 rsp.length)

def spdmPlain (fn : Nat) (d : BitVec 512) (s : State) : State := s.runWcp pfNone fn d spdmGo

def execSpdmPlain (fn : Nat) (d : BitVec 512) (s : State) : Host.Outcome State Fault Refusal := .next (spdmPlain fn d s)

def spdmSecured (fn : Nat) (d : BitVec 512) (s : State) : State := s.runWcp pfNone fn d spdmGo

def execSpdmSecured (fn : Nat) (d : BitVec 512) (s : State) : Host.Outcome State Fault Refusal := .next (spdmSecured fn d s)

end Sys2Proof.Machine
end

