-- ==== Sys2Proof/Machine/Recovery.lean ====
section
/-! DEFINITION. Compute reset, cascade reset, single-fault recovery, withdrawal and `service.return`
(R15, R433, R617 to R622, R627 to R634, R636). -/

namespace Sys2Proof.Machine

open Sys2Proof

/-! ## Registers that resets clear (R15, R617) -/

/-- A compute reset returns a stored register to its reset value: it lies in the rill, array, vector, Spillway, stream-table
or Wellhead block, and holds no RWS field. -/
def resetClears (a : Nat) : Bool :=
  let i := (a - 0x080000000000) / 0x1000000
  let o := (a - 0x080000000000) % 0x1000000
  decide (i = 0x00 ∨ i = 0x0C ∨ (i = 0x0B ∧ o ≠ 0) ∨ ((i = 0x08 ∨ i = 0x09 ∨ i = 0x0A) ∧ o % 0x4000 ≠ 0))

/-- A cascade reset returns it: an RL_, AR_ or VX_ register of the cascade's rills, or its ST_CACHE_ registers. -/
def cascadeClears (c a : Nat) : Bool :=
  let i := (a - 0x080000000000) / 0x1000000
  let o := (a - 0x080000000000) % 0x1000000
  decide (((i = 0x08 ∨ i = 0x09 ∨ i = 0x0A) ∧ o % 0x4000 ≠ 0 ∧ o / 0x4000 / 16 = c) ∨
    (i = 0x0C ∧ 0x1000 ≤ o ∧ (o - 0x1000) / 0x40 = c))

/-- A rill after a reset: its scratchpad keeps its poison marks and what its spares replaced (R245). -/
def Rill.cleared (v : Rill) (cycles : Nat) : Rill :=
  { Rill.reset with poison := v.poison, hitBanks := v.hitBanks, bankPtr := v.bankPtr, lastUser := v.lastUser, cyclesOff := cycles }

/-! ## Compute reset (R618, R619) -/

/-- The code with which launches and commands end. -/
def State.resetStatus (s : State) : W32 :=
  match s.pwr.resetting with
  | some (_, c) => if s.pwr.withdrawing = 0 then kPwComputeReset.flint 0xFFF else c
  | none => kPwComputeReset.flint 0xFFF

/-- COMPUTE_RESET is raised for each launch and command that it ends; under a withdrawal another code stands in its place. -/
def State.raiseReset (s : State) (part fn : Nat) : State :=
  if s.pwr.withdrawing = 0 then s.raise kPwComputeReset 0xFFF { part := part, fn := fn } else s

/-- The norm table of a launch stays, its current bank INCOMPLETE (R433). -/
def State.keepNorms (s : State) (p h : Nat) : State :=
  match s.launch? p h with
  | some l =>
    let t : NormTable := { step := l.step, norm0 := l.norm0, norm1 := l.norm1, incomplete := true }
    s.setPart p { s.part p with norms := (s.part p).norms.put h t }
  | none => s

/-- Every launch ends. -/
def State.endLaunches (s : State) : State :=
  s.parts.foldl (fun (s : State) q => q.2.launches.keys.foldl (fun (s : State) h =>
    let fn := match s.launchCmd? q.1 h with | some c => c.fn | none => 0xFF
    ((s.keepNorms q.1 h).raiseReset q.1 fn).endLaunch q.1 h s.resetStatus) s) s

/-- A command survives the reset: `reset.compute` and `service.return`, which complete when service resumes. -/
def Cmd.survives (c : Cmd) : Bool := c.started && decide (dOpcode c.d = 0x0B04 ∨ dOpcode c.d = 0x0B06)

/-- Every other command in progress ends. -/
def State.endCommands (s : State) : State :=
  let l := s.host.inProgress.filter (fun c => !c.survives)
  let s := l.foldl (fun (s : State) c => (s.raiseReset c.part c.fn).finish c s.resetStatus 0) s
  let s := l.foldl (fun (s : State) c => if imageOp c && c.started then s.releaseImage c.part (dfld c.d 24 0 44) else s) s
  { s with coll := { s.coll with ops := s.coll.ops.map (fun (o : CollOp) => { o with cmd := none }) },
           pwr := { s.pwr with capNext := none } }

/-- A resize in progress ends: with the new cascades once stage 3 was reached, and with the groups and ways of before
(R297, R619).  Schedules end with their launches. -/
def Part.afterReset (p : Part) : Part :=
  { p with state := if p.state = 2 then 1 else p.state, newGrant := none, stage := 0, oldCascades := 0, schedule := none,
           nextSchedule := none }

/-- The blocks of R15 stop and clear. -/
def computeReset (s : State) : State :=
  match s.pwr.resetting with
  | none => s
  | some (_, code) =>
    if s.pwr.cleared then s
    else
      let s := s.ctxs.keys.foldl (fun (s : State) k => s.dropCtx k) s
      let s := { s with rills := (List.range 1024).map (fun r => (r, (s.rill r).cleared (s.terrace (r / 256)).cycles)) }
      let s := { s with streamCaches := [], frqs := [], frqOver := [] }
      let s := s.endLaunches.endCommands
      let s := { s with parts := s.parts.mapV (fun _ p => p.afterReset), regs := s.regs.filter (fun x => !resetClears x.1) }
      let s := s.satF (pwResets (if code = 0 then 1 else 0)) 1
      { s with pwr := { s.pwr with cleared := true, recovery := none, wellheadLast := none }, watch := Watch.reset,
               host := { s.host with heartbeat := 0, cmdsDropped := 0, completed := 0 } }.sweepFrees

def execComputeReset (s : State) : Host.Outcome State Fault Refusal := .next (computeReset s)

/-! ## Service resumes (R259, R618, R627, R629, R630) -/

/-- Streams that were CLOSING when the reset began are FREE. -/
def State.freeClosing (s : State) : State :=
  s.streams.foldl (fun (s : State) e => if eState e.2 = 2 then s.setEntry e.1 (eSet e.2 0 0 3 0) else s) s

/-- PW_STATUS.WITHDRAW_CAUSE of a withdrawal; no code stands for IPL_LOST. -/
def withdrawCode (n : Nat) : Nat := if n = 1 then 1 else if n = 2 ∨ n = 3 then 2 else 0

/-- The module enters WITHDRAWN: its ports become ISOLATED, and the cause is raised. -/
def State.enterWithdrawn (s : State) (code : W32) : State :=
  let n := s.pwr.withdrawing
  let s := { s with pwr := { s.pwr with withdrawing := 0, withdrawn := n, withdrawCause := withdrawCode n } }
  let s := (s.setMode .withdrawn).reidentify
  if n = 1 then s.raise kPwEscalated 0xFFF else if n = 2 ∨ n = 3 then s.raise kPwThermalTrip (codeInst code) else s

/-- `service.return` ends: the escalation window is closed and the module is READY. -/
def State.returnService (s : State) : State :=
  let s := { s with pwr := { s.pwr with esc := none, withdrawn := 0, withdrawCause := 0 } }
  let s := (s.setMode .ready).reidentify
  (s.host.inProgress.filter (fun c => decide (dOpcode c.d = 0x0B06) && c.started)).foldl (fun (s : State) c => s.finish c 0 0) s

/-- The Wellhead runs again; `bad` says that the ECC scan of its instruction memory found an uncorrectable word.  It reloads
its image then, and when another copy was selected. -/
def State.reloadWellhead (s : State) (bad : Bool) : State :=
  if bad || s.pwr.reload then
    let (s, b) := s.bootImage 1
    let s := { s with pwr := { s.pwr with reload := false } }
    match b with
    | some b => s.runCopy 1 b
    | none => s
  else s

def serviceResume (reload : Bool) (s : State) : State :=
  match s.pwr.resetting with
  | none => s
  | some (_, code) =>
    if s.pwr.cleared = false then s
    else
      let s : State := (s.reloadWellhead reload).freeClosing
      let s := { s with pwr := { s.pwr with resetting := none, cleared := false, held := s.pwr.held && decide (code ≠ 0) } }
      let s : State := (s.host.inProgress.filter (fun c => decide (dOpcode c.d = 0x0B04) && c.started)).foldl
        (fun (s : State) c => s.finish c 0 (BitVec.ofNat 64 s.tbNs)) s
      if s.pwr.withdrawing ≠ 0 then s.enterWithdrawn code
      else if s.host.inProgress.any (fun c => decide (dOpcode c.d = 0x0B06) && c.started) then s.returnService
      else s

def execServiceResume (reload : Bool) (s : State) : Host.Outcome State Fault Refusal := .next (serviceResume reload s)

/-! ## `reset.compute`, `service.return` (R630, R636) -/

def resetComputeGo (s : State) (c : Cmd) : Reply :=
  if dRestZero c.d [] = false then badOperand c else .wait (s.triggerReset 0)

def resetCompute (fn : Nat) (d : BitVec 512) (s : State) : State := s.runWcp pfNone fn d resetComputeGo

def execResetCompute (fn : Nat) (d : BitVec 512) (s : State) : Host.Outcome State Fault Refusal := .next (resetCompute fn d s)

/-- A temperature sensor is not below its WARN limit. -/
def State.notCool (s : State) (i : Nat) : Bool := (s.sensor i).valid && decide ((s.tempLimits i).1 ≤ (s.sensor i).value.toInt)

/-- The condition behind a THERMAL_TRIP has not fallen below its WARN limit. -/
def State.persists (s : State) : Bool :=
  match s.pwr.withdrawn with
  | 2 => (List.range 8).any s.notCool
  | 3 => s.notCool 21
  | _ => false

def serviceReturnGo (s : State) (c : Cmd) : Reply :=
  if dRestZero c.d [] = false then badOperand c
  else if s.persists then .fail kPwConditionPersists 0xFFF
  else
    let live := s.parts.filter (fun p => decide (p.2.state ≠ 0 ∧ p.2.state ≠ 3))
    let s := live.foldl (fun (s : State) p => s.destroyPart p.1) s
    .wait ({ s with parts := s.parts.mapV (fun _ p => { p with vf := 0 }) }.triggerReset 0)

def serviceReturn (fn : Nat) (d : BitVec 512) (s : State) : State := s.runWcp pfNone fn d serviceReturnGo

def execServiceReturn (fn : Nat) (d : BitVec 512) (s : State) : Host.Outcome State Fault Refusal := .next (serviceReturn fn d s)

/-! ## Cascade reset (R617, R620, R621, R636) -/

/-- A recovery covers the cascade. -/
def State.recoversCascade (s : State) (c : Nat) : Bool :=
  match s.pwr.recovery with
  | some r => r.scopes.contains (.cascade c)
  | none => false

/-- The `reset.cascade` in progress for a cascade; `a` is 1 more than its reset's time once that has been carried out, and `b`
the rills whose self-checks have ended. -/
def State.cascadeCmd? (s : State) (c : Nat) : Option Cmd :=
  s.host.inProgress.find? (fun x => decide (dOpcode x.d = 0x0B05 ∧ dfld x.d 17 0 6 = c) && x.started)

/-- The rills of a cascade, cleared and in their self-checks. -/
def State.clearCascade (s : State) (c : Nat) : State :=
  (List.range 16).foldl (fun (s : State) i =>
    let r := 16 * c + i
    let v := (s.rill r).cleared (s.terrace (r / 256)).cycles
    s.setRill r { v with array := { v.array with phase := .selfCheck }, vector := { v.vector with selfCheck := true } }) s

/-- A cascade reset: by `reset.cascade` once no recovery covers the cascade, or as its recovery. -/
def cascadeReset (c : Nat) (s : State) : State :=
  let waiting := match s.cascadeCmd? c with | some x => decide (x.a = 0) | none => false
  if 64 ≤ c ∨ (waiting || s.recoversCascade c) = false then s
  else
    let keys := (s.ctxs.filter (fun x => match x.2.loc with
      | .resident r _ => decide (r / 16 = c)
      | .saving r => decide (r / 16 = c)
      | .restoring r => decide (r / 16 = c)
      | .saved => false)).map (fun x => x.1)
    let s := keys.foldl (fun (s : State) k => s.loseCtx k) s
    let s := s.clearCascade c
    let s := { s with streamCaches := s.streamCaches.del c, regs := s.regs.filter (fun x => !cascadeClears c x.1) }
    let s := s.satF (pwResets 2) 1
    if s.recoversCascade c then s
    else match s.cascadeCmd? c with
      | some x => s.updCmd x.order (fun x => { x with a := s.now + 1, b := 0 })
      | none => s

def execCascadeReset (cascade : Nat) (s : State) : Host.Outcome State Fault Refusal := .next (cascadeReset cascade s)

/-- Rills of a cascade in service. -/
def State.cascadeInService (s : State) (c : Nat) : Nat := ((List.range 16).filter (fun i => s.inService (16 * c + i))).length

/-- A rill's self-check ends: one that fails is out of service; the command completes with the last. -/
def cascadeSelfCheckDone (r : Nat) (passed : Bool) (s : State) : State :=
  if 1024 ≤ r ∨ s.resetCheck r = false then s
  else
    let v := s.rill r
    let s := s.setRill r { v with array := { v.array with phase := .idle }, vector := { v.vector with selfCheck := false } }
    let s := if passed then s else s.outOfService r
    match s.cascadeCmd? (r / 16) with
    | none => s
    | some c =>
      if c.a = 0 then s
      else
        let b := setBits c.b (r % 16) 1 1
        let s := s.updCmd c.order (fun c => { c with b := b })
        if b = 0xFFFF then
          let n := (s.now - (c.a - 1)) / Config.unitsPerNs / 64
          let s := { s with pwr := { s.pwr with ptExcluded := s.pwr.ptExcluded + n,
                                                today := { s.pwr.today with excluded := s.pwr.today.excluded + n } } }
          s.finish c 0 (BitVec.ofNat 64 (s.cascadeInService (r / 16)))
        else s

def execCascadeSelfCheckDone (rill : Nat) (passed : Bool) (s : State) : Host.Outcome State Fault Refusal :=
  .next (cascadeSelfCheckDone rill passed s)

def resetCascadeGo (s : State) (c : Cmd) : Reply :=
  if dRestZero c.d [(17, 0, 6)] = false then badOperand c else .wait s

def resetCascade (fn : Nat) (d : BitVec 512) (s : State) : State := s.runWcp pfNone fn d resetCascadeGo

def execResetCascade (fn : Nat) (d : BitVec 512) (s : State) : Host.Outcome State Fault Refusal := .next (resetCascade fn d s)

/-! ## The end of a single-fault recovery (R632, R635) -/

def recovered (durationNs affected : Nat) (s : State) : State :=
  match s.pwr.recovery with
  | none => s
  | some r =>
    let n := min durationNs (2 ^ 24 - 1)
    let s := (s.setF pwLastNs n).setF pwUnion (b2n r.isUnion)
    let s := s.setF pwMaxNs (max (s.getF pwMaxNs) n)
    let lost := durationNs * affected / 1024
    let s := { s with pwr := { s.pwr with recovery := none, ptLost := s.pwr.ptLost + lost,
                                          today := { s.pwr.today with lost := s.pwr.today.lost + lost } } }
    s.raise kPwRecovered 0xFFF { detail := durationNs }

def execRecovered (durationNs affected : Nat) (s : State) : Host.Outcome State Fault Refusal := .next (recovered durationNs affected s)

end Sys2Proof.Machine
end

