-- ==== Sys2Proof/Machine/Registers.lean ====
section
/-! DEFINITION. The register blocks: what every register reads, the read that clears, and the write that acts by its
access codes (R13 to R16, R41, R42, R127 to R134, R170 to R179, R219 to R225, R247 to R253, R283 to R289, R324 to R331,
R360 to R369, R414 to R419, R480 to R483, R517, R518, R528, R555 to R560, R591, R592, R638 to R641, R656, R657). -/

namespace Sys2Proof.Machine

open Sys2Proof

/-- A register word from its fields: lowest bit, width and value. -/
def pack (l : List (Nat × Nat × Nat)) : Nat := (l.map (fun f => f.2.2 % 2 ^ f.2.1 * 2 ^ f.1)).sum

/-- Block index, and offset in the block, of an address (R41). -/
def blockIx (a : Nat) : Nat := (a - 0x080000000000) / 0x1000000
def blockOff (a : Nat) : Nat := (a - 0x080000000000) % 0x1000000

/-- The address lies in one of the 19 register blocks. -/
def inBlocks (a : Nat) : Bool := decide (0x080000000000 ≤ a ∧ a < 0x080013000000)

/-! ## Views: rill, array, vector engine, stream table -/

/-- Context in a frame of a rill. -/
def State.frameCtx (s : State) (r f : Nat) : Option (Nat × Context) :=
  match (s.rill r).frames.at? f with
  | some k => (s.ctx? k).map (fun c => (k, c))
  | none => none

def State.rlStatus (s : State) (r : Nat) : Nat :=
  let fr := (List.range 5).map (fun f => s.frameCtx r f)
  let here := (List.range 4).filter (fun f => (fr.getD f none).isSome)
  let swap := match fr.getD 4 none with
    | some (_, c) => (match c.loc with | .saving _ => true | .restoring _ => true | _ => false)
    | none => false
  let threads := (here.map (fun f => match fr.getD f none with | some (_, c) => c.threads.length | none => 0)).sum
  let owner := match (s.rill r).array.owner with
    | some k => ((List.range 4).find? (fun f => (s.rill r).frames.at? f == some k)).getD 0
    | none => 0
  pack [(0, 4, (here.map (fun f => 2 ^ f)).sum), (4, 1, b2n swap), (5, 6, threads),
    (11, 1, b2n (s.rill r).array.owner.isSome), (12, 2, owner)]

def State.rlFrame (s : State) (r f : Nat) : Nat :=
  match s.frameCtx r f with
  | some (k, c) => pack [(0, 1, 1), (1, 4, keyPart k), (5, 16, keyNum k), (21, 6, c.threads.length), (27, 1, b2n c.blocked)]
  | none => 0

/-- Code of a thread state (R87). -/
def TState.code : TState → Nat
  | .free => 0
  | .idle => 1
  | .ready => 2
  | .waitDep => 3
  | .waitQueue => 4
  | .waitLocal => 5
  | .waitRemote => 6
  | .waitTile => 7
  | .fault => 8

/-- The thread that a hardware thread of a rill holds. -/
def State.hwThread (s : State) (r h : Nat) : Option (Nat × Nat × Context × Thread) :=
  (List.range 4).findSome? (fun f => match s.frameCtx r f with
    | some (k, c) => (c.threads.find? (fun t => decide (t.hw = h))).map (fun t => (f, k, c, t))
    | none => none)

def State.rlThreads (s : State) (r base : Nat) : Nat :=
  pack ((List.range 16).map (fun k => (4 * k, 4, match s.hwThread r (base + k) with
    | some (_, _, _, t) => t.st.code
    | none => 0)))

/-- The array's owner. -/
def State.arrOwner (s : State) (r : Nat) : Option Context :=
  match (s.rill r).array.owner with
  | some k => s.ctx? k
  | none => none

/-- PHASE tells a running pass as 2, stream: the model completes a pass in one event (notes/assumptions/10.md). -/
def State.arStatus (s : State) (r : Nat) : Nat :=
  let a := (s.rill r).array
  pack [(0, 3, match a.phase with | .idle => 0 | .running => 2 | .selfCheck => 4), (5, 1, a.set), (6, 2, a.passNo),
    (8, 4, (s.rill r).mxQ.length), (12, 1, b2n (match s.arrOwner r with | some c => c.panel.isSome | none => false))]

def State.vxStatus (s : State) (r : Nat) : Nat :=
  let v := (s.rill r).vector
  let q := (s.rill r).vxQ.length
  match v.cur with
  | some e =>
    let frame := ((List.range 4).find? (fun f => (s.rill r).frames.at? f == some e.ctx)).getD 0
    pack [(0, 1, 1), (1, 3, e.op), (4, 4, q), (18, 10, v.beats), (28, 2, frame), (30, 1, b2n v.wide)]
  | none => pack [(4, 4, q)]

def State.stStatus (s : State) : Nat :=
  let n := fun (f : Nat → Bool) => (s.streams.filter (fun e => f (eState e.2))).length
  pack [(0, 15, n (fun x => decide (x = 1 ∨ x = 3))), (15, 15, n (fun x => decide (x = 2))), (30, 15, n (fun x => decide (x = 4)))]

/-- Copies that the running uses of a cascade's rills hold. -/
def State.stCacheStatus (s : State) (c : Nat) : Nat :=
  let copies := (s.streamCaches.getD c []).keys
  let used := (List.range 16).flatMap (fun i => (s.rill (16 * c + i)).array.streams ++ (s.rill (16 * c + i)).vector.streams)
  pack [(0, 7, copies.length), (7, 7, (copies.filter (fun n => used.contains n)).length)]

/-! ## Views: Spillway, memory, Sluice -/

/-- The grant registers read 0 from a compute reset until service resumes (R324). -/
def State.grantShown (s : State) (v : Nat) : Nat := if s.pwr.cleared then 0 else v

def State.swStatus (s : State) : Nat :=
  pack ((List.range 16).flatMap (fun p => [(p, 1, b2n (decide ((s.part p).state ≠ 0))),
    (16 + p, 1, b2n (decide ((s.part p).state = 2))), (32 + p, 1, b2n (s.part p).schedule.isSome)]))

/-- Items in the four work deques of a rill. -/
def State.swRillDeq (s : State) (r : Nat) : Nat :=
  pack ((List.range 4).map (fun k => (16 * k, 9,
    (s.parts.map (fun q => ((q.2.launches.filter (fun l => decide (l.2.slot = k))).map
      (fun l => (l.2.deques.getD r []).length)).sum)).sum)))

def State.hbRecords (s : State) (n : Nat) : Nat :=
  let m := s.recordsOf (fun k => keyStack k == some n)
  pack [(0, 16, m), (16, 16, stackRecords n - m)]

/-- Pages of a tier that are in use or out of service, counted once. -/
def State.takenPages (s : State) (tier : Nat) : Nat :=
  let used := (s.usedPlaces.filter (fun x => decide (x.tier = tier))).map Place.key
  let mine := fun (k : Nat) => if 2 ^ 40 ≤ k then decide (tier = 2) else decide (tier = if (keyStack k).isSome then 0 else 1)
  let out := (s.mem.retired ++ s.mem.poison.keys).filter (fun k => mine k && !used.contains k)
  (used.eraseDups ++ out.eraseDups).length

/-- Pages that the module has in each tier once it is out of BOOT (R38, R39, R347). -/
def State.tierPages (s : State) (tier : Nat) : Nat :=
  if s.mode = .boot then 0 else if tier = 0 then 274656 else if tier = 1 then s.ddrPages else 6103515

def tierWord (h d f : Nat) : Nat := pack [(0, 19, h), (19, 20, d), (39, 23, f)]

def State.slStatus (s : State) : Nat :=
  tierWord (s.tierPages 0 - s.takenPages 0) (s.tierPages 1 - s.takenPages 1) (s.tierPages 2 - s.takenPages 2)

def State.slObjects (s : State) (p : Nat) : Nat :=
  let q := s.part p
  let bad := q.objects.filter (fun o => o.2.poisoned || (List.range o.2.pages).any (fun i => s.pagePoison p (o.1 / pageBytes + i)))
  pack [(0, 17, q.objects.length), (17, 17, bad.length)]

/-- Pages that move, by the slice of the copy in use: one is in the mover, the others wait. -/
def State.slMover (s : State) (d : Nat) : Nat :=
  let n := (s.parts.map (fun q => (q.2.pages.filter (fun g => decide (g.2.state = .moving ∨ g.2.state = .staging ∨ g.2.state = .writingBack) &&
    (match g.2.a with | some x => decide (x.die = d) | none => false))).length)).sum
  pack [(0, 16, n - 1), (16, 1, b2n (decide (0 < n)))]

/-! ## Views: fabric, collectives, host interface -/

def State.glPortStatus (s : State) (p : Nat) : Nat :=
  let v := s.port p
  pack [(0, 3, v.state), (3, 3, ((List.range 4).filter (fun k => bit v.live.toNat k)).length), (6, 4, v.live.toNat),
    (10, 1, b2n v.miswired), (11, 1, b2n v.foreign), (12, 20, match v.nb with | some r => r.rtt | none => 0)]

def State.glPortNb (s : State) (p : Nat) : Nat :=
  match (s.port p).nb with
  | some r => pack [(0, 16, r.chip.toNat), (16, 5, r.port), (21, 6, r.x), (27, 6, r.y), (33, 6, r.z), (39, 1, b2n r.spare)]
  | none => 0xFFFF

def State.glIplStatus (s : State) (i : Nat) : Nat :=
  let v := s.ipl i
  pack [(0, 5, v.groups), (5, 1, b2n v.spareUsed), (6, 1, b2n v.lost)]

def State.glModule (s : State) (o : Nat) : Nat :=
  let f := s.fabric
  match o with
  | 0 => pack [(0, 16, f.chip), (16, 32, f.fabricId.toNat), (48, 1, b2n f.spare), (49, 1, b2n f.timeMaster)]
  | 8 => pack [(0, 8, f.x), (8, 8, f.y), (16, 8, f.z), (24, 8, f.ringX), (32, 8, f.ringY), (40, 8, f.ringZ), (48, 3, f.timeParent)]
  | 0x10 => pack [(0, 15, (f.dest.vals.filter destValid).length),
      (15, 11, (s.parts.map (fun q => (q.2.accept.vals.filter (fun e => bit e.toNat 48)).length)).sum)]
  | _ => 0

def State.ceStatus (s : State) : Nat :=
  let c := s.coll
  pack [(0, 7, c.groups.length), (7, 5, c.running), (12, 5, c.aborted.length), (17, 1, b2n c.straggler), (18, 4, c.slowSteps)]

def State.mbStatus (s : State) (f : Nat) : Nat :=
  let m := s.mailbox f
  let wait := (!m.pendA.isEmpty || !m.pendB.isEmpty) && decide (s.freeEntries f = 0)
  pack [(0, 1, b2n m.fill), (1, 1, b2n m.fillOpen), (2, 7, m.pendA.length), (9, 7, m.pendB.length), (16, 1, b2n wait),
    (17, 1, b2n m.cqStalled), (18, 9, s.progressOf f)]

/-- What stands in an MB_ instance (R528, R558). -/
def State.mbView (s : State) (f o : Nat) : Nat :=
  let m := s.mailbox f
  if o % 8 ≠ 0 then 0
  else if o < 0x1000 then bits (m.bankA.getD (o / 64) 0).toNat (64 * (o / 8 % 8)) 64
  else if o < 0x2000 then bits (m.bankB.getD ((o - 0x1000) / 64) 0).toNat (64 * (o / 8 % 8)) 64
  else if 0x3000 ≤ o ∧ o < 0x3040 then (m.msixTable.getD ((o - 0x3000) / 8) (if o / 8 % 2 = 1 then 0x100000000 else 0)).toNat
  else if o = 0x3800 then m.msixPending.toNat
  else match o with
    | 0x2000 => pack [(0, 1, b2n m.enable), (1, 1, b2n m.order)]
    | 0x2008 => s.mbStatus f
    | 0x2018 => m.cqBase.toNat
    | 0x2020 => pack [(0, 5, m.sizeLog2), (8, 8, m.coalesceN), (16, 16, m.coalesceUs)]
    | 0x2028 => m.head.toNat
    | 0x2030 => m.posted.toNat
    | 0x2038 => m.postedAddr.toNat
    | 0x2040 => pack [(0, 32, m.taken.toNat), (32, 16, m.refused)]
    | 0x2048 => s.reg (mbFault f)
    | _ => 0

def State.pxView (s : State) (o : Nat) : Nat :=
  let h := s.host
  match o with
  | 0x00 => pack [(0, 3, h.speed), (3, 4, h.width), (7, 1, b2n h.flit), (8, 1, b2n h.l0p)]
  | 0x10 => pack [(0, 32, h.urReads.toNat), (32, 32, h.droppedWrites.toNat)]
  | 0x18 => pack ((List.range 16).map (fun p => (4 * p, 4, (s.part p).vf)))
  | _ => if o = 0x08 ∨ o = 0x20 ∨ o = 0x28 then s.reg (pxReg o) else 0

def State.whView (s : State) (o : Nat) : Nat :=
  let h := s.host
  match o with
  | 0x00 => pack [(0, 2, s.mode.code), (2, 16, 0x0302), (18, 1, b2n s.grotto.wellheadSlot)]
  | 0x08 => h.heartbeat.toNat
  | 0x10 => pack [(0, 9, h.inProgress.length), (16, 16, h.cmdsDropped), (32, 32, h.completed.toNat)]
  | _ => if o = 0x18 ∨ o = 0x20 then s.reg (whReg o) else 0

/-! ## Views: Grotto, clocks, power, debug -/

/-- GR_T1S_STATUS.MODE (R586, R592). -/
def State.t1sMode (s : State) : Nat :=
  if !s.portOn then 0
  else if s.grotto.slate.nodeId = 255 ∨ s.grotto.plcaLost then 3
  else if s.grotto.slate.nodeId = 0 then 2 else 1

def State.grView (s : State) (o : Nat) : Nat :=
  let g := s.grotto
  let r := s.record
  match o with
  | 0x00 => pack [(0, 3, g.stage), (3, 2, if g.stage = 0 then 0 else g.slateSel), (5, 32, g.slateSeq), (37, 1, b2n r.owner.isSome),
      (38, 1, b2n g.grottoSlot), (39, 1, b2n g.wellheadSlot), (40, 1, b2n r.trialG), (41, 1, b2n r.trialW)]
  | 0x08 => pack [(0, 32, g.grottoVer), (32, 32, g.wellheadVer)]
  | 0x10 => pack [(0, 16, r.svnG), (16, 16, r.svnW), (32, 1, b2n g.stagedG.isSome), (33, 1, b2n g.stagedW.isSome)]
  | 0x18 => pack [(0, 32, g.nextSeq), (32, 16, s.getF grFolded)]
  | 0x20 => pack [(0, 1, s.getF grT1sEnable), (2, 1, b2n g.identify.isSome)]
  | 0x28 => pack [(0, 2, s.t1sMode), (2, 8, g.slate.nodeId), (10, 3, g.sessions.length), (13, 3, g.handshakes.length)]
  | _ =>
    if o = 0x30 ∨ o = 0x38 ∨ o = 0x40 ∨ o = 0x48 then s.reg (grReg o)
    else if 0x100 ≤ o ∧ o < 0x1C8 ∧ o % 8 = 0 then
      let i := (o - 0x100) / 8
      let x := s.sensor i
      pack [(0, 32, x.value.toNat), (32, 1, b2n x.valid), (33, 1, b2n (s.sensorBeyond i false)), (34, 1, b2n (s.sensorBeyond i true))]
    else 0

def State.ckOpp (s : State) (d : Nat) : Nat :=
  let t := s.terrace d
  let target := if s.booted then s.target d else 0
  pack [(0, 2, t.ceiling), (2, 2, t.running), (4, 2, target), (6, 1, b2n (decide (t.running ≠ target))),
    (7, 1, b2n (s.dieWarn d || s.dieCrit d)), (8, 1, b2n (decide (0 < t.capHold))), (9, 1, b2n t.stretch.isSome),
    (10, 1, b2n s.pwr.held), (11, 4, s.gate16 d)]

def State.ckView (s : State) (o : Nat) : Nat :=
  let c := s.clk
  match o with
  | 0x00 => pack [(0, 1, b2n c.crystal), (1, 1, b2n c.sysrefLock), (2, 1, b2n c.timeValid), (3, 4, c.arrLock)]
  | 0x08 => s.tbNs % 2 ^ 64
  | 0x10 => pack [(0, 32, c.offset.toNat), (32, 16, c.slew.toNat)]
  | 0x18 => s.reg ckFault
  | _ =>
    if 0x100 ≤ o ∧ o < 0x200 then
      if o % 0x40 = 0 then s.ckOpp ((o - 0x100) / 0x40)
      else if o % 0x40 = 8 ∨ o % 0x40 = 0x10 ∨ o % 0x40 = 0x18 then s.reg (ckReg o) else 0
    else 0

def State.pwView (s : State) (o : Nat) : Nat :=
  let p := s.pwr
  match o with
  | 0x00 => pack [(0, 12, p.cap), (12, 1, b2n p.held), (13, 1, b2n p.recovery.isSome), (14, 2, p.withdrawCause)]
  | 0x08 => match p.kept with | some c => pack [(0, 32, c.toNat), (32, 1, 1)] | none => 0
  | 0x10 => match p.esc with | some (_, n) => pack [(0, 5, n), (5, 1, 1)] | none => 0
  | 0x18 => match p.esc with | some (t, _) => t % 2 ^ 64 | none => 0
  | 0x38 => p.ptTotal % 2 ^ 64
  | 0x40 => p.ptExcluded % 2 ^ 64
  | 0x48 => p.ptLost % 2 ^ 64
  | _ => if o = 0x20 ∨ o = 0x28 ∨ o = 0x30 ∨ o = 0x50 then s.reg (pwReg o) else 0

def State.dgView (s : State) (o : Nat) : Nat :=
  match o with
  | 0x08 => pack [(0, 16, ((s.dbg.samplers.keys.filter (fun k => decide (k < 16))).map (fun k => 2 ^ k)).sum),
      (16, 1, b2n (s.dbg.samplers.at? 16).isSome), (17, 1, b2n s.pwr.held)]
  | _ => if o = 0x00 ∨ o = 0x10 ∨ o = 0x18 then s.reg (dgReg o) else 0

/-! ## What a register reads (R13, R14) -/

/-- The offsets of an instance at which a stored register stands. -/
def listed (o : Nat) (l : List Nat) : Bool := l.contains o

/-- Blocks with one instance of 16 KiB per rill. -/
def State.rillView (s : State) (ix r o : Nat) : Nat :=
  let v := s.reg (blockBase ix + r * 0x4000 + o)
  if 1024 ≤ r then 0
  else match ix with
    | 0x07 => if listed o [0, 8, 0x10, 0x18, 0x20, 0x28, 0x30, 0x38, 0x40] then v else 0
    | 0x08 => match o with
      | 0x08 => s.arStatus r
      | 0x10 => (match s.arrOwner r with | some c => c.mode.toNat | none => 0)
      | 0x18 => pack [(0, 13, (s.rill r).array.steps), (13, 13, (s.rill r).array.done)]
      | _ => if listed o [0, 0x20, 0x28, 0x30, 0x38, 0x40, 0x48, 0x50, 0x58, 0x60] then v else 0
    | 0x09 => match o with
      | 0x08 => s.vxStatus r
      | _ => if listed o [0, 0x10, 0x18, 0x20, 0x28, 0x30, 0x38, 0x40, 0x48, 0x50] then v else 0
    | _ => match o with
      | 0x08 => s.rlStatus r
      | 0x38 => setBits v 0 8 (s.rill r).trackers.length
      | 0x48 => s.rlThreads r 0
      | 0x50 => s.rlThreads r 16
      | _ => if 0x10 ≤ o ∧ o ≤ 0x30 ∧ o % 8 = 0 then s.rlFrame r ((o - 0x10) / 8)
             else if listed o [0, 0x40, 0x58] then v else 0

def State.swView (s : State) (o : Nat) : Nat :=
  let v := s.reg (swReg o)
  if o % 8 ≠ 0 then 0
  else if o = 0 ∨ o = 0x10 then v
  else if o = 8 then s.swStatus
  else if 0x100 ≤ o ∧ o < 0x300 then
    let p := (o - 0x100) / 0x20
    let g := (s.part p).grant
    match o % 0x20 with
    | 0 => s.grantShown g.cascades.toNat
    | 8 => s.grantShown g.groups.toNat
    | 0x10 => s.grantShown g.ways.toNat
    | _ => s.partStateWord p
  else if 0x800 ≤ o ∧ o < 0xA00 then
    let c := (o - 0x800) / 8
    pack [(0, 9, (s.frq c).length), (9, 32, (s.frqOverflow c).length)]
  else if 0x10000 ≤ o ∧ o < 0x20000 then
    match o % 0x40 with
    | 0 => s.swRillDeq ((o - 0x10000) / 0x40)
    | 8 => v
    | 0x10 => v
    | 0x18 => v
    | _ => 0
  else 0

def State.slView (s : State) (o : Nat) : Nat :=
  let v := s.reg (slReg o)
  if o % 8 ≠ 0 then 0
  else if listed o [0, 0x10, 0x18] then v
  else if o = 8 then s.slStatus
  else if 0x1000 ≤ o ∧ o < 0x1800 then
    let p := (o - 0x1000) / 0x80
    let q := s.part p
    let x := o % 0x80
    if x = 0 then tierWord q.quotaH q.quotaD q.quotaF
    else if x = 8 then tierWord (q.use 0) (q.use 1) (q.use 2)
    else if x = 0x10 then q.committed [0, 1, 2] % 2 ^ 23
    else if x = 0x18 then s.slObjects p
    else if x ≤ 0x40 then v else 0
  else if 0x2000 ≤ o ∧ o < 0x2100 then
    if o % 0x40 = 0x10 then s.slMover ((o - 0x2000) / 0x40) else if o % 0x40 < 0x10 then v else 0
  else 0

def State.glView (s : State) (o : Nat) : Nat :=
  let v := s.reg (blockBase 0x0D + o)
  let x := o % 0x1000
  if o < 0x18000 then
    if x = 8 then s.glPortStatus (o / 0x1000)
    else if x = 0x10 then s.glPortNb (o / 0x1000)
    else if listed x [0, 0x18, 0x20, 0x28, 0x30, 0x38] then v else 0
  else if 0x20000 ≤ o ∧ o < 0x26000 then
    if x = 0 then s.glIplStatus ((o - 0x20000) / 0x1000) else if listed x [8, 0x10] then v else 0
  else if 0x30000 ≤ o ∧ o < 0x34000 then (if listed x [0, 8, 0x10, 0x18, 0x20] then v else 0)
  else if 0x40000 ≤ o ∧ o ≤ 0x40010 then s.glModule (o - 0x40000)
  else 0

def State.ceView (s : State) (o : Nat) : Nat :=
  let v := s.reg (ceReg o)
  if o = 0 ∨ o = 0x18 then v
  else if o = 8 then s.ceStatus
  else if o = 0x10 then pack [(0, 32, s.coll.lagUs.toNat), (32, 32, s.coll.stepUs.toNat)]
  else if 0x1000 ≤ o ∧ o < 0x1200 then (if listed (o % 0x20) [0, 8, 0x10] then v else 0)
  else if 0x2000 ≤ o ∧ o < 0x2100 then (if listed (o % 0x40) [0, 8, 0x10, 0x18, 0x20] then v else 0)
  else 0

/-- Blocks of the memory tiers: HBM and pool caches, DDR5, flash. -/
def State.tierView (s : State) (ix o : Nat) : Nat :=
  let v := s.reg (blockBase ix + o)
  let x := o % 0x10000
  match ix with
  | 0x0F =>
    if o < 0x80000 then (if x = 0x20 then s.hbRecords (o / 0x10000) else if listed x [0, 8, 0x10, 0x18, 0x28, 0x30, 0x38] then v else 0)
    else if 0x100000 ≤ o ∧ o < 0x140000 then (if listed x [0, 8, 0x10, 0x18, 0x20, 0x28, 0x30] then v else 0)
    else 0
  | 0x10 => if o < 0x40000 ∧ listed x [0, 8, 0x10, 0x18, 0x20, 0x28, 0x30] = true then v else 0
  | _ => if o = 0x40000 ∨ (o < 0x40000 ∧ listed x [0, 8, 0x10, 0x18, 0x20, 0x28] = true) then v else 0

/-- The value that a register reads. -/
def State.regView (s : State) (a : Nat) : Nat :=
  let o := blockOff a
  match blockIx a with
  | 0x00 => s.whView o
  | 0x01 => if o < 0x40000 then s.mbView (o / 0x4000) (o % 0x4000) else 0
  | 0x02 => s.pxView o
  | 0x03 => s.grView o
  | 0x04 => s.ckView o
  | 0x05 => s.pwView o
  | 0x06 => s.slView o
  | 0x0B => s.swView o
  | 0x0C =>
    if o = 0x08 then s.stStatus
    else if o = 0x10 ∨ o = 0x18 then s.reg a
    else if 0x1000 ≤ o ∧ o < 0x2000 then
      if o % 0x40 = 0x18 then s.stCacheStatus ((o - 0x1000) / 0x40) else if listed (o % 0x40) [0, 8, 0x10] then s.reg a else 0
    else 0
  | 0x0D => s.glView o
  | 0x0E => s.ceView o
  | 0x12 => s.dgView o
  | 0x0F => s.tierView 0x0F o
  | 0x10 => s.tierView 0x10 o
  | 0x11 => s.tierView 0x11 o
  | ix => if 0x07 ≤ ix ∧ ix ≤ 0x0A then s.rillView ix (o / 0x4000) (o % 0x4000) else 0

/-! ## Fields that a read clears (R13) -/

/-- RC fields of the stored register at an address: lowest bit and width. -/
def rcFields (a : Nat) : List (Nat × Nat) :=
  let o := blockOff a
  let x := o % 0x4000
  match blockIx a with
  | 0x00 => if o = 0x18 then [(0, 32)] else []
  | 0x02 => if o = 0x08 then [(0, 64)] else if o = 0x20 then [(0, 32)] else []
  | 0x03 => if o = 0x18 then [(32, 16)] else if o = 0x30 ∨ o = 0x38 then [(0, 64)] else if o = 0x40 then [(0, 32)] else []
  | 0x05 => if o = 0x30 then [(0, 24)] else []
  | 0x06 => if o = 0x10 then [(0, 32)] else []
  | 0x07 => if x = 0x10 then [(0, 48)] else []
  | 0x08 => if x = 0x58 then [(0, 32)] else []
  | 0x09 => if x = 0x48 then [(0, 32)] else []
  | 0x0A => if x = 0x38 then [(8, 8)] else if x = 0x58 then [(0, 16)] else []
  | 0x0B => if 0x10000 ≤ o ∧ o < 0x20000 then (if o % 0x40 = 8 then [(0, 64)] else if o % 0x40 = 0x18 then [(16, 16)] else []) else []
  | 0x0C => if o = 0x10 then [(0, 32)] else []
  | 0x0D =>
    if o < 0x18000 then (if o % 0x1000 = 0x18 then [(0, 64)] else if o % 0x1000 = 0x30 then [(0, 48)] else [])
    else if 0x20000 ≤ o ∧ o < 0x26000 then (if o % 0x1000 = 8 then [(0, 32)] else [])
    else if 0x30000 ≤ o ∧ o < 0x34000 then (if o % 0x1000 = 0x10 then [(0, 64)] else if o % 0x1000 = 0x18 then [(0, 32)] else [])
    else []
  | 0x0E => if 0x2000 ≤ o ∧ o < 0x2100 ∧ o % 0x40 = 0x20 then [(0, 32)] else []
  | 0x0F => if o < 0x80000 ∧ o % 0x10000 = 0x10 then [(0, 64)]
            else if 0x100000 ≤ o ∧ o % 0x10000 = 0x28 then [(0, 32)] else []
  | 0x10 => if o % 0x10000 = 0x10 then [(0, 48)] else []
  | 0x11 => if o < 0x40000 ∧ o % 0x10000 = 8 then [(0, 32)] else []
  | 0x12 => if o = 0x10 then [(32, 16)] else if o = 0x18 then [(0, 16)] else []
  | _ => []

/-- The RC fields of a register cleared, those that stand in `regs` and those that the host interface holds. -/
def State.clearRc (s : State) (a : Nat) : State :=
  let v := (rcFields a).foldl (fun v f => setBits v f.1 f.2 0) (s.reg a)
  let s := if rcFields a = [] then s else s.setReg a v
  if a = whReg 0x10 then { s with host := { s.host with cmdsDropped := 0 } }
  else if blockIx a = 1 ∧ blockOff a < 0x40000 ∧ blockOff a % 0x4000 = 0x2040 then
    s.setMailbox (blockOff a / 0x4000) { s.mailbox (blockOff a / 0x4000) with refused := 0 }
  else s

/-- A function reaches an address: PF0 every register block, a VF its own mailbox (R523, R528). -/
def reaches (fn a : Nat) : Bool :=
  inBlocks a && (decide (fn = 0) || decide (1 ≤ fn ∧ fn < 16 ∧ mbReg fn 0 ≤ a ∧ a < mbReg (fn + 1) 0))

/-- A host read of a register of 8 bytes (R13, R42). -/
def registerRead (fn a : Nat) (s : State) : State :=
  if reaches fn a then (s.emit (.readData fn a (leBytes 8 (s.regView a)) false)).clearRc a
  else { s with host := { s.host with urReads := s.host.urReads + 1 } }.emit (.unsupported fn a)

def execRegisterReadClear (fn addr : Nat) (s : State) : Host.Outcome State Fault Refusal := .next (registerRead fn addr s)

/-! ## Writes (R13, R14) -/

/-- Fields of stored registers that software sets: RW and RWS without an action of their own. -/
def rwFields (a : Nat) : List (Nat × Nat) :=
  let o := blockOff a
  match blockIx a with
  | 0x06 => if o = 0 then [(0, 16)] else []
  | 0x07 => if o % 0x4000 = 0 ∧ o < 0x1000000 then [(0, 1)] else []
  | 0x08 => if o % 0x4000 = 0 then [(0, 1)] else []
  | 0x09 => if o % 0x4000 = 0 then [(0, 1)] else []
  | 0x0B => if o = 0 then [(0, 17)] else []
  | 0x0D => if o < 0x18000 ∧ o % 0x1000 = 0 then [(2, 4)]
            else if 0x30000 ≤ o ∧ o < 0x34000 ∧ o % 0x1000 = 0 then [(0, 24)] else []
  | 0x0E => if o = 0 then [(0, 32)] else []
  | 0x0F => if o < 0x80000 ∧ o % 0x10000 = 0 then [(0, 2)]
            else if 0x100000 ≤ o ∧ o < 0x140000 ∧ o % 0x10000 = 0 then [(0, 1)] else []
  | 0x10 => if o < 0x40000 ∧ o % 0x10000 = 0 then [(0, 1)] else []
  | 0x11 => if o < 0x40000 ∧ o % 0x10000 = 0 then [(0, 1)] else []
  | 0x12 => if o = 0 then [(0, 1)] else []
  | _ => []

/-- W1C flags of stored registers: the sticky flags of AR_FLAGS and VX_FLAGS. -/
def w1cFields (a : Nat) : List Nat :=
  let x := blockOff a % 0x4000
  match blockIx a with
  | 0x08 => if x = 0x20 then [0, 1, 2, 3] else []
  | 0x09 => if x = 0x10 then [0, 1, 2, 3] else []
  | _ => []

/-- The address is that of a _FAULT register. -/
def isFault (a : Nat) : Bool :=
  let o := blockOff a
  match blockIx a with
  | 0x00 => decide (o = 0x20)
  | 0x01 => decide (o < 0x40000 ∧ o % 0x4000 = 0x2048)
  | 0x02 => decide (o = 0x28)
  | 0x03 => decide (o = 0x48)
  | 0x04 => decide (o = 0x18)
  | 0x05 => decide (o = 0x50)
  | 0x06 => decide (o = 0x18)
  | 0x07 => decide (o % 0x4000 = 0x40)
  | 0x08 => decide (o % 0x4000 = 0x60)
  | 0x09 => decide (o % 0x4000 = 0x50)
  | 0x0A => decide (o % 0x4000 = 0x40)
  | 0x0B => decide (o = 0x10)
  | 0x0C => decide (o = 0x18)
  | 0x0D => decide ((o < 0x18000 ∧ o % 0x1000 = 0x38) ∨ (0x20000 ≤ o ∧ o < 0x26000 ∧ o % 0x1000 = 0x10) ∨
      (0x30000 ≤ o ∧ o < 0x34000 ∧ o % 0x1000 = 0x20))
  | 0x0E => decide (o = 0x18)
  | 0x0F => decide ((o < 0x80000 ∧ o % 0x10000 = 0x38) ∨ (0x100000 ≤ o ∧ o < 0x140000 ∧ o % 0x10000 = 0x30))
  | 0x10 => decide (o < 0x40000 ∧ o % 0x10000 = 0x30)
  | 0x11 => decide (o < 0x40000 ∧ o % 0x10000 = 0x28)
  | _ => false

/-- A write of a _FAULT register: VALID clears the whole record, OVERRUN its own bit (R132, R287). -/
def State.writeFault (s : State) (a v : Nat) : State :=
  if bit v 32 then s.setReg a 0 else if bit v 33 then s.setReg a (setBits (s.reg a) 33 1 0) else s

/-- GL_PORT_CTRL: LANE_MASK and ENABLE are set, RETRAIN acts (R481). -/
def State.writePortCtrl (s : State) (p v : Nat) : State :=
  let s := s.setF (glLaneMask p) (bits v 2 4)
  let s := if s.getF (glEnable p) = bits v 0 1 then s else (s.setF (glEnable p) (bits v 0 1)).portEnable p (bit v 0)
  if bit v 1 then portRetrain p s else s

/-- A pending vector whose mask has gone is sent. -/
def State.msixUnmasked (s : State) (f v : Nat) : State :=
  let m := s.mailbox f
  if bit m.msixPending.toNat v && !m.masked v then
    (s.setMailbox f { m with msixPending := BitVec.ofNat 4 (setBits m.msixPending.toNat v 1 0) }).emit (.msix f v)
  else s

/-- A write into an MB_ instance (R528, R534, R558). -/
def State.writeMb (s : State) (f o : Nat) (v : W64) : State :=
  let m := s.mailbox f
  let n := v.toNat
  if o < 0x2000 then mbBankWrite f o (leBytes 8 n) false s
  else if o % 8 ≠ 0 then s
  else if 0x3000 ≤ o ∧ o < 0x3040 then
    let k := (o - 0x3000) / 8
    (s.setMailbox f { m with msixTable := m.msixTable.put k v }).msixUnmasked f (k / 2)
  else match o with
    | 0x2000 =>
      let m := { m with enable := bit n 0, order := bit n 1, fillOpen := m.fillOpen && bit n 0 }
      (s.setMailbox f m).openBank f
    | 0x2010 => mbDoorbell f v s
    | 0x2018 => if m.enable then s else s.setMailbox f { m with cqBase := BitVec.ofNat 64 (n / 4096 * 4096) }
    | 0x2020 =>
      let sz := bits n 0 5
      let m := if m.enable = false ∧ 6 ≤ sz ∧ sz ≤ 16 then { m with sizeLog2 := sz } else m
      s.setMailbox f { m with coalesceN := bits n 8 8, coalesceUs := bits n 16 16 }
    | 0x2028 => mbCqHead f v s
    | 0x2038 => if m.enable then s else s.setMailbox f { m with postedAddr := BitVec.ofNat 64 (n / 8 * 8) }
    | 0x2048 => s.writeFault (mbFault f) n
    | _ => s

/-- A write to a register by its access codes; those with an action of their own act as their rows. -/
def State.writeReg (s : State) (a : Nat) (v : W64) : State :=
  let n := v.toNat
  let o := blockOff a
  if blockIx a = 0x01 then (if o < 0x40000 then s.writeMb (o / 0x4000) (o % 0x4000) v else s)
  else if isFault a then s.writeFault a n
  else if blockIx a = 0x0A ∧ o % 0x4000 = 0 then rlOutOfServiceWrite (o / 0x4000) v s
  else if blockIx a = 0x0D ∧ o < 0x18000 ∧ o % 0x1000 = 0 then s.writePortCtrl (o / 0x1000) n
  else if a = stReg 0 then (if bit n 0 then stFlush s else s)
  else if a = grReg 0x20 then s.writeT1sCtrl n
  else if a = pwReg 8 then (if bit n 32 then { s with pwr := { s.pwr with kept := none } } else s)
  else if w1cFields a ≠ [] then s.setReg a ((w1cFields a).foldl (fun r b => if bit n b then setBits r b 1 0 else r) (s.reg a))
  else if rwFields a ≠ [] then s.setReg a ((rwFields a).foldl (fun r f => setBits r f.1 f.2 (bits n f.1 f.2)) (s.reg a))
  else s

/-- A host write of 8 bytes to a register (R13, R42). -/
def registerWrite (fn a : Nat) (v : W64) (s : State) : State := if reaches fn a then s.writeReg a v else s.dropWrite

def execRegisterWrite (fn addr : Nat) (value : BitVec 64) (s : State) : Host.Outcome State Fault Refusal :=
  .next (registerWrite fn addr value s)

end Sys2Proof.Machine
end

