-- ==== Sys2Proof/Machine/Debug.lean ====
section
/-! DEFINITION. Counter records, samplers, the event log's reader and the dump (R643 to R657). -/

namespace Sys2Proof.Machine

open Sys2Proof

/-! ## Counter records (R643 to R648) -/

/-- An entry of a record as a read returns it: entry 0 is TB, entries 41 to 63 read 0.  A snapshot in the cycle of a reset by
a command returns the value before the reset, with RESET_COINCIDENT. -/
def State.recordEntry (s : State) (k e : Nat) (snapshot : Bool) : Nat :=
  if e = 0 then s.tbNs
  else if 41 ≤ e then 0
  else match (if snapshot then s.dbg.cleared.at? k else none) with
    | some (t, old) => if t = s.now then 2 ^ 63 + old.getD e 0 else (s.dbg.records.getD k []).getD e 0
    | none => (s.dbg.records.getD k []).getD e 0

/-- The 512 bytes of a record. -/
def State.recordBytes (s : State) (k : Nat) (snapshot : Bool) : List Byte :=
  (List.range 64).flatMap (fun e => leBytes 8 (s.recordEntry k e snapshot))

/-- Entries of a record that a read now returns with RESET_COINCIDENT. -/
def State.coincident (s : State) (k : Nat) : Nat :=
  match s.dbg.cleared.at? k with
  | some (t, _) => if t = s.now then 40 else 0
  | none => 0

/-- A day record as `counters.read` writes it. -/
def DayRec.bytes (r : DayRec) : List Byte := leBytes 8 r.began ++ leBytes 8 r.total ++ leBytes 8 r.excluded ++ leBytes 8 r.lost

/-- Day record `i`: a closed day, oldest first, or 31 for the current one (R635, R647). -/
def State.dayRecord (s : State) (i : Nat) : Option DayRec :=
  if i = 31 then some s.pwr.today else if i < 31 then s.pwr.days[i]? else none

def countersReadGo (s : State) (c : Cmd) : Reply :=
  let d := c.d
  let set := dfld d 17 0 2
  let clear := dfld d 17 2 1
  let first := dfld d 20 0 16
  let count := dfld d 22 0 16
  let addr := dfld d 24 0 64
  if c.fn ≠ 0 ∧ set ≠ 0 then .fail kCmNotPrivileged c.fn
  else if dRestZero d [(16, 0, 4), (17, 0, 3), (20, 0, 16), (22, 0, 16), (24, 0, 64)] = false ∨ set = 3 ∨ addr % 64 ≠ 0 then badOperand c
  else if set = 2 then
    if count = 0 ∨ 32 < first + count then badOperand c
    else
      let l := (List.range count).filterMap (fun i => s.dayRecord (first + i))
      .ok (s.hostWrite addr (l.flatMap DayRec.bytes)) (BitVec.ofNat 64 l.length)
  else
    let k := if set = 1 then 16 else c.part
    let v := BitVec.ofNat 64 s.tbNs
    let s := s.hostWrite addr (s.recordBytes k false)
    .ok (if clear = 1 then s.clearRecord k else s) v

def countersRead (fn : Nat) (d : BitVec 512) (s : State) : State := s.runWcp ⟨false, some 0, false⟩ fn d countersReadGo

def execCountersRead (fn : Nat) (d : BitVec 512) (s : State) : Host.Outcome State Fault Refusal := .next (countersRead fn d s)

/-! ## Samplers (R649 to R652, R657) -/

/-- Key of a sampler: its partition, or 16 for the global one. -/
def samplerKey (part : Nat) (global : Bool) : Nat := if global then 16 else part

/-- A ring lies within one object of the partition. -/
def Part.ringOk (p : Part) (off n : Nat) : Bool :=
  match p.objAt off with
  | some o => decide (off + n ≤ o.1 + o.2.pages * pageBytes)
  | none => false

def sampleConfigGo (s : State) (c : Cmd) : Reply :=
  let d := c.d
  let mode := dfld d 17 0 2
  let global := decide (dfld d 17 2 1 = 1)
  let period := dfld d 20 0 32
  let ring := dfld d 24 0 44
  let n := dfld d 32 0 64
  let key := samplerKey c.part global
  let low := if mode = 1 then 1024 else 10
  if c.fn ≠ 0 ∧ global = true then .fail kCmNotPrivileged c.fn
  else if dRestZero d [(16, 0, 4), (17, 0, 3), (20, 0, 32), (24, 0, 44), (32, 0, 64)] = false ∨ mode = 3 then badOperand c
  else if mode = 0 then .ok { s with dbg := { s.dbg with samplers := s.dbg.samplers.del key } } 0
  else if period < low ∨ 2 ^ 24 < period ∨ n % 4096 ≠ 0 ∨ n < 8192 then badOperand c
  else if (s.part c.part).ringOk ring n = false then slFail kSlBadObject c.part
  else
    let x : Sampler := { mode := mode, part := c.part, period := period, ring := ring, ringBytes := n }
    let s := s.collWrite c.part ring (List.replicate 64 0)
    .ok { s with dbg := { s.dbg with samplers := s.dbg.samplers.put key x } } 0

def sampleConfig (fn : Nat) (d : BitVec 512) (s : State) : State := s.runWcp vfPart fn d sampleConfigGo

def execSampleConfig (fn : Nat) (d : BitVec 512) (s : State) : Host.Outcome State Fault Refusal := .next (sampleConfig fn d s)

/-- The sampler that takes a sample of a mode now. -/
def State.sampling (s : State) (key mode : Nat) : Option Sampler :=
  match s.dbg.samplers.at? key with
  | some x => if x.mode = mode ∧ s.getF dgSampleEn = 1 ∧ (s.part x.part).ringOk x.ring x.ringBytes = true then some x else none
  | none => none

/-- A record lands in slot WRITTEN of a ring. -/
def State.putRecord (s : State) (x : Sampler) (bs : List Byte) : State :=
  let w := s.partLe x.part x.ring 8
  let slots := (x.ringBytes - 64) / bs.length
  let s := s.collWrite x.part (x.ring + 64 + w % slots * bs.length) bs
  (s.collWrite x.part x.ring (leBytes 8 (w + 1))).addF dgRecords 1

/-- A sample is dropped: it is counted in the ring's header and in DG_SAMPLE. -/
def State.dropSample (s : State) (x : Sampler) : State :=
  let n := s.partLe x.part (x.ring + 8) 8
  (s.collWrite x.part (x.ring + 8) (leBytes 8 (n + 1))).satF dgDropped 1

/-- Sluice cause of the oldest FT operation of a thread that waits on Sluice; 0 when none does. -/
def State.threadCause (s : State) (k t : Nat) (c : Context) : Nat :=
  let l := (c.slots.vals.filter (fun z => decide (z.thr = t))).filterMap (fun z =>
    let w := s.slotWait (keyPart k) c z
    if 1 ≤ w ∧ w ≤ 5 then some (z.issued, w) else none)
  (l.foldl (fun (a : Option (Nat × Nat)) x => match a with
    | some y => if x.1 < y.1 then some x else some y
    | none => some x) none).elim 0 (fun x => x.2)

/-- The 32 bytes of a PC sample (R651). -/
def State.pcRecord (s : State) (r hw frame k t : Nat) (c : Context) (h : Thread) (freeze stall : Nat) : List Byte :=
  leBytes 8 s.tbNs ++ leBytes 8 h.pc.toNat ++ leBytes 2 r ++ leBytes 1 (pack [(0, 5, hw), (5, 2, frame)]) ++
    leBytes 1 h.st.code ++ leBytes 2 (keyNum k) ++
    leBytes 1 (pack [(0, 3, freeze), (3, 1, b2n ((s.rill r).array.owner == some k)), (4, 3, stall)]) ++
    leBytes 1 (s.threadCause k t c) ++ leBytes 4 (s.arrCycles r) ++ leBytes 4 0

/-- Hardware threads of a rill whose contexts lie in a sampler's scope. -/
def State.sampled (s : State) (r key : Nat) : List Nat :=
  (List.range 32).filter (fun h => match s.hwThread r h with
    | some (_, k, _, t) => decide (t.st ≠ .free) && (decide (key = 16) || decide (keyPart k = key))
    | none => false)

/-- A rill takes a PC sample of the next thread in turn; none while HELD. -/
def pcSample (r part : Nat) (global : Bool) (freeze stall : Nat) (full : Bool) (s : State) : State :=
  let key := samplerKey part global
  match s.sampling key 1 with
  | none => s
  | some x =>
    if 1024 ≤ r ∨ s.pwr.held = true then s
    else
      let l := s.sampled r key
      let ptr := s.dbg.rotors.getD (key * 1024 + r) 0
      match (match l.find? (fun h => decide (ptr ≤ h)) with | some h => some h | none => l.head?) with
      | none => s
      | some hw =>
        let s := { s with dbg := { s.dbg with rotors := s.dbg.rotors.put (key * 1024 + r) ((hw + 1) % 32) } }
        if full then s.dropSample x
        else match s.hwThread r hw with
          | some (f, k, c, h) => s.putRecord x (s.pcRecord r hw f k (c.threads.findIdx (fun t => decide (t.hw = hw))) c h freeze stall)
          | none => s

def execPcSample (rill part : Nat) (global : Bool) (freeze stall : BitVec 3) (full : Bool) (s : State) :
    Host.Outcome State Fault Refusal := .next (pcSample rill part global freeze.toNat stall.toNat full s)

/-- A counter snapshot of a sampler's record. -/
def counterSnapshot (part : Nat) (global : Bool) (s : State) : State :=
  let key := samplerKey part global
  match s.sampling key 2 with
  | none => s
  | some x => (s.putRecord x (s.recordBytes key true)).satF dgCoincident (s.coincident key)

def execCounterSnapshot (part : Nat) (global : Bool) (s : State) : Host.Outcome State Fault Refusal := .next (counterSnapshot part global s)

/-! ## The event log (R579, R653) -/

/-- The 32 bytes of an entry. -/
def LogEntry.bytes (e : LogEntry) : List Byte :=
  leBytes 8 e.tb ++ leBytes 4 e.seq ++ leBytes 4 e.flint.toNat ++ leBytes 1 e.partition ++ leBytes 1 e.function ++
    leBytes 2 e.count ++ leBytes 12 e.detail.toNat

/-- Every entry that is kept, oldest first: those only in the NOR log, then those in SRAM. -/
def State.allEntries (s : State) : List LogEntry :=
  (match s.grotto.log.head? with
    | some h => s.grotto.norLog.filter (fun e => seqNewer h.seq e.seq)
    | none => s.grotto.norLog) ++ s.grotto.log

/-- Examine entries until `n` have been taken: those taken, and the SEQ after the last one examined. -/
def examine (ok : LogEntry → Bool) : Nat → Nat → List LogEntry → List LogEntry × Nat
  | 0, next, _ => ([], next)
  | _ + 1, next, [] => ([], next)
  | n + 1, _, e :: t =>
    if ok e then
      let x := examine ok n ((e.seq + 1) % 2 ^ 32) t
      (e :: x.1, x.2)
    else examine ok (n + 1) ((e.seq + 1) % 2 ^ 32) t

def logReadGo (s : State) (c : Cmd) : Reply :=
  let d := c.d
  let first := dfld d 20 0 32
  let count := dfld d 24 0 16
  let sev := dfld d 26 0 4
  let addr := dfld d 32 0 64
  if dRestZero d [(20, 0, 32), (24, 0, 16), (26, 0, 4), (32, 0, 64)] = false ∨ count = 0 ∨ 4096 < count ∨ addr % 32 ≠ 0 then badOperand c
  else
    let l := s.allEntries.filter (fun e => decide (e.seq = first) || seqNewer e.seq first)
    let ok := fun (e : LogEntry) => decide (sev ≤ codeSev e.flint) && (decide (c.fn = 0) || decide (e.partition = c.part))
    let x := examine ok count first l
    .ok (s.hostWrite addr (x.1.flatMap LogEntry.bytes)) (BitVec.ofNat 64 (x.1.length + x.2 * 2 ^ 32))

def logRead (fn : Nat) (d : BitVec 512) (s : State) : State := s.runWcp vfNone fn d logReadGo

def execLogRead (fn : Nat) (d : BitVec 512) (s : State) : Host.Outcome State Fault Refusal := .next (logRead fn d s)

/-! ## The dump (R654, R655) -/

/-- Size of a section, and whether its INDEX is a rill. -/
def dumpSection : Nat → Option (Nat × Bool)
  | 0 => some (0x1000, false)
  | 1 => some (0x40000, false)
  | 2 => some (0x20000, true)
  | 3 => some (0x100000, true)
  | 4 => some (0x10000, false)
  | 5 => some (0x20000, false)
  | _ => none

/-- Byte `n` of a number. -/
def byteOf (v n : Nat) : Byte := BitVec.ofNat 8 (v / 256 ^ n)

/-- A byte of a rill's section: register images, and the accumulator sets; the layouts of the rest are not given. -/
def State.dumpRill (s : State) (r off : Nat) : Option Byte :=
  if off < 0x400 then
    let ix := [0x0A, 0x08, 0x09, 0x07].getD (off / 256) 0
    some (byteOf (s.regView (blockBase ix + r * 0x4000 + off % 256 / 8 * 8)) (off % 8))
  else if off < 0xBD80 ∨ (0xBE00 ≤ off ∧ off < 0xC600) then none
  else if 0x10000 ≤ off ∧ off < 0x14000 then some (byteOf ((s.rill r).array.acc0.getD ((off - 0x10000) / 4) 0).toNat (off % 4))
  else if 0x14000 ≤ off ∧ off < 0x18000 then some (byteOf ((s.rill r).array.acc1.getD ((off - 0x14000) / 4) 0).toNat (off % 4))
  else some 0

/-- A byte of a section; nothing where its layout is not given. -/
def State.dumpKnown (s : State) (sec ix off : Nat) : Option Byte :=
  match sec with
  | 2 => s.dumpRill ix off
  | 3 => some (if (s.rill ix).poison.contains (off / 4 * 4) then 0 else Memory.read s.mem.cells (spadBase ix + off))
  | 5 => some (match s.grotto.log[off / 32]? with
      | some e => e.bytes.getD (off % 32) 0
      | none => 0)
  | _ => none

/-- A range of a section of the frozen state; a byte whose place R655 does not give is a free value. -/
def State.dumpBytes (s : State) (sec ix off n : Nat) : List Byte :=
  (List.range n).map (fun i => (s.dumpKnown sec ix (off + i)).getD (Config.dumpByte s.free sec ix (off + i)))

def dumpReadGo (s : State) (c : Cmd) : Reply :=
  let d := c.d
  let sec := dfld d 17 0 8
  let ix := dfld d 18 0 16
  let addr := dfld d 24 0 64
  let off := dfld d 32 0 32
  let n := dfld d 36 0 32
  if s.pwr.held = false then .fail kCmBadState c.fn
  else if dRestZero d [(17, 0, 8), (18, 0, 16), (24, 0, 64), (32, 0, 32), (36, 0, 32)] = false then badOperand c
  else match dumpSection sec with
    | none => badOperand c
    | some (size, perRill) =>
      if n % 64 ≠ 0 ∨ 0x100000 < n ∨ size < off + n ∨ (if perRill then 1024 else 1) ≤ ix then badOperand c
      else .ok ((s.fresh).hostWrite addr (s.dumpBytes sec ix off n)) (BitVec.ofNat 64 n)

def dumpRead (fn : Nat) (d : BitVec 512) (s : State) : State := s.runWcp pfNone fn d dumpReadGo

def execDumpRead (fn : Nat) (d : BitVec 512) (s : State) : Host.Outcome State Fault Refusal := .next (dumpRead fn d s)

end Sys2Proof.Machine
end

