-- ==== Sys2Proof/Machine/Take.lean ====
section
/-! DEFINITION. The Wellhead takes a descriptor from a bank, or Grotto one from a secured session; checks it; and starts the
commands whose turn has come (R530 to R532, R535 to R540, R588, R589). -/

namespace Sys2Proof.Machine

open Sys2Proof

/-! ## Opcodes (R539) -/

/-- What runs a command: the issuers of its opcode, and its handler.  Every NOR operation that a command taken here makes
succeeds; one that fails is an operand of the command's own row. -/
def handlerOf (op : Nat) : Option (Issuer × (State → Cmd → Reply)) :=
  match op with
  | 0x0101 => some (⟨true, some 0, false⟩, partitionCreateGo)
  | 0x0102 => some (⟨true, some 0, false⟩, partitionResizeGo)
  | 0x0103 => some (pfPart, partitionDestroyGo)
  | 0x0104 => some (vfPart, partitionQueryGo)
  | 0x0201 => some (vfPart, objectDeclareGo)
  | 0x0202 => some (vfPart, objectFreeGo)
  | 0x0203 => some (vfPart, objectHintGo)
  | 0x0204 => some (vfPart, objectMoveGo)
  | 0x0205 => some (vfPart, objectQueryGo)
  | 0x0206 => some (pfPart, quotaSetGo)
  | 0x0301 => some (vfPart, imageGo)
  | 0x0302 => some (vfPart, imageGo)
  | 0x0303 => some (vfPart, imageGo)
  | 0x0401 => some (vfPart, graphLoadGo)
  | 0x0402 => some (vfPart, graphLaunchGo)
  | 0x0403 => some (vfPart, graphPreemptGo)
  | 0x0404 => some (pfPart, scheduleTableSetGo)
  | 0x0405 => some (vfPart, stepFenceGo)
  | 0x0501 => some (streamOpenRow, streamOpenGo)
  | 0x0502 => some (vfNone, streamCloseGo)
  | 0x0503 => some (vfNone, streamUpdateGo)
  | 0x0504 => some (vfNone, streamQueryGo)
  | 0x0601 => some (vfPart, groupCreateGo)
  | 0x0602 => some (vfPart, collLaunchGo)
  | 0x0603 => some (vfPart, collReshardGo)
  | 0x0604 => some (vfPart, collAbortGo)
  | 0x0701 => some (pfNone, fabricDiscoverGo)
  | 0x0702 => some (pfNone, fabricAssignGo)
  | 0x0703 => some (pfNone, fabricRouteSetGo)
  | 0x0704 => some (pfNone, fabricSpareEnableGo)
  | 0x0705 => some (pfNone, handoverGo)
  | 0x0801 => some (vfPart, normsReadGo)
  | 0x0802 => some (vfPart, rngKeySetGo)
  | 0x0803 => some (vfPart, bucketConfigGo)
  | 0x0901 => some (pfNone, powerCapSetGo)
  | 0x0902 => some (pfNone, oppSetGo)
  | 0x0903 => some (pfNone, droopConfigGo)
  | 0x0A01 => some (⟨false, some 0, false⟩, countersReadGo)
  | 0x0A02 => some (vfPart, sampleConfigGo)
  | 0x0A03 => some (pfNone, dumpReadGo)
  | 0x0A04 => some (vfNone, logReadGo)
  | 0x0B01 => some (pfNone, fwStageGo true)
  | 0x0B02 => some (pfNone, fwActivateGo)
  | 0x0B03 => some (pfNone, slateWriteGo true)
  | 0x0B04 => some (pfNone, resetComputeGo)
  | 0x0B05 => some (pfNone, resetCascadeGo)
  | 0x0B06 => some (pfNone, serviceReturnGo)
  | _ =>
    if op = 0x0C00 ∨ op = 0x0C01 then some (pfNone, spdmGo)
    else if 0x0C02 ≤ op ∧ op ≤ 0x0CFF then some (pfNone, fun _ c => badOperand c)
    else none

/-! ## Starting commands (R535, R538) -/

/-- Opcodes that a secured session may carry (R588). -/
def sessionOp (op : Nat) : Bool := [0x0A01, 0x0A04, 0x0A03, 0x0901, 0x0B01, 0x0B02, 0x0B03, 0x0B04, 0x0B06, 0x0701].contains op

/-- Inline data that a command reads: HADDR and LENGTH of its input. -/
def sessionInput (d : BitVec 512) : Option (Nat × Nat) :=
  match dOpcode d with
  | 0x0B01 => some (dfld d 24 0 64, dfld d 36 0 32)
  | 0x0B03 => some (dfld d 24 0 64, dfld d 32 0 32)
  | _ => none

/-- Inline data that a command writes: HADDR, and its length by the command's RESULT. -/
def sessionOutput (d : BitVec 512) (result : Nat) : Option (Nat × Nat) :=
  match dOpcode d with
  | 0x0A01 => some (dfld d 24 0 64, if dfld d 17 0 2 = 2 then 32 * result else 512)
  | 0x0A03 => some (dfld d 24 0 64, result)
  | 0x0A04 => some (dfld d 32 0 64, 32 * (result % 2 ^ 32))
  | 0x0701 => some (dfld d 24 0 64, 1536)
  | _ => none

/-- The state with other host memory behind its HADDR operands. -/
def State.withHost (s : State) (h : List Host.Cell) : State := { s with mem := { s.mem with host := h } }

/-- Start a command of a session: its HADDR operands name the inline data of the request and of the response. -/
def State.startSession (s : State) (c : Cmd) (n : Nat) (inl : List Byte) (handler : State → Cmd → Reply) : State :=
  let s := s.updCmd c.order (fun c => { c with started := true })
  let host := s.mem.host
  let short := match sessionInput c.d with
    | some (a, len) => decide (inl.length < a + len)
    | none => false
  let uses := (sessionInput c.d).isSome || (sessionOutput c.d 0).isSome
  if short then s.failCmd c kCmBadOperand c.fn c.part
  else match handler (if uses then s.withHost (if (sessionInput c.d).isSome then Memory.writeN [] 0 inl else []) else s) { c with started := true } with
    | .ok t v =>
      match sessionOutput c.d v.toNat with
      | some (a, len) =>
        if 1024 < a + len then s.failCmd c kCmBadOperand c.fn c.part
        else ((t.withHost host).dropCmd c.order).emit (.secured n 0 (dTag c.d) v (Memory.readN t.mem.host 0 (a + len)))
      | none => (if uses then t.withHost host else t).finish c 0 v
    | .fail k i => s.failCmd c k i c.part
    | .failed t k i v => (if uses then t.withHost host else t).failCmd c k i c.part v
    | .wait t => if uses then t.withHost host else t

/-- Start a command in progress when its turn has come. -/
def State.startTurn (s : State) (c : Cmd) : State :=
  if c.started || !s.canStart c || s.pwr.resetting.isSome then s
  else match handlerOf (dOpcode c.d), c.session with
    | some (_, h), some (n, inl) => s.startSession c n inl h
    | some (i, h), none => s.startCmd i c h
    | none, _ => s

/-- Every command whose turn has come starts, in the order taken. -/
def State.startReady (s : State) : State :=
  (s.host.inProgress.map (fun c => c.order)).foldl (fun (s : State) o =>
    match s.host.inProgress.find? (fun c => decide (c.order = o)) with
    | some c => s.startTurn c
    | none => s) s

/-- Checks 1 to 3 of R537. -/
def headCheck (d : BitVec 512) : Option Cause :=
  if dCrcOk d = false then some kCmDescCrc
  else if dVersion d ≠ 0x0302 ∨ dHeaderOk d = false then some kCmBadVersion
  else if (handlerOf (dOpcode d)).isNone then some kCmBadOpcode
  else none

/-- The issuers of a descriptor's opcode. -/
def issuerOf (d : BitVec 512) : Issuer := match handlerOf (dOpcode d) with | some (i, _) => i | none => pfNone

/-- The command that has just joined fails with a cause, or starts when its turn has come. -/
def State.admitCmd (s : State) (k : Option Cause) : State :=
  match s.host.inProgress.getLast? with
  | none => s
  | some c =>
    match k with
    | some k => s.failCmd c k c.fn c.part
    | none => s.startTurn c

/-! ## Taking a descriptor (R530 to R532, R535, R537) -/

/-- Functions with an untaken descriptor that can be taken, ascending. -/
def State.takeable (s : State) : List Nat :=
  (List.range 16).filter (fun f => (!(s.mailbox f).pendA.isEmpty || !(s.mailbox f).pendB.isEmpty) && s.canTake f)

/-- The bank whose descriptors come first: true for B. -/
def Mailbox.firstBank (m : Mailbox) : Bool := m.pendA.isEmpty || (m.bFirst && !m.pendB.isEmpty)

def Mailbox.pend (m : Mailbox) (b : Bool) : List Nat := if b then m.pendB else m.pendA

/-- The slot that comes first in a bank: the lowest, or under PRIORITY the lowest of the highest PRIO. -/
def Mailbox.firstSlot (m : Mailbox) (b : Bool) : Nat :=
  let l := m.pend b
  let prio := fun (i : Nat) => dPrio ((m.bank b).getD i 0)
  if m.order then l.foldl (fun best i => if prio best < prio i then i else best) (l.headD 0) else l.headD 0

/-- A slot leaves its bank; the bank it empties is the fill bank when the other one is not open (R530). -/
def Mailbox.leave (m : Mailbox) (b : Bool) (slot : Nat) : Mailbox :=
  let l := (m.pend b).filter (fun i => decide (i ≠ slot))
  let m := if b then { m with pendB := l } else { m with pendA := l }
  if l.isEmpty && !(m.pend m.fill).isEmpty then { m with fill := b } else m

/-- A word of the slot was written by a poisoned TLP. -/
def Mailbox.wordBad (m : Mailbox) (b : Bool) (slot w : Nat) : Bool := m.bad.contains (badKey b slot w)

/-- The descriptor with the TAG of one that could not be read, and without IRQ. -/
def tagUnread (d : BitVec 512) : BitVec 512 := BitVec.ofNat 512 (setBits (setBits d.toNat 18 1 0) 32 32 0xFFFFFFFD)

/-- Act on the descriptor of a slot of function `f`: it was read clean, or a word of it could not be corrected. -/
def State.takeSlot (s : State) (f slot : Nat) (d : BitVec 512) (bad tagLost : Bool) : State :=
  if !tagLost && tagReserved d then s.raise kWhBadTag f { fn := f, detail := f + 256 * slot }
  else
    let d := if tagLost then tagUnread d else d
    if bad then
      let s := s.take (issuerOf d) f d
      match s.host.inProgress.getLast? with
      | some c => s.failCmd c kWhDescEcc f c.part
      | none => s
    else
      let i := issuerOf d
      let k := match headCheck d with
        | some k => some k
        | none => s.gate i f d
      ((s.take i f d).admitCmd k).startReady

/-- The Wellhead takes the next descriptor. -/
def descriptorTake (ecc : EccResult) (tagLost : Bool) (s : State) : State :=
  let l := s.takeable
  match (match l.find? (fun f => decide (s.host.rotor ≤ f)) with | some f => some f | none => l.head?) with
  | none => s
  | some f =>
    let m := s.mailbox f
    let b := m.firstBank
    let slot := m.firstSlot b
    let d := (m.bank b).getD slot 0
    let poisoned := (List.range 8).any (fun w => m.wordBad b slot w)
    let bad := poisoned || decide (ecc = .uncorrected)
    let lost := m.wordBad b slot 0 || (decide (ecc = .uncorrected) && tagLost)
    let s := (s.setMailbox f (m.leave b slot)).openBank f
    let s := { s with host := { s.host with rotor := (f + 1) % 16 } }
    let s := if ecc = .corrected ∨ ecc = .ondieCorrected then s.raise kWhBankCorrected f { fn := f } else s
    s.takeSlot f slot d bad lost

def execDescriptorTake (ecc : EccResult) (tagLost : Bool) (s : State) : Host.Outcome State Fault Refusal :=
  .next (descriptorTake ecc tagLost s)

/-! ## Secured messages (R588, R589) -/

/-- An identify request of 8 bytes. -/
def State.identifyRequest (s : State) (n : Nat) (plain : List Byte) : State :=
  let on := fieldOf plain 4 1
  let secs := fieldOf plain 5 1
  if fieldOf plain 0 4 ≠ 0x49445431 ∨ 1 < on ∨ fieldOf plain 6 2 ≠ 0 then s.emit (.secured n (kCmBadOperand.flint 0) 0 0 [])
  else
    let v := if on = 1 then some (if secs = 0 then 0 else s.now + nsU (secs * 1000000000)) else none
    { s with grotto := { s.grotto with identify := v } }.emit (.secured n 0 0 (BitVec.ofNat 64 on) [])

/-- A descriptor of a session is treated as from PF0, for the opcodes of R588 only. -/
def State.sessionCommand (s : State) (n : Nat) (d : BitVec 512) (inl : List Byte) : State :=
  if tagReserved d then s.raise kWhBadTag 0 { fn := 0 }
  else
    let i := issuerOf d
    let k := match headCheck d with
      | some k => some k
      | none => if sessionOp (dOpcode d) then s.gate i 0 d else some kCmNotPrivileged
    ((s.enroll i 0 d (some (n, inl))).admitCmd k).startReady

/-- The plaintext of a secured message. -/
def secured (n : Nat) (plain : List Byte) (s : State) : State :=
  if s.portOn = false then s
  else if s.grottoRuns = false ∨ (s.grotto.sessions.at? n).isNone = true ∨ (plain.length ≠ 8 ∧ (plain.length < 64 ∨ 1088 < plain.length)) then
    s.satF (grT1sDrop 3) 1
  else
    let s := { s with grotto := { s.grotto with sessions := s.grotto.sessions.put n s.now } }
    if plain.length = 8 then s.identifyRequest n plain
    else s.sessionCommand n (BitVec.ofNat 512 (leNat (plain.take 64))) (plain.drop 64)

def execSecured (session : Nat) (plain : List Byte) (s : State) : Host.Outcome State Fault Refusal := .next (secured session plain s)

end Sys2Proof.Machine
end

