-- ==== Sys2Proof/Machine/Dispatch.lean ====
section
/-! DEFINITION. One arm per command: its meaning, or its refusal by name. -/

namespace Sys2Proof.Machine

open Sys2Proof

def exec (i : Instr) (s : State) : Host.Outcome State Fault Refusal :=
  match i with
  | .nop x cls op => Sys2Proof.Machine.execNop x cls op s
  | .add x => Sys2Proof.Machine.execAdd x s
  | .sub x => Sys2Proof.Machine.execSub x s
  | .mul x => Sys2Proof.Machine.execMul x s
  | .mulhu x => Sys2Proof.Machine.execMulhu x s
  | .mulh x => Sys2Proof.Machine.execMulh x s
  | .divu x => Sys2Proof.Machine.execDivu x s
  | .remu x => Sys2Proof.Machine.execRemu x s
  | .and x => Sys2Proof.Machine.execAnd x s
  | .or x => Sys2Proof.Machine.execOr x s
  | .xor x => Sys2Proof.Machine.execXor x s
  | .shl x => Sys2Proof.Machine.execShl x s
  | .shr x => Sys2Proof.Machine.execShr x s
  | .sra x => Sys2Proof.Machine.execSra x s
  | .min x => Sys2Proof.Machine.execMin x s
  | .max x => Sys2Proof.Machine.execMax x s
  | .li x => Sys2Proof.Machine.execLi x s
  | .lih x => Sys2Proof.Machine.execLih x s
  | .sel x => Sys2Proof.Machine.execSel x s
  | .setpEq x => Sys2Proof.Machine.execSetpEq x s
  | .setpNe x => Sys2Proof.Machine.execSetpNe x s
  | .setpLt x => Sys2Proof.Machine.execSetpLt x s
  | .setpLtu x => Sys2Proof.Machine.execSetpLtu x s
  | .setpLe x => Sys2Proof.Machine.execSetpLe x s
  | .setpLeu x => Sys2Proof.Machine.execSetpLeu x s
  | .pand x => Sys2Proof.Machine.execPand x s
  | .por x => Sys2Proof.Machine.execPor x s
  | .pxor x => Sys2Proof.Machine.execPxor x s
  | .pnot x => Sys2Proof.Machine.execPnot x s
  | .br x => Sys2Proof.Machine.execBr x s
  | .jal x => Sys2Proof.Machine.execJal x s
  | .jr x => Sys2Proof.Machine.execJr x s
  | .rdsr x => Sys2Proof.Machine.execRdsr x s
  | .icacheFill part ctx thr => Sys2Proof.Machine.execIcacheFill part ctx thr s
  | .ldB x free => Sys2Proof.Machine.execLdB x free s
  | .ldH x free => Sys2Proof.Machine.execLdH x free s
  | .ldW x free => Sys2Proof.Machine.execLdW x free s
  | .ldD x free => Sys2Proof.Machine.execLdD x free s
  | .ldBs x free => Sys2Proof.Machine.execLdBs x free s
  | .ldHs x free => Sys2Proof.Machine.execLdHs x free s
  | .ldWs x free => Sys2Proof.Machine.execLdWs x free s
  | .stB x free => Sys2Proof.Machine.execStB x free s
  | .stH x free => Sys2Proof.Machine.execStH x free s
  | .stW x free => Sys2Proof.Machine.execStW x free s
  | .stD x free => Sys2Proof.Machine.execStD x free s
  | .atomAddW x free => Sys2Proof.Machine.execAtomAddW x free s
  | .atomAddD x free => Sys2Proof.Machine.execAtomAddD x free s
  | .atomAddF x free => Sys2Proof.Machine.execAtomAddF x free s
  | .atomSwapW x free => Sys2Proof.Machine.execAtomSwapW x free s
  | .atomSwapD x free => Sys2Proof.Machine.execAtomSwapD x free s
  | .lsBankGrant rill bank => Sys2Proof.Machine.execLsBankGrant rill bank s
  | .mxCfg x => Sys2Proof.Machine.execMxCfg x s
  | .mxLoad x => Sys2Proof.Machine.execMxLoad x s
  | .mxStream x => Sys2Proof.Machine.execMxStream x s
  | .mxInit x => Sys2Proof.Machine.execMxInit x s
  | .mxAcquire x => Sys2Proof.Machine.execMxAcquire x s
  | .mxRelease x => Sys2Proof.Machine.execMxRelease x s
  | .mxPassStart rill => Sys2Proof.Machine.execMxPassStart rill s
  | .passCommitted rill => Sys2Proof.Machine.execPassCommitted rill s
  | .arrayStopRequest rill stepsDone => Sys2Proof.Machine.execArrayStopRequest rill stepsDone s
  | .arraySelfCheckDone rill passed => Sys2Proof.Machine.execArraySelfCheckDone rill passed s
  | .cellCorrected rill cause => Sys2Proof.Machine.execCellCorrected rill cause s
  | .cellUncorrected rill => Sys2Proof.Machine.execCellUncorrected rill s
  | .feederUncorrected rill => Sys2Proof.Machine.execFeederUncorrected rill s
  | .accUncorrected rill set entry reader => Sys2Proof.Machine.execAccUncorrected rill set entry reader s
  | .vxEw x => Sys2Proof.Machine.execVxEw x s
  | .vxFma x => Sys2Proof.Machine.execVxFma x s
  | .vxCvt x => Sys2Proof.Machine.execVxCvt x s
  | .vxRed x => Sys2Proof.Machine.execVxRed x s
  | .vxCompress x => Sys2Proof.Machine.execVxCompress x s
  | .vxExpand x => Sys2Proof.Machine.execVxExpand x s
  | .vxRng x => Sys2Proof.Machine.execVxRng x s
  | .vxOpt x => Sys2Proof.Machine.execVxOpt x s
  | .vxStart rill => Sys2Proof.Machine.execVxStart rill s
  | .vxComplete rill => Sys2Proof.Machine.execVxComplete rill s
  | .vxStopRequest part ctx => Sys2Proof.Machine.execVxStopRequest part ctx s
  | .vxSelfCheckDone rill passed => Sys2Proof.Machine.execVxSelfCheckDone rill passed s
  | .laneUncorrected rill cause beat => Sys2Proof.Machine.execLaneUncorrected rill cause beat s
  | .ftGet x => Sys2Proof.Machine.execFtGet x s
  | .ftPut x => Sys2Proof.Machine.execFtPut x s
  | .ftAddw x => Sys2Proof.Machine.execFtAddw x s
  | .ftAmoAdd x => Sys2Proof.Machine.execFtAmoAdd x s
  | .ftAmoSwap x => Sys2Proof.Machine.execFtAmoSwap x s
  | .ftCompletion tag status value data sealBad => Sys2Proof.Machine.execFtCompletion tag status value data sealBad s
  | .remoteTimeout part ctx slot => Sys2Proof.Machine.execRemoteTimeout part ctx slot s
  | .syFence x => Sys2Proof.Machine.execSyFence x s
  | .syWait x => Sys2Proof.Machine.execSyWait x s
  | .sySlot x => Sys2Proof.Machine.execSySlot x s
  | .syBar x => Sys2Proof.Machine.execSyBar x s
  | .sySteal x => Sys2Proof.Machine.execSySteal x s
  | .syYield x => Sys2Proof.Machine.execSyYield x s
  | .syHalt x => Sys2Proof.Machine.execSyHalt x s
  | .tileHandover part ctx thr => Sys2Proof.Machine.execTileHandover part ctx thr s
  | .tileListRefill part launch rill => Sys2Proof.Machine.execTileListRefill part launch rill s
  | .frqOverflowMove cascade => Sys2Proof.Machine.execFrqOverflowMove cascade s
  | .regCorrected rill => Sys2Proof.Machine.execRegCorrected rill s
  | .regUncorrected rill => Sys2Proof.Machine.execRegUncorrected rill s
  | .scratchpadUncorrected rill off reader => Sys2Proof.Machine.execScratchpadUncorrected rill off reader s
  | .scratchpadCorrected rill off byScrubber => Sys2Proof.Machine.execScratchpadCorrected rill off byScrubber s
  | .bankReplaced rill bank => Sys2Proof.Machine.execBankReplaced rill bank s
  | .scrubRead rill bank => Sys2Proof.Machine.execScrubRead rill bank s
  | .regionZeroed part ctx => Sys2Proof.Machine.execRegionZeroed part ctx s
  | .streamOpen fn d => Sys2Proof.Machine.execStreamOpen fn d s
  | .streamClose fn d => Sys2Proof.Machine.execStreamClose fn d s
  | .streamUpdate fn d => Sys2Proof.Machine.execStreamUpdate fn d s
  | .streamQuery fn d => Sys2Proof.Machine.execStreamQuery fn d s
  | .streamCacheFill cascade stream => Sys2Proof.Machine.execStreamCacheFill cascade stream s
  | .entryUncorrected stream copyOf => Sys2Proof.Machine.execEntryUncorrected stream copyOf s
  | .stFlush => Sys2Proof.Machine.execStFlush s
  | .partitionCreate fn d => Sys2Proof.Machine.execPartitionCreate fn d s
  | .partitionResize fn d => Sys2Proof.Machine.execPartitionResize fn d s
  | .partitionDestroy fn d => Sys2Proof.Machine.execPartitionDestroy fn d s
  | .partitionQuery fn d => Sys2Proof.Machine.execPartitionQuery fn d s
  | .resizeComplete part => Sys2Proof.Machine.execResizeComplete part s
  | .graphLoad fn d => Sys2Proof.Machine.execGraphLoad fn d s
  | .graphLaunch fn d => Sys2Proof.Machine.execGraphLaunch fn d s
  | .graphPreempt fn d => Sys2Proof.Machine.execGraphPreempt fn d s
  | .scheduleTableSet fn d => Sys2Proof.Machine.execScheduleTableSet fn d s
  | .stepFence fn d => Sys2Proof.Machine.execStepFence fn d s
  | .launchStepBoundary part launch => Sys2Proof.Machine.execLaunchStepBoundary part launch s
  | .phaseRelease part launch => Sys2Proof.Machine.execPhaseRelease part launch s
  | .gateCheck part launch => Sys2Proof.Machine.execGateCheck part launch s
  | .slotStart part => Sys2Proof.Machine.execSlotStart part s
  | .scheduleTableEffect part => Sys2Proof.Machine.execScheduleTableEffect part s
  | .contextStopRequest part ctx latency => Sys2Proof.Machine.execContextStopRequest part ctx latency s
  | .contextSaveComplete part ctx => Sys2Proof.Machine.execContextSaveComplete part ctx s
  | .contextRestore rill => Sys2Proof.Machine.execContextRestore rill s
  | .contextRestoreComplete part ctx => Sys2Proof.Machine.execContextRestoreComplete part ctx s
  | .blockedSwap rill => Sys2Proof.Machine.execBlockedSwap rill s
  | .dequeUncorrected part launch rill => Sys2Proof.Machine.execDequeUncorrected part launch rill s
  | .locationUncorrected part ctx => Sys2Proof.Machine.execLocationUncorrected part ctx s
  | .rlOutOfService rill value => Sys2Proof.Machine.execRlOutOfService rill value s
  | .hbmSelfRefreshEntry stack => Sys2Proof.Machine.execHbmSelfRefreshEntry stack s
  | .hbmScrubRead stack off r => Sys2Proof.Machine.execHbmScrubRead stack off r s
  | .hbmUncorrected stack off => Sys2Proof.Machine.execHbmUncorrected stack off s
  | .hbmRowRepair stack off spareLeft => Sys2Proof.Machine.execHbmRowRepair stack off spareLeft s
  | .ddrScrubRead conn off r => Sys2Proof.Machine.execDdrScrubRead conn off r s
  | .ddrUncorrected conn off => Sys2Proof.Machine.execDdrUncorrected conn off s
  | .flashSectorWriteDone page sector data => Sys2Proof.Machine.execFlashSectorWriteDone page sector data s
  | .flashUncorrected page sector => Sys2Proof.Machine.execFlashUncorrected page sector s
  | .disturbRefresh slice block => Sys2Proof.Machine.execDisturbRefresh slice block s
  | .flashPatrol slice block weak => Sys2Proof.Machine.execFlashPatrol slice block weak s
  | .blockRetired slice block => Sys2Proof.Machine.execBlockRetired slice block s
  | .poolCacheFill part addr => Sys2Proof.Machine.execPoolCacheFill part addr s
  | .pcAddw tag parcel => Sys2Proof.Machine.execPcAddw tag parcel s
  | .pcAmo tag => Sys2Proof.Machine.execPcAmo tag s
  | .pcFlush part off len => Sys2Proof.Machine.execPcFlush part off len s
  | .pcScrub addr r => Sys2Proof.Machine.execPcScrub addr r s
  | .pcUncorrected addr => Sys2Proof.Machine.execPcUncorrected addr s
  | .hostWindowRead addr len => Sys2Proof.Machine.execHostWindowRead addr len s
  | .hostWindowWrite addr data => Sys2Proof.Machine.execHostWindowWrite addr data s
  | .objectDeclare fn d => Sys2Proof.Machine.execObjectDeclare fn d s
  | .objectFree fn d => Sys2Proof.Machine.execObjectFree fn d s
  | .objectHint fn d => Sys2Proof.Machine.execObjectHint fn d s
  | .objectMove fn d => Sys2Proof.Machine.execObjectMove fn d s
  | .objectQuery fn d => Sys2Proof.Machine.execObjectQuery fn d s
  | .quotaSet fn d => Sys2Proof.Machine.execQuotaSet fn d s
  | .imageLoad fn d => Sys2Proof.Machine.execImageLoad fn d s
  | .imageFetchPeer fn d => Sys2Proof.Machine.execImageFetchPeer fn d s
  | .imageBroadcast fn d => Sys2Proof.Machine.execImageBroadcast fn d s
  | .imageRecord part obj k record second => Sys2Proof.Machine.execImageRecord part obj k record second s
  | .peerTimeout part obj => Sys2Proof.Machine.execPeerTimeout part obj s
  | .broadcastAbort part obj => Sys2Proof.Machine.execBroadcastAbort part obj s
  | .translationMissFill die part off => Sys2Proof.Machine.execTranslationMissFill die part off s
  | .pageFirstAllocation part off => Sys2Proof.Machine.execPageFirstAllocation part off s
  | .pageStagingDone part off => Sys2Proof.Machine.execPageStagingDone part off s
  | .pageWriteBackDone part off => Sys2Proof.Machine.execPageWriteBackDone part off s
  | .pageMove part off => Sys2Proof.Machine.execPageMove part off s
  | .pageMoveDone part off => Sys2Proof.Machine.execPageMoveDone part off s
  | .backgroundReclaim part tier => Sys2Proof.Machine.execBackgroundReclaim part tier s
  | .quotaStarved part ctx slot => Sys2Proof.Machine.execQuotaStarved part ctx slot s
  | .bucketConfig fn d => Sys2Proof.Machine.execBucketConfig fn d s
  | .normsRead fn d => Sys2Proof.Machine.execNormsRead fn d s
  | .rngKeySet fn d => Sys2Proof.Machine.execRngKeySet fn d s
  | .bucketClose part bucket => Sys2Proof.Machine.execBucketClose part bucket s
  | .bucketFlushed part bucket => Sys2Proof.Machine.execBucketFlushed part bucket s
  | .bucketReduced part bucket => Sys2Proof.Machine.execBucketReduced part bucket s
  | .rangePermute part launch range => Sys2Proof.Machine.execRangePermute part launch range s
  | .signalDetect port => Sys2Proof.Machine.execSignalDetect port s
  | .trainingComplete port lanes => Sys2Proof.Machine.execTrainingComplete port lanes s
  | .trainingRetry port => Sys2Proof.Machine.execTrainingRetry port s
  | .identityRecord port nb => Sys2Proof.Machine.execIdentityRecord port nb s
  | .portRetrain port => Sys2Proof.Machine.execPortRetrain port s
  | .failedPortRetrain port => Sys2Proof.Machine.execFailedPortRetrain port s
  | .flitReceive port f => Sys2Proof.Machine.execFlitReceive port f s
  | .ackTimer port => Sys2Proof.Machine.execAckTimer port s
  | .replayTimeout port => Sys2Proof.Machine.execReplayTimeout port s
  | .laneFailed port lane => Sys2Proof.Machine.execLaneFailed port lane s
  | .portDown port => Sys2Proof.Machine.execPortDown port s
  | .iplSpared link => Sys2Proof.Machine.execIplSpared link s
  | .replayFlit port f => Sys2Proof.Machine.execReplayFlit port f s
  | .replayRecordExpiry port => Sys2Proof.Machine.execReplayRecordExpiry port s
  | .truncated router port => Sys2Proof.Machine.execTruncated router port s
  | .packetRoute router hdr => Sys2Proof.Machine.execPacketRoute router hdr s
  | .remoteRequest router hdr data => Sys2Proof.Machine.execRemoteRequest router hdr data s
  | .tbSync parentTb valid => Sys2Proof.Machine.execTbSync parentTb valid s
  | .fabricDiscover fn d => Sys2Proof.Machine.execFabricDiscover fn d s
  | .fabricAssign fn d => Sys2Proof.Machine.execFabricAssign fn d s
  | .fabricRouteSet fn d => Sys2Proof.Machine.execFabricRouteSet fn d s
  | .fabricSpareEnable fn d => Sys2Proof.Machine.execFabricSpareEnable fn d s
  | .collGroupCreate fn d => Sys2Proof.Machine.execCollGroupCreate fn d s
  | .collLaunch fn d => Sys2Proof.Machine.execCollLaunch fn d s
  | .collReshard fn d => Sys2Proof.Machine.execCollReshard fn d s
  | .collAbort fn d => Sys2Proof.Machine.execCollAbort fn d s
  | .handoverBegin fn d => Sys2Proof.Machine.execHandoverBegin fn d s
  | .contrib p => Sys2Proof.Machine.execContrib p s
  | .result p => Sys2Proof.Machine.execResult p s
  | .data p => Sys2Proof.Machine.execData p s
  | .ack p of => Sys2Proof.Machine.execAck p of s
  | .abort p => Sys2Proof.Machine.execAbort p s
  | .collResend part gid opseq seq => Sys2Proof.Machine.execCollResend part gid opseq seq s
  | .stalled part gid opseq => Sys2Proof.Machine.execStalled part gid opseq s
  | .pcieLinkTrained speed width flit => Sys2Proof.Machine.execPcieLinkTrained speed width flit s
  | .flrVf f => Sys2Proof.Machine.execFlrVf f s
  | .flrPf0 => Sys2Proof.Machine.execFlrPf0 s
  | .hotReset => Sys2Proof.Machine.execHotReset s
  | .perstN level => Sys2Proof.Machine.execPerstN level s
  | .hostReadTimeout fn tag => Sys2Proof.Machine.execHostReadTimeout fn tag s
  | .mbBankWrite fn off data poisoned => Sys2Proof.Machine.execMbBankWrite fn off data poisoned s
  | .mbDoorbell fn value => Sys2Proof.Machine.execMbDoorbell fn value s
  | .descriptorTake ecc tagLost => Sys2Proof.Machine.execDescriptorTake ecc tagLost s
  | .mbCqHead fn value => Sys2Proof.Machine.execMbCqHead fn value s
  | .coalesceTimer fn => Sys2Proof.Machine.execCoalesceTimer fn s
  | .cqWriteRetry fn ok => Sys2Proof.Machine.execCqWriteRetry fn ok s
  | .spdmPlain fn d => Sys2Proof.Machine.execSpdmPlain fn d s
  | .spdmSecured fn d => Sys2Proof.Machine.execSpdmSecured fn d s
  | .powerOnReset => Sys2Proof.Machine.execPowerOnReset s
  | .crystalWindow count => Sys2Proof.Machine.execCrystalWindow count s
  | .xtalFail => Sys2Proof.Machine.execXtalFail s
  | .romBoot pufOk => Sys2Proof.Machine.execRomBoot pufOk s
  | .bootRailsUp => Sys2Proof.Machine.execBootRailsUp s
  | .sysrefLock => Sys2Proof.Machine.execSysrefLock s
  | .sysrefWait => Sys2Proof.Machine.execSysrefWait s
  | .pllFail domain => Sys2Proof.Machine.execPllFail domain s
  | .bootTrainingDone hbm spds => Sys2Proof.Machine.execBootTrainingDone hbm spds s
  | .wellheadStart => Sys2Proof.Machine.execWellheadStart s
  | .bootRelease => Sys2Proof.Machine.execBootRelease s
  | .slateWrite fn d norOk => Sys2Proof.Machine.execSlateWrite fn d norOk s
  | .fwStage fn d norOk => Sys2Proof.Machine.execFwStage fn d norOk s
  | .fwActivate fn d => Sys2Proof.Machine.execFwActivate fn d s
  | .fwTrialTimer advanced => Sys2Proof.Machine.execFwTrialTimer advanced s
  | .romWatchdog => Sys2Proof.Machine.execRomWatchdog s
  | .sensorSample values => Sys2Proof.Machine.execSensorSample values s
  | .logNorCopy upTo => Sys2Proof.Machine.execLogNorCopy upTo s
  | .discover => Sys2Proof.Machine.execDiscover s
  | .spdmHandshake slot m => Sys2Proof.Machine.execSpdmHandshake slot m s
  | .secured session plain => Sys2Proof.Machine.execSecured session plain s
  | .t1sFrameDropped why => Sys2Proof.Machine.execT1sFrameDropped why s
  | .beaconTimer => Sys2Proof.Machine.execBeaconTimer s
  | .beaconNow => Sys2Proof.Machine.execBeaconNow s
  | .sessionFail slot => Sys2Proof.Machine.execSessionFail slot s
  | .sessionIdle session => Sys2Proof.Machine.execSessionIdle session s
  | .plcaLost => Sys2Proof.Machine.execPlcaLost s
  | .plcaBeacon => Sys2Proof.Machine.execPlcaBeacon s
  | .identify value => Sys2Proof.Machine.execIdentify value s
  | .identifyExpiry => Sys2Proof.Machine.execIdentifyExpiry s
  | .sramUncorrected => Sys2Proof.Machine.execSramUncorrected s
  | .droop terrace => Sys2Proof.Machine.execDroop terrace s
  | .stretchEnd terrace => Sys2Proof.Machine.execStretchEnd terrace s
  | .oppStep terrace => Sys2Proof.Machine.execOppStep terrace s
  | .powerCapLoop meanMw => Sys2Proof.Machine.execPowerCapLoop meanMw s
  | .inputMonitor meanMw => Sys2Proof.Machine.execInputMonitor meanMw s
  | .heartbeat => Sys2Proof.Machine.execHeartbeat s
  | .heartbeatSlotCheck => Sys2Proof.Machine.execHeartbeatSlotCheck s
  | .computeReset => Sys2Proof.Machine.execComputeReset s
  | .serviceResume reload => Sys2Proof.Machine.execServiceResume reload s
  | .cascadeReset cascade => Sys2Proof.Machine.execCascadeReset cascade s
  | .cascadeSelfCheckDone rill passed => Sys2Proof.Machine.execCascadeSelfCheckDone rill passed s
  | .recovered durationNs affected => Sys2Proof.Machine.execRecovered durationNs affected s
  | .dayRecordClose => Sys2Proof.Machine.execDayRecordClose s
  | .powerCapSet fn d => Sys2Proof.Machine.execPowerCapSet fn d s
  | .oppSet fn d => Sys2Proof.Machine.execOppSet fn d s
  | .droopConfig fn d => Sys2Proof.Machine.execDroopConfig fn d s
  | .resetCompute fn d => Sys2Proof.Machine.execResetCompute fn d s
  | .resetCascade fn d => Sys2Proof.Machine.execResetCascade fn d s
  | .serviceReturn fn d => Sys2Proof.Machine.execServiceReturn fn d s
  | .vinUndervoltage => Sys2Proof.Machine.execVinUndervoltage s
  | .vinOvervoltage => Sys2Proof.Machine.execVinOvervoltage s
  | .overcurrent => Sys2Proof.Machine.execOvercurrent s
  | .overcurrentRetry tripsAgain => Sys2Proof.Machine.execOvercurrentRetry tripsAgain s
  | .modRstN lowUs => Sys2Proof.Machine.execModRstN lowUs s
  | .countersRead fn d => Sys2Proof.Machine.execCountersRead fn d s
  | .sampleConfig fn d => Sys2Proof.Machine.execSampleConfig fn d s
  | .dumpRead fn d => Sys2Proof.Machine.execDumpRead fn d s
  | .logRead fn d => Sys2Proof.Machine.execLogRead fn d s
  | .pcSample rill part global freeze stall full => Sys2Proof.Machine.execPcSample rill part global freeze stall full s
  | .counterSnapshot part global => Sys2Proof.Machine.execCounterSnapshot part global s
  | .registerReadClear fn addr => Sys2Proof.Machine.execRegisterReadClear fn addr s
  | .registerWrite fn addr value => Sys2Proof.Machine.execRegisterWrite fn addr value s
  | .trainingFailure port => Sys2Proof.Machine.execTrainingFailure port s
  | .clockSourceFailed source => Sys2Proof.Machine.execClockSourceFailed source s
  | .escalationWindowClose => Sys2Proof.Machine.execEscalationWindowClose s
  | .contextNumberFree part ctx => Sys2Proof.Machine.execContextNumberFree part ctx s
  | .staticDataMove slice block => Sys2Proof.Machine.execStaticDataMove slice block s
  | .vfEnable enable numVfs => Sys2Proof.Machine.execVfEnable enable numVfs s
  | .idLedNExpiry => Sys2Proof.Machine.execIdLedNExpiry s
  | .l0p entered width => Sys2Proof.Machine.execL0p entered width s

end Sys2Proof.Machine
end

