-- ==== Sys2Proof/Machine/Tick.lean ====
section
/-! DEFINITION. One SYSREF cycle of 6.4 ns: what time alone does when no command waits (R96, R396, R397, R506, R512, R599,
R602, R603, R606, R615, R634, R635, R644). -/

namespace Sys2Proof.Machine

open Sys2Proof

/-! ## Clocks (R96, R599, R603, R606, R615) -/

/-- Increment of TB: 6.4 ns, corrected by SLEW when the module follows a time parent. -/
def State.tbStep (s : State) : Nat :=
  if s.clk.timeValid && !s.fabric.timeMaster then (Config.unitsPerTick + toSigned 16 s.clk.slew.toNat).toNat
  else Config.unitsPerTick

/-- TB advances, or the boot timer until it has started. -/
def State.advanceTime (s : State) : State :=
  if s.clk.tbRuns then { s with clk := { s.clk with tb := s.clk.tb + s.tbStep } }
  else if s.clk.tb = 0 then { s with clk := { s.clk with boot := s.clk.boot + Config.unitsPerTick } }
  else s

/-- The ARR clock of a terrace runs: its PLL locked, neither it nor the crystal has failed, and the module is not HELD. -/
def State.arrRuns (s : State) (d : Nat) : Bool :=
  bit s.clk.arrLock d && !bit s.clk.failed 0 && !bit s.clk.failed (2 + d) && !s.pwr.held

/-- ARR cycles of a SYSREF cycle, in hundredths: 1.92 at OPP 0 to 3.84 at OPP 3; half while stretched. -/
def State.arrStep (s : State) (d : Nat) : Nat :=
  let n := 192 + 64 * (s.terrace d).running
  if !s.arrRuns d then 0 else if (s.terrace d).stretch.isSome then n / 2 else n

def State.advanceCycles (s : State) : State :=
  { s with clk := { s.clk with terr := s.clk.terr.mapI (fun d t => { t with cycles := t.cycles + s.arrStep d }) } }

/-- Nanoseconds of TB that a time step completes: `s` before it, `t` after. -/
def nsBetween (s t : State) : Nat := t.now / Config.unitsPerNs - s.now / Config.unitsPerNs

/-- CK_STRETCH_NS of the stretched terraces (R607). -/
def State.countStretch (s : State) (n : Nat) : State :=
  (List.range 4).foldl (fun (s : State) d => if (s.terrace d).stretch.isSome then s.addF (ckStretchNs d) n else s) s

/-! ## Productive time (R635) -/

/-- The present time is excluded: HELD, a host-ordered reset, an input or a coolant inlet out of range, or WITHDRAWN for the
coolant. -/
def State.excludedNow (s : State) : Bool :=
  s.pwr.held || (match s.pwr.resetting with | some (_, c) => decide (c = 0) | none => false) ||
    (s.sensor 20).crit || (s.sensor 22).crit || decide (s.pwr.withdrawn = 3)

/-- It is lost: another compute reset, or WITHDRAWN after ESCALATED or a die's THERMAL_TRIP. -/
def State.lostNow (s : State) : Bool := s.pwr.resetting.isSome || decide (s.pwr.withdrawn = 1 ∨ s.pwr.withdrawn = 2)

def State.countProductive (s : State) (n : Nat) : State :=
  if s.mode = .boot then s
  else
    let e := if s.excludedNow then n else 0
    let l := if !s.excludedNow && s.lostNow then n else 0
    let p := s.pwr
    let t := p.today
    { s with pwr := { p with ptTotal := p.ptTotal + n, ptExcluded := p.ptExcluded + e, ptLost := p.ptLost + l,
                             today := { t with total := t.total + n, excluded := t.excluded + e, lost := t.lost + l } } }

/-! ## Occupancy (R644, entries 1 and 15 to 20) -/

/-- Threads of the contexts in frames 0 to 3 of a rill in a state. -/
def State.threadsIn (s : State) (r : Nat) (x : TState) : Nat :=
  ((List.range 4).map (fun f => match s.frameCtx r f with
    | some (_, c) => (c.threads.filter (fun h => decide (h.st = x))).length
    | none => 0)).sum

/-- Credit `n` ARR cycles of a rill. -/
def State.creditCycles (s : State) (r n : Nat) : State :=
  let v := s.rill r
  if n = 0 then s
  else
    let s := if v.frames = [] then s else s.creditRill r 1 n
    [(15, v.mxQ.length), (16, v.vxQ.length), (17, v.trackers.length), (18, s.threadsIn r .ready), (19, s.threadsIn r .waitRemote),
      (20, s.threadsIn r .waitTile)].foldl (fun (s : State) x => if x.2 = 0 then s else s.creditRill r x.1 (n * x.2)) s

/-- Every rill that holds something; `t` is the state before the cycles ran. -/
def State.countOccupancy (s t : State) : State :=
  t.rills.keys.foldl (fun (s : State) r => s.creditCycles r (s.arrCycles r - t.arrCycles r)) s

/-! ## Waits (R396, R397, R506, R512) -/

/-- What the operations of a partition wait for, one number for each that waits. -/
def State.waitsOf (s : State) (p : Nat) : List Nat :=
  ((s.ctxs.filter (fun c => decide (keyPart c.1 = p))).flatMap (fun c =>
    c.2.slots.map (fun z => s.slotWait p c.2 z.2))).filter (fun w => decide (w ≠ 0))

/-- A phase of a launch waits for its bucket list; with `only`, for nothing else. -/
def State.bucketWait (s : State) (p : Nat) (l : Launch) (only : Bool) : Bool :=
  let q := s.part p
  match (q.graphs.at? l.graph).bind (fun g => g.phases[l.phase]?) with
  | none => false
  | some ph => !l.released && !q.bucketsReady ph &&
      (!only || (!l.holding && decide (q.state = 1 ∨ q.state = 2) && s.gateOpen p ph l.step &&
        !(decide (l.phase = 0) && s.tokensValid p l.tokens)))

/-- The wait counters of a partition over `n` ns. -/
def State.countWaits (s : State) (n p : Nat) : State :=
  let ws := s.waitsOf p
  let s := match (List.range 5).find? (fun k => ws.contains (k + 1)) with
    | some k => (s.addF (slStall p k) n).credit p (27 + k) n
    | none => s
  let held := ws.contains 6 || (s.part p).launches.any (fun l => s.bucketWait p l.2 false)
  let s := if held then (s.addF (ceWaitBucket p) n).credit p 32 n else s
  if ws.contains 7 then (s.addF (ceWaitFence p) n).credit p 33 n else s

/-- Start or end the QUOTA waits of a partition's operations (R397). -/
def State.markQuota (s : State) : State :=
  { s with ctxs := s.ctxs.mapV (fun k c => { c with slots := c.slots.mapV (fun _ z =>
      let w := decide (s.slotWait (keyPart k) c z = 1)
      if w = z.quotaSince.isSome then z else { z with quotaSince := if w then some s.now else none }) }) }

/-- Time in which launches are held only for their bucket lists, in units (R512). -/
def State.holdBuckets (s : State) (u : Nat) : State :=
  { s with parts := s.parts.mapV (fun p q => { q with launches := q.launches.mapV (fun _ l =>
      if s.bucketWait p l true then { l with bucketHold := l.bucketHold + u } else l) }) }

/-! ## The tick -/

/-- Grotto's firmware runs again 50 ms after its restart began; the watch goes on from its next slot (R624, R634). -/
def State.endRestart (s : State) : State :=
  match s.grotto.restart with
  | some t => if t + nsU 50000000 ≤ s.now then
      { s with grotto := { s.grotto with restart := none }, watch := { s.watch with misses := 0, seen := s.host.heartbeat.toNat } }
    else s
  | none => s

/-- Counters of one cycle: `t` is the state before time advanced. -/
def State.countTick (s t : State) : State :=
  let n := nsBetween t s
  let s := (s.countStretch n).countProductive n
  let s := s.countOccupancy t
  let s := s.parts.keys.foldl (fun (s : State) p => s.countWaits n p) s
  s.holdBuckets (s.now - t.now)

/-- One SYSREF cycle.  Nothing happens while the input switch is off. -/
def tick (s : State) : State :=
  if s.input.on = false then s
  else (((((s.markQuota).advanceTime.advanceCycles).countTick s).endRestart).retryRequests).startReady

end Sys2Proof.Machine
end

