-- ==== Sys2Proof/Safety.lean ====
section
/-! DEFINITION. The terms in which claims about the 7208 are stated: when an instruction issues, when a command is
taken, what an event log tells, what a frame leaves alone, and the invariants that a safe run keeps. -/

namespace Sys2Proof.Machine

open Sys2Proof

/-! ## Threads -/

/-- The thread that an issue names, as its context holds it. -/
def State.thread? (s : State) (x : Issue) : Option Thread := (s.ctx? (ctxKey x.part x.ctx)).bind (fun c => c.thread? x.thr)

/-- The state of a thread that a program sees (R86, R301): registers, predicates, PC and tile. -/
def Thread.arch (h : Thread) : Tab W64 × BitVec 8 × W64 × Option Tile := (h.regs, h.preds, h.pc, h.tile)

/-- Thread `h` of context `c`, resident on rill `r`, which `x` names, issues its next instruction: it is READY and no
port has still to pass it (R89), its line is held (R86), and no earlier LS access of it waits for a bank (R97). -/
def State.canIssue (s : State) (x : Issue) (r : Nat) (c : Context) (h : Thread) : Prop :=
  s.issuer? x = some (r, c, h) ∧ h.yielding = 0 ∧ s.fetchOk x.part c.launch h.pc.toNat = true ∧
  (s.rill r).icache.contains (x.part, lineOf h.pc.toNat) = true ∧
  ∀ q ∈ (s.rill r).lsWait, ¬ (q.ctx = ctxKey x.part x.ctx ∧ q.thr = x.thr)

/-- Every thread but thread `n` of the context under key `k` keeps its registers, predicates, PC and tile. -/
def State.keepsThreads (s t : State) (k n : Nat) : Prop :=
  ∀ k' n', (k' ≠ k ∨ n' ≠ n) → ((t.ctx? k').bind (fun c => c.thread? n')).map Thread.arch =
    ((s.ctx? k').bind (fun c => c.thread? n')).map Thread.arch

/-- Nothing but the port pointers of rills changes in the rills, and nothing but threads and block marks in the
contexts. -/
def State.keepsRills (s t : State) : Prop :=
  (∀ r, t.rill r = { s.rill r with port0 := (t.rill r).port0, port1 := (t.rill r).port1 }) ∧
  (∀ k, (t.ctx? k).map (fun c => { c with threads := [], blockedSince := none }) =
    (s.ctx? k).map (fun c => { c with threads := [], blockedSince := none }))

/-- The thread that `x` names has executed an instruction whose whole effect is on the thread itself: it is now as `p`
says, other threads keep what programs see of them, and nothing else changes but port pointers, yielding bits, block
marks and counts. -/
def State.ranAs (s t : State) (x : Issue) (p : Thread → Prop) : Prop :=
  (∃ h', t.thread? x = some h' ∧ p h') ∧ s.keepsThreads t (ctxKey x.part x.ctx) x.thr ∧ s.keepsRills t ∧
  t = { s with rills := t.rills, ctxs := t.ctxs, dbg := t.dbg }

/-- A wait that only a command of its own ends: none, a line, or a tile. -/
def Wait.quiet : Wait → Bool
  | .none => true
  | .line _ => true
  | .steal _ => true
  | .halt _ => true
  | _ => false

/-- No thread of a rill waits for what a release of its engines may end, and no context on it is about to leave it:
ending waits there changes nothing. -/
def State.calm (s : State) (r : Nat) : Prop :=
  Tab.sorted s.ctxs = true ∧
  ∀ p ∈ s.ctxs, p.2.rillOf = some r →
    (p.2.stopping = true → ((s.rill r).frames.at? 4).isSome = true) ∧ ∀ h ∈ p.2.threads, h.wait.quiet = true

/-- Rill `r` is calm, and no `stream.close` waits for its entry: nothing follows from a release of the rill's engines. -/
def State.settled (s : State) (r : Nat) : Prop :=
  s.calm r ∧ ∀ c ∈ s.host.inProgress, ¬ (dOpcode c.d = 0x0502 ∧ c.started = true)

/-- No object is being freed and no partition destroyed: nothing follows from a release of pages. -/
def State.noneLeaving (s : State) : Prop := ∀ q ∈ s.parts, q.2.state ≠ 3 ∧ ∀ o ∈ q.2.objects, o.2.freeing = false

/-- `t` is `s` but for block marks of contexts and the model's counter. -/
def State.marked (s t : State) : Prop :=
  t = { s with ctxs := t.ctxs, free := t.free } ∧
  ∀ k, (t.ctx? k).map (fun c => { c with blockedSince := none }) = (s.ctx? k).map (fun c => { c with blockedSince := none })

/-- The thread that `x` names has gone past its instruction, with the registers, predicates and tile that it had; other
threads keep what programs see of them, and nothing changes but rills, contexts and counts. -/
def State.wentOn (s t : State) (x : Issue) (h : Thread) : Prop :=
  (∃ h', t.thread? x = some h' ∧ h'.arch = (h.regs, h.preds, h.pc + 8, h.tile)) ∧
  s.keepsThreads t (ctxKey x.part x.ctx) x.thr ∧
  t = { s with rills := t.rills, ctxs := t.ctxs, dbg := t.dbg, free := t.free }

/-- The array of rill `r` is free, in service and owned by context `k`, and nothing waits before it. -/
def State.arrayFree (s : State) (r k : Nat) : Prop :=
  (s.rill r).array.cur = none ∧ (s.rill r).array.owner = some k ∧ (s.rill r).mxQ = [] ∧ (s.rill r).vxQ = [] ∧
  (s.rill r).vector.cur = none ∧ s.getF (arDisable r) = 0

/-! ## The rows of the rill instructions, as the tables of R95 and R97 give them -/

/-- Operations on s[RA] and opb (R95). -/
def scalarRows : List ((Issue → Instr) × (W64 → W64 → W64)) :=
  [(.add, fun a b => a + b), (.sub, fun a b => a - b), (.mul, fun a b => a * b),
   (.mulhu, fun a b => BitVec.ofNat 64 (a.toNat * b.toNat / 2 ^ 64)),
   (.mulh, fun a b => BitVec.ofInt 64 (a.toInt * b.toInt / 2 ^ 64)),
   (.divu, fun a b => if b = 0 then BitVec.allOnes 64 else a / b), (.remu, fun a b => if b = 0 then a else a % b),
   (.and, fun a b => a &&& b), (.or, fun a b => a ||| b), (.xor, fun a b => a ^^^ b),
   (.shl, fun a b => a <<< (b.toNat % 64)), (.shr, fun a b => a >>> (b.toNat % 64)),
   (.sra, fun a b => a.sshiftRight (b.toNat % 64)), (.min, fun a b => if a.slt b then a else b),
   (.max, fun a b => if a.slt b then b else a)]

/-- Comparisons of s[RA] and opb (R95). -/
def compareRows : List ((Issue → Instr) × (W64 → W64 → Bool)) :=
  [(.setpEq, fun a b => a == b), (.setpNe, fun a b => a != b), (.setpLt, fun a b => a.slt b),
   (.setpLtu, fun a b => a.ult b), (.setpLe, fun a b => a.sle b), (.setpLeu, fun a b => a.ule b)]

/-- Operations on predicates (R95). -/
def predicateRows : List ((Issue → Instr) × (Bool → Bool → Bool)) :=
  [(.pand, fun a b => a && b), (.por, fun a b => a || b), (.pxor, fun a b => xor a b), (.pnot, fun a _ => !a)]

/-- Loads (R97): bytes, and the value of s[RD] from the bytes read. -/
def loadRows : List ((Issue → Bool → Instr) × Nat × (Nat → W64)) :=
  [(.ldB, 1, fun v => BitVec.ofNat 64 v), (.ldH, 2, fun v => BitVec.ofNat 64 v), (.ldW, 4, fun v => BitVec.ofNat 64 v),
   (.ldD, 8, fun v => BitVec.ofNat 64 v), (.ldBs, 1, fun v => (BitVec.ofNat 8 v).signExtend 64),
   (.ldHs, 2, fun v => (BitVec.ofNat 16 v).signExtend 64), (.ldWs, 4, fun v => (BitVec.ofNat 32 v).signExtend 64)]

/-- Stores (R97): bytes. -/
def storeRows : List ((Issue → Bool → Instr) × Nat) := [(.stB, 1), (.stH, 2), (.stW, 4), (.stD, 8)]

/-- Atomics (R97): bytes, and the value written from the old value and s[RB]. -/
def atomicRows : List ((Issue → Bool → Instr) × Nat × (Nat → Nat → Nat)) :=
  [(.atomAddW, 4, fun o d => (o + d) % 2 ^ 32), (.atomAddD, 8, fun o d => (o + d) % 2 ^ 64),
   (.atomAddF, 4, fun o d => addFp32 o (d % 2 ^ 32)), (.atomSwapW, 4, fun _ d => d % 2 ^ 32), (.atomSwapD, 8, fun _ d => d)]

/-- The LS instructions and their OPs (R97). -/
def lsRows : List ((Issue → Bool → Instr) × Nat) :=
  [(.ldB, 0x00), (.ldH, 0x01), (.ldW, 0x02), (.ldD, 0x03), (.ldBs, 0x04), (.ldHs, 0x05), (.ldWs, 0x06), (.stB, 0x08),
   (.stH, 0x09), (.stW, 0x0A), (.stD, 0x0B), (.atomAddW, 0x10), (.atomAddD, 0x11), (.atomAddF, 0x12), (.atomSwapW, 0x13),
   (.atomSwapD, 0x14)]

/-- The VX instructions, their OPs, and the fields that R102 leaves them. -/
def vectorRows : List ((Issue → Instr) × Nat × (Issue → Bool)) :=
  [(.vxEw, 0, fun x => immZero x 9 7 && ewListed (bits x.imm.toNat 0 8) &&
     (ewBinary (bits x.imm.toNat 0 8) || decide (x.rb = 0))),
   (.vxFma, 1, fun x => immZero x 0 8 && immZero x 9 23),
   (.vxCvt, 2, fun x => immZero x 3 29 && decide (bits x.imm.toNat 0 2 ≠ 3 ∧ x.rb = 0)),
   (.vxRed, 3, fun x => immZero x 5 3 && immZero x 9 23 && decide (bits x.imm.toNat 1 3 ≤ 5 ∧ x.rb = 0) &&
     (decide (bits x.imm.toNat 1 3 ≠ 4) || !bit x.imm.toNat 4)),
   (.vxCompress, 4, fun x => immZero x 3 1 && immZero x 24 8), (.vxExpand, 5, fun x => immZero x 2 2 && immZero x 24 8),
   (.vxRng, 6, fun x => immZero x 2 14 && decide (x.ra = 0 ∧ x.rb = 0)),
   (.vxOpt, 7, fun x => immZero x 4 4 && immZero x 9 23 && decide (bits x.imm.toNat 0 2 ≤ 1))]

end Sys2Proof.Machine

/-- Address of an LS instruction in its region (R97). -/
def Sys2Proof.Issue.lsAddr (x : Sys2Proof.Issue) (h : Sys2Proof.Machine.Thread) : Nat := (h.reg x.ra + x.sext).toNat

namespace Sys2Proof.Machine

open Sys2Proof

/-- An LS access of `n` bytes that R98 allows, at a bank that is free, no byte of it poisoned, on a calm rill. -/
def State.lsReady (s : State) (x : Issue) (n r : Nat) (c : Context) (h : Thread) : Prop :=
  s.canIssue x r c h ∧ x.guard h = true ∧ x.i = false ∧ x.lsAddr h % n = 0 ∧ x.lsAddr h + n ≤ c.regionLen ∧
  s.poisonAt r (c.regionBase + x.lsAddr h) n = none ∧ s.calm r

/-- The effect of an LS access on everything but its own thread's registers and `n` bytes at `a`. -/
def State.ranLs (s t : State) (x : Issue) (r a n : Nat) (p : Thread → Prop) : Prop :=
  (∃ h', t.thread? x = some h' ∧ p h') ∧ s.keepsThreads t (ctxKey x.part x.ctx) x.thr ∧
  (∀ b, (b < a ∨ a + n ≤ b) → Memory.read t.mem.cells b = Memory.read s.mem.cells b) ∧
  (∀ r', r' ≠ r → t.rill r' = s.rill r') ∧
  t = { s with rills := t.rills, ctxs := t.ctxs, dbg := t.dbg, regs := t.regs,
               mem := { s.mem with cells := t.mem.cells }, free := t.free }

/-- The instructions of a rill, and whether a word with the fields `x` is one that R94 allows: every field that the
operation does not use is 0, and I is 1 in the SC class only.  A bank is free or not for an LS access. -/
def issueRows (x : Issue) (free : Bool) : List (Instr × Bool) :=
  let unused := fun (rd ra rb imm : Bool) => !x.i && (!rd || decide (x.rd = 0)) && (!ra || decide (x.ra = 0)) &&
    (!rb || decide (x.rb = 0)) && (!imm || decide (x.imm = 0))
  let small := fun (r : BitVec 5) => decide (r.toNat < 8)
  scalarRows.map (fun p => (p.1 x, !x.opbBad)) ++ compareRows.map (fun p => (p.1 x, !x.opbBad && small x.rd)) ++
  predicateRows.map (fun p => (p.1 x, unused false false (decide (p.1 x = .pnot x)) true && small x.rd && small x.ra && small x.rb)) ++
  lsRows.map (fun p => (p.1 x free, !lsIllegal x p.2)) ++ vectorRows.map (fun p => (p.1 x, !x.i && p.2.2 x)) ++
  [(.nop x 0 0, unused true true true true), (.li x, unused false true true false), (.lih x, unused false true true false),
   (.sel x, unused false false false false && decide (x.imm.toNat < 8)),
   (.rdsr x, unused false true true false && decide (x.imm.toNat < 10)), (.br x, unused true true true false),
   (.jal x, unused false true true false), (.jr x, unused true false true true),
   (.mxCfg x, unused true true true false && immZero x 0 14), (.mxLoad x, unused true false true true),
   (.mxStream x, unused true false true false && immZero x 2 6 && immZero x 16 16),
   (.mxInit x, unused true true true false && decide (x.imm.toNat < 2)), (.mxAcquire x, unused true true true true),
   (.mxRelease x, unused true true true true), (.ftGet x, unused false false false true),
   (.ftPut x, unused false false false true), (.ftAddw x, unused false false false true),
   (.ftAmoAdd x, unused false false false false), (.ftAmoSwap x, unused false false false false),
   (.syFence x, unused true true true false && decide (x.imm.toNat < 3)),
   (.syWait x, unused true true true false && decide (x.imm.toNat < 16)), (.sySlot x, unused false false true true),
   (.syBar x, unused true true true false && decide (x.imm.toNat < 16)), (.sySteal x, unused false true true true),
   (.syYield x, unused true true true true), (.syHalt x, unused false true true true)]

/-! ## The event log -/

/-- The event log holds a code (R579). -/
def State.logs (t : State) (code : W32) : Prop := ∃ e ∈ t.grotto.log, e.flint = code

/-- A cause is raised on `u`, and nothing else happens: its code is in the log; a code of severity 2 or more is in its
fault register, or that register says that it overran; and only the count of folded entries, the functions that are
told, what is sent and the last codes change. -/
def State.told (u t : State) (k : Cause) (inst : Nat) : Prop :=
  t.logs (k.flint inst) ∧
  (∀ a, a ≠ grFolded.addr → (2 ≤ k.sev → faultReg k.unit inst ≠ some a) → t.reg a = u.reg a) ∧
  (∀ a, 2 ≤ k.sev → faultReg k.unit inst = some a → t.reg a = if bit (u.reg a) 32 then setBits (u.reg a) 33 1 1
    else setBits (setBits (u.reg a) 0 32 (k.flint inst).toNat) 32 1 1) ∧
  t = { u with regs := t.regs, out := t.out, host := { u.host with mailboxes := t.host.mailboxes },
               grotto := { u.grotto with log := t.grotto.log, nextSeq := t.grotto.nextSeq, lastFatal := t.grotto.lastFatal },
               pwr := { u.pwr with wellheadLast := t.pwr.wellheadLast } }

/-- The state in which a recovery over one scope has begun (R631). -/
def State.recovering (u : State) (x : Scope) : State :=
  { u.addF pwEvents 1 with pwr := { u.pwr with recovery := some { scopes := [x], start := u.now, isUnion := false } } }

/-! ## Commands (R532 to R540) -/

/-- A descriptor of function `fn` is taken and starts at once: an entry of the ring and a place in progress are free
(R532), its TAG is not reserved (R535), checks 4 to 6 of R537 pass, every command in progress has started (R538), under
FENCE none of its mailbox is in progress (R535), and the partition that it needs is there (R332). -/
def State.accepted (s : State) (i : Issuer) (fn : Nat) (d : BitVec 512) : Prop :=
  fn < 16 ∧ s.canTake fn = true ∧ tagReserved d = false ∧ s.gate i fn d = none ∧
  (∀ e ∈ s.host.inProgress, e.order < s.host.order ∧ e.started = true ∧
    (dFence d = true → e.fn ≠ fn ∨ e.session.isSome = true)) ∧
  (i.live = true → (s.part (s.opPart i fn d)).state ≠ 0)

/-- The command that the descriptor becomes. -/
def State.newCmd (s : State) (i : Issuer) (fn : Nat) (d : BitVec 512) : Cmd :=
  { fn := fn, d := d, order := s.host.order, started := true, part := s.opPart i fn d, a := 0, b := 0, drop := false,
    session := none }

/-- The state in which an accepted command begins: one more descriptor taken and in progress (R532). -/
def State.begun (s : State) (i : Issuer) (fn : Nat) (d : BitVec 512) : State :=
  { s with host := { s.host with
    mailboxes := s.host.mailboxes.put fn { s.mailbox fn with taken := (s.mailbox fn).taken + 1 },
    inProgress := s.host.inProgress ++ [s.newCmd i fn d], order := s.host.order + 1 } }

/-! ## Pages -/

/-- Nothing waits for a page: nothing is leaving, no command that moves pages or reclaims them is under way, and no
operation of a context waits to be translated. -/
def State.pagesCalm (s : State) : Prop :=
  s.noneLeaving ∧ (∀ c ∈ s.host.inProgress, dOpcode c.d ≠ 0x0203 ∧ dOpcode c.d ≠ 0x0204 ∧ dOpcode c.d ≠ 0x0206) ∧
  ∀ c ∈ s.ctxs, ∀ z ∈ c.2.slots, (z.2.done || z.2.translated || z.2.refused || z.2.op.remote) = true

/-- A place holds the bytes `f`, and every other byte of the tiers is as it was. -/
def State.filled (s t : State) (y : Place) (f : Nat → Byte) : Prop :=
  (∀ o, o < pageBytes → t.placeByte y o = f o) ∧
  (∀ a, (y.tier = 2 ∧ y.base ≤ a ∧ a < y.base + pageBytes) ∨ Memory.read t.mem.flash a = Memory.read s.mem.flash a) ∧
  (∀ a, (y.tier ≠ 2 ∧ y.base ≤ a ∧ a < y.base + pageBytes) ∨ Memory.read t.mem.cells a = Memory.read s.mem.cells a)

/-! ## Memories -/

/-- Every memory is in canonical form. -/
def State.memoriesWf (s : State) : Prop :=
  Memory.wf s.mem.cells = true ∧ Memory.wf s.mem.lineCells = true ∧ Memory.wf s.mem.flash = true ∧
  Memory.wf s.mem.host = true ∧ Memory.wf s.grotto.nor = true

/-! ## Operating points -/

/-- Every terrace runs at one of the four OPPs (R604), is held down by no more than there are (R609), and has a gate duty
of at most 15 (R608). -/
def State.pointsLegal (s : State) : Prop :=
  ∀ d, d < 4 → (s.terrace d).running ≤ 3 ∧ (s.terrace d).ceiling ≤ 3 ∧ (s.terrace d).capHold ≤ 3 ∧ (s.terrace d).g ≤ 15

end Sys2Proof.Machine
end

