-- ==== Sys2Proof/Certificates/Slice0/Obligations.lean ====
section
/-! DEFINITION. The statements for the provers. -/

open Sys2Proof Sys2Proof.Machine

/-! ## The block -/

/-- A command at the front of the queue is carried out on the state with the queue's rest. -/
def Obligations.StepRunsFront : Prop :=
  ∀ (s : State) (c : Instr) (rest : List Instr), s.pending = c :: rest → step s = exec c { s with pending := rest }

/-! ## Scalar instructions -/

/-- R95: each SC operation on s[RA] and opb gives s[RD] its value, wrapping at 64 bits; s0 discards it (R86); the PC
moves past the instruction and nothing else changes. -/
def Obligations.ScalarResults : Prop :=
  ∀ (s : State) (x : Issue) (r : Nat) (c : Context) (h : Thread),
    s.canIssue x r c h → x.guard h = true → x.opbBad = false →
    ∀ p ∈ scalarRows, ∃ t, exec (p.1 x) s = .next t ∧ s.ranAs t x (fun h' =>
      (∀ n, h'.reg n = if n = x.rd ∧ n ≠ 0 then p.2 (h.reg x.ra) (x.opb h) else h.reg n) ∧
      h'.preds = h.preds ∧ h'.pc = h.pc + 8 ∧ h'.tile = h.tile)

/-- R95, R96: `li`, `lih`, `sel` and `rdsr` give s[RD] the immediate, the immediate above the low half, the register that a
predicate selects, and a special value; `nop` changes nothing but the PC.  R95: `br` and `jal` go to PC + sext(IMM) × 8,
`jal` keeping PC + 8 in s[RD]; `jr` goes to s[RA]. -/
def Obligations.MovesAndBranches : Prop :=
  (∀ (s : State) (x : Issue) (r : Nat) (c : Context) (h : Thread),
      s.canIssue x r c h → x.guard h = true → x.i = false →
      let gives := fun (i : Instr) (v : W64) => ∃ t, exec i s = .next t ∧ s.ranAs t x (fun h' =>
        (∀ n, h'.reg n = if n = x.rd ∧ n ≠ 0 then v else h.reg n) ∧ h'.preds = h.preds ∧ h'.pc = h.pc + 8 ∧ h'.tile = h.tile)
      (x.ra = 0 → x.rb = 0 → gives (.li x) (x.imm.signExtend 64)) ∧
      (x.ra = 0 → x.rb = 0 → gives (.lih x) (BitVec.ofNat 64 (x.imm.toNat * 2 ^ 32 + (h.reg x.rd).toNat % 2 ^ 32))) ∧
      (x.imm.toNat < 8 → gives (.sel x) (if h.pred x.imm.toNat then h.reg x.ra else h.reg x.rb)) ∧
      (x.ra = 0 → x.rb = 0 → x.imm.toNat < 10 → gives (.rdsr x) (BitVec.ofNat 64
        ([x.thr, c.threads.length, x.ctx % 65536, (x.part * 65536 + x.ctx) / 65536, r, s.fabric.chip, s.tbNs, s.arrCycles r,
          c.regionBase, c.regionLen].getD x.imm.toNat 0))) ∧
      (x.rd = 0 → x.ra = 0 → x.rb = 0 → x.imm = 0 → gives (.nop x 0 0) 0)) ∧
  (∀ (s : State) (x : Issue) (r : Nat) (c : Context) (h : Thread),
      s.canIssue x r c h → x.guard h = true → x.i = false → x.rb = 0 →
      let goes := fun (i : Instr) (pc : W64) (v : W64) => ∃ t, exec i s = .next t ∧ s.ranAs t x (fun h' =>
        h'.pc = pc ∧ (∀ n, h'.reg n = if n = x.rd ∧ n ≠ 0 then v else h.reg n) ∧ h'.preds = h.preds ∧ h'.tile = h.tile)
      (x.rd = 0 → x.ra = 0 → goes (.br x) (h.pc + x.imm.signExtend 64 * 8) 0) ∧
      (x.ra = 0 → goes (.jal x) (h.pc + x.imm.signExtend 64 * 8) (h.pc + 8)) ∧
      (x.rd = 0 → x.imm = 0 → (h.reg x.ra).toNat % 8 = 0 → goes (.jr x) (h.reg x.ra) 0))

/-- R95: the comparisons and the operations on predicates set p[RD[2:0]]; p0 keeps reading 1 (R86). -/
def Obligations.PredicateResults : Prop :=
  ∀ (s : State) (x : Issue) (r : Nat) (c : Context) (h : Thread),
    s.canIssue x r c h → x.guard h = true → x.rd.toNat < 8 →
    let sets := fun (i : Instr) (v : Bool) => ∃ t, exec i s = .next t ∧ s.ranAs t x (fun h' =>
      (∀ n, n < 8 → h'.pred n = if n = x.rd.toNat ∧ n ≠ 0 then v else h.pred n) ∧ (∀ n, h'.reg n = h.reg n) ∧
      h'.pc = h.pc + 8 ∧ h'.tile = h.tile)
    (x.opbBad = false → ∀ p ∈ compareRows, sets (p.1 x) (p.2 (h.reg x.ra) (x.opb h))) ∧
    (x.i = false → x.imm = 0 → x.ra.toNat < 8 → x.rb.toNat < 8 → ∀ p ∈ predicateRows, (p.1 x = .pnot x → x.rb = 0) →
      sets (p.1 x) (p.2 (h.pred x.ra.toNat) (h.pred x.rb.toNat)))

/-- R93: an instruction executes only if p[PG] XOR PN is 1; with PG 0 it always or never does.  One whose guard is false
retires with no effect: its thread goes to the next instruction, and nothing else changes. -/
def Obligations.FalseGuardRetires : Prop :=
  ∀ (s : State) (x : Issue) (r : Nat) (c : Context) (h : Thread), s.canIssue x r c h →
    x.guard h = xor (h.pred x.pg.toNat) x.pn ∧ (x.pg = 0 → x.guard h = !x.pn) ∧
    (x.guard h = false → ∀ b, ∀ p ∈ issueRows x b, p.2 = true →
      ∃ t, exec p.1 s = .next t ∧ s.ranAs t x (fun h' => h' = h.advance))

/-- R94, R98: a word with a reserved CLASS, an OP that is not listed or an unused field that is not 0 raises ILLEGAL_INSTR,
whatever its guard; an LS access that is misaligned raises MISALIGNED, and one of which a byte lies outside the context's
region REGION.  No byte is read or written: what follows is the fault of the thread (R126). -/
def Obligations.IssueFaults : Prop :=
  ∀ (s : State) (x : Issue) (r : Nat) (c : Context) (h : Thread), s.canIssue x r c h →
    let faults := fun (i : Instr) (k : Cause) => ∃ u v : State, u = { s with rills := u.rills, ctxs := u.ctxs } ∧ s.keepsRills u ∧
      (∀ j n, ((u.ctx? j).bind (fun c => c.thread? n)).map Thread.arch = ((s.ctx? j).bind (fun c => c.thread? n)).map Thread.arch) ∧
      u.told v k r ∧ exec i s = .next (v.jobFault (ctxKey x.part x.ctx) x.thr (k.flint r))
    (∀ b, ∀ p ∈ issueRows x b, p.2 = false → faults p.1 kRlIllegalInstr) ∧
    (∀ cls op, cls ≠ 0 ∨ op ≠ 0 → faults (.nop x cls op) kRlIllegalInstr) ∧
    (x.guard h = true → ∀ b, ∀ p ∈ lsRows, lsIllegal x p.2 = false →
      (x.lsAddr h % lsBytes p.2 ≠ 0 → faults (p.1 x b) kRlMisaligned) ∧
      (x.lsAddr h % lsBytes p.2 = 0 → c.regionLen < x.lsAddr h + lsBytes p.2 → faults (p.1 x b) kRlRegion))

/-! ## Scratchpad accesses -/

/-- R97, R98, R241: an aligned load inside its region whose bank is free reads its bytes, zero- or sign-extended, into
s[RD], and changes no byte. -/
def Obligations.LoadResults : Prop :=
  ∀ (s : State) (x : Issue) (r : Nat) (c : Context) (h : Thread), ∀ p ∈ loadRows,
    s.lsReady x p.2.1 r c h → x.rb = 0 →
    let a := spadBase r + (c.regionBase + x.lsAddr h)
    ∃ t, exec (p.1 x true) s = .next t ∧ s.ranLs t x r a 0 (fun h' =>
      (∀ n, h'.reg n = if n = x.rd ∧ n ≠ 0 then p.2.2 (Memory.le s.mem.cells a p.2.1) else h.reg n) ∧
      h'.preds = h.preds ∧ h'.pc = h.pc + 8 ∧ h'.tile = h.tile)

/-- R97, R98: an aligned store inside its region whose bank is free writes the low bytes of s[RB], little-endian, at
region base plus address, and no other byte. -/
def Obligations.StoreResults : Prop :=
  ∀ (s : State) (x : Issue) (r : Nat) (c : Context) (h : Thread), ∀ p ∈ storeRows,
    s.lsReady x p.2 r c h → x.rd = 0 →
    let a := spadBase r + (c.regionBase + x.lsAddr h)
    ∃ t, exec (p.1 x true) s = .next t ∧ Memory.readN t.mem.cells a p.2 = leBytes p.2 (h.reg x.rb).toNat ∧
      s.ranLs t x r a p.2 (fun h' => (∀ n, h'.reg n = h.reg n) ∧ h'.preds = h.preds ∧ h'.pc = h.pc + 8 ∧ h'.tile = h.tile)

/-- R97, R235: an atomic writes the new value of its word and returns the old one in s[RD]. -/
def Obligations.AtomicResults : Prop :=
  ∀ (s : State) (x : Issue) (r : Nat) (c : Context) (h : Thread), ∀ p ∈ atomicRows,
    s.lsReady x p.2.1 r c h →
    let a := spadBase r + (c.regionBase + x.lsAddr h)
    let old := Memory.le s.mem.cells a p.2.1
    ∃ t, exec (p.1 x true) s = .next t ∧
      Memory.readN t.mem.cells a p.2.1 = leBytes p.2.1 (p.2.2 old (h.reg x.rb).toNat) ∧
      s.ranLs t x r a p.2.1 (fun h' =>
        (∀ n, h'.reg n = if n = x.rd ∧ n ≠ 0 then BitVec.ofNat 64 old else h.reg n) ∧
        h'.preds = h.preds ∧ h'.pc = h.pc + 8 ∧ h'.tile = h.tile)

/-- R97, R231: an LS access whose bank is not free waits for it in issue order, the thread going on. -/
def Obligations.AccessesQueue : Prop :=
  ∀ (s : State) (x : Issue) (r : Nat) (c : Context) (h : Thread), ∀ p ∈ lsRows,
    s.canIssue x r c h → x.guard h = true → lsIllegal x p.2 = false →
    x.lsAddr h % lsBytes p.2 = 0 → x.lsAddr h + lsBytes p.2 ≤ c.regionLen →
    ∃ t, exec (p.1 x false) s = .next t ∧ s.wentOn t x h ∧
      ∀ q, t.rill q = { s.rill q with
        port0 := (t.rill q).port0, port1 := (t.rill q).port1,
        lsWait := if q = r then (s.rill r).lsWait ++
            [{ ctx := ctxKey x.part x.ctx, thr := x.thr, op := p.2, off := c.regionBase + x.lsAddr h,
               rd := if lsWritesRd p.2 then x.rd else 0, data := h.reg x.rb }]
          else (s.rill q).lsWait }

/-- R97, R231, R232: a bank grants the access that waits for it: the access is carried out, and the bank's pointer moves
past its thread.  R86: a fill of the line that a thread waits for puts it into the instruction cache, and the thread is
READY. -/
def Obligations.GrantsAndFills : Prop :=
  (∀ (s : State) (r bank : Nat) (q : LsReq),
      s.pwr.held = false → (s.rill r).lsWait.filter (fun q => decide (bankOf q.off = bank)) = [q] → s.hwOf q < 32 →
      s.poisonAt r q.off (lsBytes q.op) = none → s.calm r →
      let a := spadBase r + q.off
      let old := Memory.le s.mem.cells a (lsBytes q.op)
      ∃ t, exec (.lsBankGrant r bank) s = .next t ∧
        (t.rill r).lsWait = (s.rill r).lsWait.erase q ∧ (t.rill r).bankPtr.getD bank 0 = (s.hwOf q + 1) % 32 ∧
        (∀ v, lsStored q.op old q.data.toNat = some v → Memory.readN t.mem.cells a (lsBytes q.op) = leBytes (lsBytes q.op) v) ∧
        (lsStored q.op old q.data.toNat = none → t.mem = s.mem) ∧
        (∀ b, (b < a ∨ a + lsBytes q.op ≤ b) → Memory.read t.mem.cells b = Memory.read s.mem.cells b) ∧
        (∀ h, (s.ctx? q.ctx).bind (fun c => c.thread? q.thr) = some h → (t.ctx? q.ctx).bind (fun c => c.thread? q.thr) =
          some (if lsWritesRd q.op then h.setReg q.rd (lsResult q.op old) else h)) ∧
        s.keepsThreads t q.ctx q.thr ∧ (∀ r', r' ≠ r → t.rill r' = s.rill r') ∧
        t = { s with rills := t.rills, ctxs := t.ctxs, regs := t.regs, mem := { s.mem with cells := t.mem.cells },
                     free := t.free }) ∧
  (∀ (s : State) (part ctx thr r off : Nat) (c : Context) (h : Thread),
      ctx < 65536 → s.ctx? (ctxKey part ctx) = some c → c.rillOf = some r → c.thread? thr = some h → h.wait = .line off →
      (s.part part).inObject off 256 = true → (s.rill r).icache.length < 256 →
      ∃ t, exec (.icacheFill part ctx thr) s = .next t ∧
        t.rill r = { s.rill r with icache := (s.rill r).icache ++ [(part, off)] } ∧ (∀ q, q ≠ r → t.rill q = s.rill q) ∧
        (t.ctx? (ctxKey part ctx)).bind (fun c => c.thread? thr) = some { h with st := .ready, wait := .none } ∧
        (∀ k n, ((t.ctx? k).bind (fun c => c.thread? n)).map Thread.arch =
          ((s.ctx? k).bind (fun c => c.thread? n)).map Thread.arch) ∧
        t = { s with rills := t.rills, ctxs := t.ctxs, free := t.free })

/-! ## The matrix array -/

/-- R99 to R103, R141, R150: at a free array, `mx.cfg` sets the mode, `mx.load` binds the panel, `mx.init` sets an
accumulator set to the identity, `mx.release` gives the array up, and `mx.stream` waits at the front for its pass;
`mx.acquire` takes an array that no context owns. -/
def Obligations.MatrixIssues : Prop :=
  ∀ (s : State) (x : Issue) (r : Nat) (c : Context) (h : Thread),
    s.canIssue x r c h → x.guard h = true → mxFields x = false → s.settled r →
    let k := ctxKey x.part x.ctx
    let runs := fun (i : Instr) (f : Rill → Rill) (g : Context → Context) => ∃ t, exec i s = .next t ∧ s.wentOn t x h ∧
      (∀ q, t.rill q = { (if q = r then f (s.rill q) else s.rill q) with
        port0 := (t.rill q).port0, port1 := (t.rill q).port1, order := (t.rill q).order }) ∧
      (∀ j, (t.ctx? j).map (fun c => { c with threads := [], blockedSince := none }) =
        (s.ctx? j).map (fun c => { (if j = k then g c else c) with threads := [], blockedSince := none }))
    (s.arrayFree r k →
      (x.ra = 0 → bits x.imm.toNat 0 14 = 0 → cfgOk x.imm = true →
        runs (.mxCfg x) id (fun c => { c with mode := x.imm })) ∧
      (∀ d, x.imm = 0 → s.readDesc c r (h.reg x.ra).toNat false = .ok d → tSpace d = 0 →
        runs (.mxLoad x) id (fun c => { c with panel := some d })) ∧
      (x.ra = 0 → x.imm.toNat < 2 → runs (.mxInit x) (fun v => { v with array :=
        { v.array.setAcc x.imm.toNat (identitySet (modeAop c.mode)) with
          badAcc := v.array.badAcc.filter (fun y => decide (y.1 ≠ x.imm.toNat)) } }) id) ∧
      (x.ra = 0 → x.imm = 0 → runs (.mxRelease x) (fun v => { v with array := { v.array with owner := none } }) id) ∧
      (bits x.imm.toNat 2 6 = 0 → bits x.imm.toNat 16 16 = 0 → runs (.mxStream x) (fun v => { v with mxQ :=
        [{ ctx := k, thr := x.thr, op := 2, d := 0, a := h.reg x.ra, b := 0, imm := x.imm, order := v.order }] }) id)) ∧
    (x.ra = 0 → x.imm = 0 → (s.rill r).array.owner = none →
      runs (.mxAcquire x) (fun v => { v with array := { v.array with owner := some k } }) id)

/-- R143 to R147: the `mx.stream` at the front of the queue of a free array starts its first pass: what the pass will
commit is formed from its operands as they are now, and its flags are set. -/
def Obligations.PassStarts : Prop :=
  ∀ (s : State) (r : Nat) (q : QEntry) (c : Context) (a b : BitVec 256),
    s.pwr.held = false → s.running = true → (s.rill r).mxQ = [q] → (s.popMx r).arrayFree r q.ctx →
    (s.rill r).array.phase = .idle → q.op = 2 → s.ctx? q.ctx = some c → s.lsPending q r = false →
    (s.popMx r).passCheck c r q = .run a b none → s.tilePoison r c.regionBase a = none →
    s.tilePoison r c.regionBase b = none → (∀ y ∈ (s.rill r).array.badAcc, y.1 ≠ immSet q.imm) → s.settled r →
    let n := immDone q.imm + 1
    let im := passImages (modePass c.mode) n
    let enter := fun (d : BitVec 256) (i : Image) => enterTile s.mem.cells (spadBase r + c.regionBase + tAddr d) d i
      (modeRne c.mode) (modeDenorm c.mode)
    let w := passRows c.mode n 0 ((s.rill r).array.acc (immSet q.imm)) (enter a im.1) (enter b im.2)
    ∃ t, exec (.mxPassStart r) s = .next t ∧ (((s.popMx r).setArray r { (s.rill r).array with
      cur := some q, phase := .running, passNo := n, set := immSet q.imm,
      steps := kSteps (fmtClass (modeFmtA c.mode)) (tCols a), done := 0, w := w.1, streams := [] }).orFlags
        (arReg r 0x20) w.2).marked t

/-- R145, R148, R161: the last pass of an `mx.stream` commits: each entry of its set that the pass formed takes its value,
the other entries stand, and the commit is counted.  R166, R167: a stop request lets a pass with at most 1,024 K-steps left
finish; one with more is abandoned, and its `mx.stream` is recorded first in the context's image with the passes that it has
completed. -/
def Obligations.PassEnds : Prop :=
  (∀ (s : State) (r : Nat) (q : QEntry) (c : Context),
      let a := (s.rill r).array
      s.pwr.held = false → a.cur = some q → s.ctx? q.ctx = some c → modePass c.mode ≤ a.passNo → (s.rill r).mxQ = [] →
      s.settled r →
      ∃ t, exec (.passCommitted r) s = .next t ∧
        (((s.setArray r a.commit.stop).addF (arCommitted r) 1).creditRill r 3 1).marked t ∧
        (t.rill r).array.cur = none ∧
        ∀ p, ((t.rill r).array.acc a.set).getD p 0 =
          ((a.w.reverse.find? (fun y => decide (y.1 = p))).map (fun y => y.2)).getD ((a.acc a.set).getD p 0)) ∧
  (∀ (s : State) (r n : Nat) (q : QEntry) (c : Context),
      let a := (s.rill r).array
      a.cur = some q → s.ctx? q.ctx = some c → c.stopping = true → n ≤ a.steps →
      (a.steps - n ≤ 1024 → exec (.arrayStopRequest r n) s = .next (s.setArray r { a with done := n })) ∧
      (1024 < a.steps - n → (s.rill r).mxQ = [] → s.settled r →
        ∃ t, exec (.arrayStopRequest r n) s = .next t ∧
          ((((s.addF (arAbandoned r) 1).creditRill r 4 1).setArray r a.stop).setCtx q.ctx
            { c with mx := { q with imm := immWithDone q.imm (a.passNo - 1) } :: c.mx }).marked t))

/-- R169, R180, R181: errors of the array: a corrected one is counted and raised; an uncorrectable one in a cell or a
feeder, with no pass running, is counted and raised, a recovery begins, and the array checks itself; a self-check that
passes leaves the array idle.  R178, R181: an uncorrectable accumulator entry that a save reads: the entry stays bad until
its next write, the saved copy holds a value that is left open, and the cause is counted and raised and a recovery begins. -/
def Obligations.ArrayErrors : Prop :=
  (∀ (s : State) (r : Nat),
      (∀ v : BitVec 8, ∃ t, exec (.cellCorrected r v) s = .next t ∧
        (s.satF (arEccCorrected r) 1).told t
          (if v = 2 then kArFeederCorrected else if v = 3 then kArAccCorrected else kArCellCorrected) r) ∧
      ((s.rill r).array.cur = none → (s.rill r).mxQ = [] → s.settled r → s.pwr.recovery = none →
        ∀ p ∈ [(Instr.cellUncorrected r, kArCellUncorrected), (.feederUncorrected r, kArFeederUncorrected)],
          ∃ u t, exec p.1 s = .next t ∧ (s.satF (arEccUncorrected r) 1).told u p.2 r ∧
            ((u.recovering (.rill r)).setArray r { (s.rill r).array with phase := .selfCheck }).marked t) ∧
      ((s.rill r).array.cur = none → (s.rill r).mxQ = [] → s.settled r → (s.rill r).array.phase = .selfCheck →
        ∃ t, exec (.arraySelfCheckDone r true) s = .next t ∧
          (s.setArray r { (s.rill r).array with phase := .idle }).marked t)) ∧
  (∀ (s : State) (r entry k : Nat) (c : Context),
      entry < 4096 → (s.rill r).frames.at? 4 = some k → s.ctx? k = some c → c.loc = .saving r → c.launch ≠ noLaunch →
      c.tiles = [] → c.slots = [] → c.mx = [] → c.vx = [] → c.blockedSince = none → (s.rill r).mxQ = [] → s.settled r →
      s.pwr.recovery = none →
      let a := (s.rill r).array
      ∃ u t, exec (.accUncorrected r 0 entry .save) s = .next t ∧
        ((((s.setArray r { a with badAcc := (0, entry) :: a.badAcc.filter (fun y => decide (y ≠ (0, entry))) }).fresh).setCtx k
          { c with acc0 := putAcc c.acc0 entry (BitVec.ofNat 32 (Config.pick s.free)) }).satF (arEccUncorrected r) 1).told u
            kArAccUncorrected r ∧
        (u.recovering (.rill r)).marked t)

/-! ## The vector engine -/

/-- R102, R103: a VX instruction that R94 allows goes behind the others into a queue that has room, with the three
registers and the IMM, and its thread goes on. -/
def Obligations.VectorIssues : Prop :=
  ∀ (s : State) (x : Issue) (r : Nat) (c : Context) (h : Thread), ∀ p ∈ vectorRows,
    s.canIssue x r c h → x.guard h = true → x.i = false → p.2.2 x = true → (s.rill r).vxRoom = true →
    ∃ t, exec (p.1 x) s = .next t ∧ s.wentOn t x h ∧
      ∀ q, t.rill q = { s.rill q with
        port0 := (t.rill q).port0, port1 := (t.rill q).port1,
        order := (s.rill q).order + (if q = r then 1 else 0),
        vxQ := (s.rill q).vxQ ++ (if q = r then [{
          ctx := ctxKey x.part x.ctx, thr := x.thr, op := p.2.1, d := h.reg x.rd, a := h.reg x.ra, b := h.reg x.rb,
          imm := x.imm, order := (s.rill r).order }] else []) }

/-- R183, R188: the instruction at the front of the VX queue starts when its checks pass, and when it completes its beats
have landed in order and the engine is idle.  R216, R224, R226, R227: a stop request moves a context's queued VX
instructions into its image; an error of the engine is counted and raised, an uncorrectable one begins a recovery and a
self-check; a self-check that passes ends. -/
def Obligations.VectorRuns : Prop :=
  (∀ (s : State) (r : Nat) (q : QEntry) (c : Context),
      s.pwr.held = false → s.ctx? q.ctx = some c → (s.rill r).mxQ = [] → s.settled r →
      (∀ e, s.running = true → (s.rill r).vector.cur = none → (s.rill r).vector.selfCheck = false → (s.rill r).vxQ = [q] →
        s.getF (vxDisable r) = 0 → s.lsPending q r = false → s.vxCheck c r q = .run e → e.streams = [] →
        ∃ t, exec (.vxStart r) s = .next t ∧ (s.setRill r { s.rill r with vxQ := [], vector := e }).marked t) ∧
      (∀ u l, let v := (s.rill r).vector
        v.cur = some q → q.op ≠ 7 → c.launch ≠ noLaunch → s.runBeats c r v q [] 0 v.beats = (u, l, none) →
        ∃ t, exec (.vxComplete r) s = .next t ∧
          ((u.addF (vxSpring r) (q.springs (min (v.beats * v.width)
            (tRows (countTile q.op v.dDesc v.aDesc) * tCols (countTile q.op v.dDesc v.aDesc))))).idleVector r).marked t)) ∧
  (∀ (s : State) (r : Nat),
      (∀ p n c, s.ctx? (ctxKey p n) = some c → c.rillOf = some r → c.stopping = true → s.calm r →
        ∃ t, exec (.vxStopRequest p n) s = .next t ∧
          ((s.setCtx (ctxKey p n) { c with vx := c.vx ++ (s.rill r).vxQ.filter (fun q => decide (q.ctx = ctxKey p n)) }).setRill r
            { s.rill r with vxQ := (s.rill r).vxQ.filter (fun q => decide (q.ctx ≠ ctxKey p n)) }).marked t) ∧
      (∀ v : BitVec 8, v = 0x01 ∨ v = 0x02 → ∀ beat, ∃ t, exec (.laneUncorrected r v beat) s = .next t ∧
        (s.satF (vxEccCorrected r) 1).told t (if v = 0x01 then kVxLaneCorrected else kVxBufferCorrected) r) ∧
      (∀ v : BitVec 8, v = 0x10 ∨ v = 0x11 ∨ v = 0x12 → ∀ beat, (s.rill r).vector.cur = none → (s.rill r).mxQ = [] →
        s.settled r → s.pwr.recovery = none →
        ∃ u t, exec (.laneUncorrected r v beat) s = .next t ∧
          (s.satF (vxEccUncorrected r) 1).told u
            (if v = 0x10 then kVxLaneUncorrected else if v = 0x11 then kVxBufferUncorrected else kVxSpringUncorrected) r ∧
          ((u.recovering (.rill r)).setRill r { s.rill r with vector := { (s.rill r).vector with selfCheck := true } }).marked t) ∧
      ((s.rill r).vector.selfCheck = true → exec (.vxSelfCheckDone r true) s =
        .next (s.setRill r { s.rill r with vector := { (s.rill r).vector with selfCheck := false } })))

/-! ## Fetch and put, and synchronisation -/

/-- R104 to R106, R117, R118: an FT instruction takes the lowest free slot and a tracker, and gives s[RD] the slot's
number; an operation on another module sends its request there, and one of this module whose pages are ready holds them
from then on. -/
def Obligations.FetchPutIssues : Prop :=
  ∀ (s : State) (x : Issue) (r n : Nat) (c : Context) (h : Thread) (o : FtOp),
    s.canIssue x r c h → x.guard h = true → x.i = false → c.freeSlot = some n → (s.rill r).trackers.length < 128 →
    ∀ i : Instr,
    ((x.imm = 0 ∧ s.ftCheck c r 0 (h.reg x.ra).toNat (h.reg x.rb).toNat = .run o ∧ i = .ftGet x) ∨
     (x.imm = 0 ∧ s.ftCheck c r 1 (h.reg x.rb).toNat (h.reg x.ra).toNat = .run o ∧ i = .ftPut x) ∨
     (x.imm = 0 ∧ s.ftCheck c r 2 (h.reg x.rb).toNat (h.reg x.ra).toNat = .run o ∧ i = .ftAddw x) ∨
     (x.lsAddr h % 8 = 0 ∧ ∃ kind, o = {
        kind := kind, spad := 0, memory := 0, addr := h.reg x.ra + x.sext,
        operand := h.reg x.rb, remote := s.isRemote (x.lsAddr h) } ∧
       ((kind = 3 ∧ i = .ftAmoAdd x) ∨ (kind = 4 ∧ i = .ftAmoSwap x)))) →
    let k := ctxKey x.part x.ctx
    let slot := fun (held : Bool) => ({
      op := o, thr := x.thr, done := false, status := 0, value := 0, issued := s.now, discard := false, applied := [],
      translated := held, refused := false, sinceTile := true, quotaSince := none } : Slot)
    let took := fun (t : State) (held : Bool) =>
      (∃ h', t.thread? x = some h' ∧ (∀ m, h'.reg m = if m = x.rd ∧ m ≠ 0 then BitVec.ofNat 64 n else h.reg m) ∧
        h'.preds = h.preds ∧ h'.pc = h.pc + 8 ∧ h'.tile = h.tile) ∧ s.keepsThreads t k x.thr ∧
      (∀ m, (t.ctx? k).bind (fun c => c.slots.at? m) = if m = n then some (slot held) else c.slots.at? m) ∧
      (t.rill r).trackers = (s.rill r).trackers ++ [(k, n, s.tbNs)]
    (o.remote = true → s.fabric.chip ≠ 0xFFFF →
      ∃ t, exec i s = .next t ∧ took t false ∧ t.out = s.out ++
          [.request o.kind (replyTag (keyPart k) (keyNum k) n) (BitVec.ofNat 64 o.address) o.memory
            (if 3 ≤ o.kind then leBytes 8 o.operand.toNat else if o.kind = 0 then [] else s.tileBytes c o.spad)] ∧
        t = { s with rills := t.rills, ctxs := t.ctxs, dbg := t.dbg, regs := t.regs, out := t.out }) ∧
    (o.remote = false → faPart o.address = keyPart k → (s.part (keyPart k)).mapped o = true →
      (∀ m ∈ o.pages, s.fence (keyPart k) c.launch m o.epoch = .proceed ∧ s.bucketPass (keyPart k) m o.writes = .proceed ∧
        s.pageUse (keyPart k) m o.writes = .ready) →
      ∃ t, exec i s = .next t ∧ took t true ∧
        t = { s with rills := t.rills, ctxs := t.ctxs, dbg := t.dbg, regs := t.regs, parts := t.parts,
                     mem := { s.mem with clock := t.mem.clock } })

/-- R117, R119, R120: the completion of an atomic on another module puts its value and status into its slot and frees
its tracker; one that has not come 2 ms after its issue completes with REMOTE_TIMEOUT; a reply to no open slot is
dropped and counted. -/
def Obligations.FetchPutCompletes : Prop :=
  ∀ (s : State) (p n m r : Nat) (c : Context) (z : Slot),
    p < 16 → n < 65536 → m < 128 → s.ctx? (ctxKey p n) = some c → c.rillOf = some r → c.launch ≠ noLaunch →
    c.slots.at? m = some z → z.done = false → z.refused = false → z.discard = false → z.op.remote = true →
    s.calm r → s.noneLeaving →
    let ends := fun (t : State) (z' : Slot) =>
      (∀ j, (t.ctx? (ctxKey p n)).bind (fun c => c.slots.at? j) = if j = m then some z' else c.slots.at? j) ∧
      (∀ q, (t.rill q).trackers = (s.rill q).trackers.filter (fun y => decide (¬ (y.1 = ctxKey p n ∧ y.2.1 = m)))) ∧
      (∀ k j, ((t.ctx? k).bind (fun c => c.thread? j)).map Thread.arch =
        ((s.ctx? k).bind (fun c => c.thread? j)).map Thread.arch) ∧
      t = { s with rills := t.rills, ctxs := t.ctxs, free := t.free }
    (∀ v bad, 3 ≤ z.op.kind → ∃ t, exec (.ftCompletion (replyTag p n m) 0 v [] bad) s = .next t ∧
      ends t { z with done := true, status := 0, value := v }) ∧
    (z.issued + nsU 2000000 ≤ s.now → ∃ t, exec (.remoteTimeout p n m) s = .next t ∧
      ends t { z with done := true, status := kRlRemoteTimeout.flint 0xFFF }) ∧
    (∀ j st v bs bad, j < 128 → c.slots.at? j = none → exec (.ftCompletion (replyTag p n j) st v bs bad) s =
      .next { s with host := { s.host with repliesDropped := s.host.repliesDropped + 1 } })

/-- R108: `sy.fence` and `sy.wait` go on at once when no operation of their classes is open and none is to be observed,
`sy.slot` takes the value of a completed slot and frees it, a barrier lets its thread go on when no other thread of the
context counts, and `sy.yield` lets it wait until both ports have passed it. -/
def Obligations.SyncResults : Prop :=
  ∀ (s : State) (x : Issue) (r : Nat) (c : Context) (h : Thread),
    s.canIssue x r c h → x.guard h = true → x.i = false → s.calm r →
    let k := ctxKey x.part x.ctx
    (Issue.noRegs x = true → c.doneOf x.thr = [] →
      (x.imm.toNat < 3 → s.pendingClasses k x.thr (if x.imm.toNat = 0 then 4 else if x.imm.toNat = 1 then 8 else 15) c = false →
        ∃ t, exec (.syFence x) s = .next t ∧ s.wentOn t x h) ∧
      (x.imm.toNat < 16 → s.pendingClasses k x.thr x.imm.toNat c = false →
        ∃ t, exec (.syWait x) s = .next t ∧ s.wentOn t x h)) ∧
    (∀ z, x.rb = 0 → x.imm = 0 → c.slots.at? ((h.reg x.ra).toNat % 128) = some z → z.discard = false → z.done = true →
      z.status = 0 → ∃ t, exec (.sySlot x) s = .next t ∧ s.keepsThreads t k x.thr ∧
        (∃ h', t.thread? x = some h' ∧ (∀ m, h'.reg m = if m = x.rd ∧ m ≠ 0 then z.value else h.reg m) ∧
          h'.preds = h.preds ∧ h'.pc = h.pc + 8 ∧ h'.tile = h.tile) ∧
        (∀ m, (t.ctx? k).bind (fun c => c.slots.at? m) = if m = (h.reg x.ra).toNat % 128 then none else c.slots.at? m) ∧
        t = { s with rills := t.rills, ctxs := t.ctxs, dbg := t.dbg, free := t.free }) ∧
    (Issue.noRegs x = true → x.imm.toNat < 16 → (∀ n h', c.thread? n = some h' → n ≠ x.thr → h'.st = .free ∨ h'.st = .idle) →
      ∃ t, exec (.syBar x) s = .next t ∧ s.wentOn t x h) ∧
    (Issue.noRegs x = true → x.imm = 0 → ∃ t, exec (.syYield x) s = .next t ∧
      s.ranAs t x (fun h' => h' = { h.advance with yielding := 3 }))

/-- R301 to R303, R306: a thread without a tile that executes `sy.steal` takes the first tile of its rill's deque: its
work item is in the region, s[RD] is the item's offset; when the step is over s[RD] is 0; `sy.halt` leaves its thread
IDLE behind the instruction. -/
def Obligations.StealResults : Prop :=
  ∀ (s : State) (x : Issue) (r : Nat) (c : Context) (h : Thread) (l : Launch),
    s.canIssue x r c h → x.guard h = true → x.i = false → x.ra = 0 → x.rb = 0 → x.imm = 0 → x.ctx < 65536 → s.calm r →
    h.tile = none → s.launch? x.part c.launch = some l →
    let k := ctxKey x.part x.ctx
    (∀ ti rest, (s.part x.part).stepOver l = false → s.handsOut x.part c.launch r = true → l.deques.getD r [] = ti :: rest →
      ∃ t, exec (.sySteal x) s = .next t ∧
        (∃ h', t.thread? x = some h' ∧ h'.tile = some ti ∧ h'.pc = h.pc + 8 ∧ h'.preds = h.preds ∧ h'.st = .ready ∧
          ∀ m, h'.reg m = if m = x.rd ∧ m ≠ 0 then BitVec.ofNat 64 (0x400 + 32 * x.thr) else h.reg m) ∧
        s.keepsThreads t k x.thr ∧ Memory.readN t.mem.cells (spadBase r + c.regionBase + (0x400 + 32 * x.thr)) 32 = ti.item ∧
        t.launch? x.part c.launch = some { l with deques := l.deques.put r rest } ∧
        t = { s with rills := t.rills, ctxs := t.ctxs, dbg := t.dbg, regs := t.regs, parts := t.parts,
                     mem := { s.mem with cells := t.mem.cells }, free := t.free }) ∧
    ((s.part x.part).stepOver l = true → ∃ t, exec (.sySteal x) s = .next t ∧
      (∃ h', t.thread? x = some h' ∧ h'.tile = none ∧ h'.pc = h.pc + 8 ∧ h'.preds = h.preds ∧
        ∀ m, h'.reg m = if m = x.rd ∧ m ≠ 0 then 0 else h.reg m) ∧ s.keepsThreads t k x.thr ∧
      t = { s with rills := t.rills, ctxs := t.ctxs, dbg := t.dbg, free := t.free }) ∧
    (∃ t, exec (.syHalt x) s = .next t ∧
      (∃ h', t.thread? x = some h' ∧ h'.arch = (h.regs, h.preds, h.pc + 8, none) ∧ h'.st = .idle) ∧
      s.keepsThreads t k x.thr ∧ t = { s with rills := t.rills, ctxs := t.ctxs, dbg := t.dbg, free := t.free })

/-- R302, R306, R308: a tile is handed to a thread that waits for one; items of a launch's list follow into its deque as
room appears; and the oldest overflow item of a cascade moves into its fault-return deque. -/
def Obligations.TilesMove : Prop :=
  ∀ (s : State), s.pwr.held = false →
    (∀ p n thr r c h l rd ti rest, n < 65536 → s.ctx? (ctxKey p n) = some c → c.rillOf = some r → c.thread? thr = some h →
      c.stopped = false → c.stopping = false → c.zeroing = false → s.pwr.resetting = none → h.wait = .steal rd →
      s.launch? p c.launch = some l → (s.part p).stepOver l = false → s.handsOut p c.launch r = true →
      l.deques.getD r [] = ti :: rest → s.calm r →
      ∃ t, exec (.tileHandover p n thr) s = .next t ∧
        (∃ h', (t.ctx? (ctxKey p n)).bind (fun c => c.thread? thr) = some h' ∧ h'.tile = some ti ∧ h'.pc = h.pc + 8 ∧
          h'.st = .ready ∧ ∀ m, h'.reg m = if m = rd ∧ m ≠ 0 then BitVec.ofNat 64 (0x400 + 32 * thr) else h.reg m) ∧
        s.keepsThreads t (ctxKey p n) thr ∧
        t = { s with rills := t.rills, ctxs := t.ctxs, dbg := t.dbg, regs := t.regs, parts := t.parts,
                     mem := { s.mem with cells := t.mem.cells }, free := t.free }) ∧
    (∀ p h r l, s.launch? p h = some l → ∃ t, exec (.tileListRefill p h r) s = .next t ∧
      (∃ l', t.launch? p h = some l' ∧ l'.deques.getD r [] ++ l'.lists.getD r [] = l.deques.getD r [] ++ l.lists.getD r [] ∧
        ((l.deques.getD r []).length ≤ 256 → (l'.deques.getD r []).length =
          min 256 ((l.deques.getD r []).length + (l.lists.getD r []).length)) ∧
        l' = { l with deques := l'.deques, lists := l'.lists }) ∧ t = { s with parts := t.parts }) ∧
    (∀ c x rest, s.frqOverflow c = x :: rest → (s.frq c).length < 256 → exec (.frqOverflowMove c) s =
      .next { s with frqs := s.frqs.put c (s.frq c ++ [x]), frqOver := s.frqOver.put c rest })

/-! ## Scratchpads and register files -/

/-- R134, R135, R240 to R244, R246: corrected errors are counted and raised; a register file beyond correction takes its
rill out of service; a spare replaces a bank; a scrub read without an error changes nothing; a region that is zeroed
reads zero, and its context may issue. -/
def Obligations.ScratchpadEvents : Prop :=
  ∀ (s : State) (r : Nat),
    (∃ t, exec (.regCorrected r) s = .next t ∧ (s.satF (rlEccCorrected r) 1).told t kRlRegCorrected r) ∧
    (s.pwr.recovery = none → s.residentOn r = [] → ∃ u t, exec (.regUncorrected r) s = .next t ∧
      s.told u kRlRegUncorrected r ∧ t = (u.recovering (.rill r)).outOfService r) ∧
    (∀ off, ∃ t, exec (.scratchpadCorrected r off false) s = .next t ∧
      (((s.satF (spEccCorrected r) 1).setF (spEccOffset r) off).setF (spEccKind r) 0).told t kSpCorrected r) ∧
    (∀ off, ∃ t, exec (.scratchpadCorrected r off true) s = .next t ∧
      (((s.satF (spEccScrub r) 1).setF (spEccOffset r) off).setF (spEccKind r) 0).told t kSpScrubCorrected r) ∧
    (∀ off, off < 0x100000 → off % 4 = 0 → (s.rill r).poison.contains off = false →
      (s.rill r).hitBanks.contains (bankOf off) = false → s.pwr.recovery = none → s.ctxsAt r off = [] →
      (s.rill r).mxQ = [] → s.settled r →
      ∃ u t, exec (.scratchpadUncorrected r off .host) s = .next t ∧
        (((s.setRill r { s.rill r with poison := insertLane (s.rill r).poison off }).satF (spEccUncorrected r) 1).setF
          (spEccOffset r) off |>.setF (spEccKind r) 1).told u kSpUncorrected r ∧
        ((u.recovering (.bank r (bankOf off))).setRill r { u.rill r with hitBanks := (s.rill r).hitBanks ++ [bankOf off] }).marked t) ∧
    (∀ bank, s.getF (spSparesUsed r) < 2 → (s.rill r).hitBanks.contains bank = true → s.pwr.recovery = none →
      let n := s.getF (spSparesUsed r)
      ∃ u, exec (.bankReplaced r bank) s = .next (u.recovering (.bank r bank)) ∧
        (((s.setF (spSparesUsed r) (n + 1)).setF (spSpareBank r n) bank).setRill r
          { s.rill r with hitBanks := (s.rill r).hitBanks.filter (fun b => decide (b ≠ bank)) }).told u kSpBankReplaced r) ∧
    (∀ bank, exec (.scrubRead r bank) s = .next s) ∧
    (∀ p n f c, s.ctx? (ctxKey p n) = some c → c.loc = .resident r f → c.zeroing = true →
      ∃ t, exec (.regionZeroed p n) s = .next t ∧
        (∀ a, Memory.read t.mem.cells a = if spadBase r + c.regionBase ≤ a ∧ a < spadBase r + c.regionBase + c.regionLen then 0
          else Memory.read s.mem.cells a) ∧
        (∀ l ∈ (t.rill r).poison, l ∈ (s.rill r).poison ∧ ¬ (c.regionBase ≤ l ∧ l + 4 ≤ c.regionBase + c.regionLen)) ∧
        t.ctx? (ctxKey p n) = some { c with zeroing := false } ∧
        t = { s with rills := t.rills, ctxs := t.ctxs, mem := { s.mem with cells := t.mem.cells } })

/-! ## The stream table -/

/-- R260, R261, R282, R284, R290: a fill puts the entry into a cascade's cache that has room; an uncorrectable copy is
dropped and fetched again; an uncorrectable entry becomes BROKEN; and a flush writes contributions back. -/
def Obligations.StreamTableEvents : Prop :=
  ∀ (s : State) (c n : Nat), c < 64 → n < 16384 →
    let filled := fun (u : State) => { (u.addF (stMiss c) 1).setCopies c ((u.copies c).put n
      { entry := u.entry n, g2 := 0, u2 := 0, w2 := 0, elems := 0, used := u.mem.clock }) with
        mem := { u.mem with clock := u.mem.clock + 1 } }
    (s.copy? c n = none → (s.copies c).length < 64 → exec (.streamCacheFill c n) s = .next (filled s)) ∧
    (∀ y, s.copy? c n = some y → ((s.copies c).del n).length < 64 →
      ∃ u, exec (.entryUncorrected n (some c)) s = .next (filled u) ∧
        ((s.setCopies c ((s.copies c).del n)).satF stEccCorrected 1).told u kStEntryCorrected 0xFFF) ∧
    (∃ t, exec (.entryUncorrected n none) s = .next t ∧ eState (t.entry n) = 4 ∧ t.logs (kStEntryUncorrected.flint 0xFFF) ∧
      (∀ m, m ≠ n → t.entry m = s.entry m) ∧ (∀ d y, t.copy? d n = some y → y.entry = t.entry n ∨ 64 ≤ d)) ∧
    (∃ t, exec .stFlush s = .next t ∧ (∀ d m y, d < 64 → t.copy? d m = some y → y.elems = 0) ∧
      (∀ m, (∀ d, d < 64 → s.copy? d m = none) → t.entry m = s.entry m) ∧
      t = { s with streams := t.streams, streamCaches := t.streamCaches })

/-- R270, R277 to R281: the stream commands. -/
def Obligations.StreamCommands : Prop :=
  ∀ (s : State) (fn : Nat) (d : BitVec 512),
    let n := dfld d 16 0 14
    let e := s.entry n
    (∀ m, s.accepted streamOpenRow fn d → openFieldsOk d = true → dfld d 44 15 1 = 0 →
      ((s.part (s.opPart streamOpenRow fn d)).objAt (dfld d 24 0 44)).isSome = true → s.freeEntry = some m →
      s.entriesOf (s.opPart streamOpenRow fn d) < (s.part (s.opPart streamOpenRow fn d)).grant.streams →
      dfld d 16 1 1 = 0 →
      let new := openedEntry (s.entry m) (s.opPart streamOpenRow fn d) d
      exec (.streamOpen fn d) s = .next (((s.begun streamOpenRow fn d).setEntry m new).finish (s.newCmd streamOpenRow fn d) 0
        (BitVec.ofNat 64 (m + eGen new * 65536)))) ∧
    (s.accepted vfNone fn d → dfld d 16 14 2 = 0 → s.notOwner (s.newCmd vfNone fn d) n = false →
      (dfld d 18 0 16 < 32 → dfld d 60 0 32 = 0 → eState e = 1 ∨ eState e = 3 →
        (eGeneration e = true → bit (dfld d 18 0 16) 1 = false ∧ bit (dfld d 18 0 16) 3 = false) →
        (eGeneration e = false → bit (dfld d 18 0 16) 4 = false) → bit (dfld d 18 0 16) 3 = false →
        exec (.streamUpdate fn d) s = .next ((((s.begun vfNone fn d).setEntry n (updatedEntry e d)).updateCopies n).finish
          (s.newCmd vfNone fn d) 0 0)) ∧
      (dRestZero d [(16, 0, 16), (18, 0, 1)] = true → eState e = 1 ∨ eState e = 3 →
        (eGeneration e = false → s.isLinked n = false) →
        let u := (s.begun vfNone fn d).setEntry n (eSet e 0 0 3 2)
        (s.released n = false → exec (.streamClose fn d) s = .next u) ∧
        (s.released n = true → (∀ a, a < 64 → s.copy? a n = none) → dfld d 18 0 1 = 0 →
          ∃ v : State, exec (.streamClose fn d) s = .next (v.finish (s.newCmd vfNone fn d) 0 (BitVec.ofNat 64 (eStep e))) ∧
            eState (v.entry n) = 0 ∧ eGen (v.entry n) = eGen e ∧ (∀ m, m ≠ n → v.entry m = s.entry m) ∧
            v = { s.begun vfNone fn d with streams := v.streams, streamCaches := v.streamCaches }))) ∧
    (s.accepted vfNone fn d → fn = 0 → dRestZero d [(16, 0, 14), (18, 0, 1), (20, 0, 16), (24, 0, 64)] = true →
      dfld d 20 0 16 = 1 → dfld d 24 0 64 % 128 = 0 → dfld d 18 0 1 = 0 → (∀ a, a < 64 → s.copy? a n = none) →
      exec (.streamQuery fn d) s = .next (((s.begun vfNone fn d).hostWrite (dfld d 24 0 64) (leBytes 128 e.toNat)).finish
        (s.newCmd vfNone fn d) 0 0))

/-! ## Partitions, graphs and launches -/

/-- R291 to R298, R541 to R544: `partition.create` makes a NONE partition ACTIVE with its grant; `partition.query` writes
the 64-byte record; `partition.resize` waits for the step boundary of the launches; and `partition.destroy` of a partition
that holds nothing frees it at once.  R296, R389: stages 4 to 6 of a resize of a partition that holds no page and no line
end it with the new grant and quota. -/
def Obligations.PartitionCommands : Prop :=
  (∀ (s : State) (fn : Nat) (d : BitVec 512),
      let p := dfld d 16 0 4
      let q := s.part p
      (let i : Issuer := ⟨true, some 0, false⟩;
        s.accepted i fn d → s.grantCheck p (grantOf d) = none → dfld d 20 0 15 ≤ 16384 →
        (q.state = 0 → dRestZero d grantFields = true → dfld d 18 0 4 ≤ s.host.numVfs →
          dfld d 18 0 4 = 0 ∨ s.partOfVf (dfld d 18 0 4) = none →
          let u := ((s.begun i fn d).setPart p (Part.created d q.retired)).clearRecord p
          exec (.partitionCreate fn d) s =
            .next ((if s.mode = .ready then u.setMode .service else u).finish (s.newCmd i fn d) 0 0)) ∧
        (q.state = 1 → dRestZero d [(16, 0, 4), (20, 0, 15), (24, 0, 64), (32, 0, 64), (40, 0, 64)] = true →
          q.allHold = false → exec (.partitionResize fn d) s = .next ((s.begun i fn d).setPart p
            { q with state := 2, newGrant := some (grantOf d), stage := 1 }))) ∧
      (s.accepted vfPart fn d → fn = 0 → dRestZero d [(16, 0, 4), (24, 0, 64)] = true → dfld d 24 0 64 % 64 = 0 →
        exec (.partitionQuery fn d) s = .next (((s.begun vfPart fn d).hostWrite (dfld d 24 0 64) (s.partRecord p)).finish
          (s.newCmd vfPart fn d) 0 0)) ∧
      (s.accepted pfPart fn d → dOpcode d = 0x0103 → dRestZero d [(16, 0, 4)] = true → q.state ≠ 3 → q.launches = [] →
        q.objects = [] → (∀ e ∈ s.streams, eState e.2 = 0 ∨ ePart e.2 ≠ p) → (∀ o ∈ s.coll.ops, o.part ≠ p) →
        (∀ e ∈ s.host.inProgress, dOpcode e.d ≠ 0x0102 ∧ dOpcode e.d ≠ 0x0103) → s.noneLeaving →
        ∃ t, exec (.partitionDestroy fn d) s = .next t ∧ t.part p = { Part.reset with retired := q.retired } ∧
          (∀ r, r ≠ p → t.part r = s.part r) ∧ t.host.inProgress = s.host.inProgress ∧
          t = { s with parts := t.parts, coll := t.coll, mode := t.mode, out := t.out, host := t.host, mem := t.mem })) ∧
  (∀ (s : State) (p : Nat) (g : Grant),
      let q := s.part p
      q.newGrant = some g → q.state = 2 → q.stage = 3 → q.pages = [] → s.mem.lines = [] → s.host.inProgress = [] →
      s.noneLeaving → s.ctxs = [] →
      ∃ t, exec (.resizeComplete p) s = .next t ∧
        t.part p = { q with
          grant := g, quotaH := resizedQuota q.quotaH q.grant.groups g.groups, state := 1, newGrant := none, stage := 0, oldCascades := 0 } ∧
        (∀ r, r ≠ p → t.part r = s.part r) ∧ t = { s with parts := t.parts })

/-- R545 to R552: `graph.load` keeps a graph and its code, or frees one; `graph.launch` starts a launch, or goes on with
a parked one; `graph.preempt` parks a launch and stops its contexts; `schedule_table.set` takes a table for the next
period; `step.fence` waits for the step boundary. -/
def Obligations.GraphCommands : Prop :=
  ∀ (s : State) (fn : Nat) (d : BitVec 512),
    let i := vfPart
    let p := s.opPart i fn d
    let q := s.part p
    let u := s.begun i fn d
    let c := s.newCmd i fn d
    (s.accepted i fn d →
      (∀ g, dfld d 17 1 1 = 1 → dRestZero d [(16, 0, 4), (17, 1, 1), (20, 0, 16)] = true →
        q.graphs.at? (dfld d 20 0 16) = some g → (∀ l ∈ q.launches, l.2.graph ≠ dfld d 20 0 16) →
        exec (.graphLoad fn d) s = .next ((u.freeGraph p (dfld d 20 0 16) g).finish c 0 0)) ∧
      (∀ g k v b, dfld d 17 0 2 = 0 → dRestZero d [(16, 0, 4), (17, 0, 1), (24, 0, 64), (32, 0, 64)] = true →
        let rd := s.srcLe p false (dfld d 24 0 64)
        s.readGraph p rd (dfld d 32 0 64) = some g → (List.range 64).find? (fun k => (q.graphs.at? k).isNone) = some k →
        u.declare p (Obj.plain (max 1 ((g.1.code + pageBytes - 1) / pageBytes)) 7) = some (v, b) →
        let w := v.collWrite p b (leBytes g.1.code (rd g.1.codeOff g.1.code))
        exec (.graphLoad fn d) s = .next ((w.setPart p { w.part p with
          graphs := (w.part p).graphs.put k { g.2 with code := b } }).finish c 0 (BitVec.ofNat 64 k))) ∧
      (∀ l, dfld d 17 0 1 = 1 → dRestZero d [(16, 0, 4), (17, 0, 1), (20, 0, 16)] = true →
        q.launches.at? (dfld d 20 0 16) = some l → l.parked = true →
        exec (.graphLaunch fn d) s = .next ((u.setLaunch p (dfld d 20 0 16) { l with parked := false }).finish c 0 0)) ∧
      (∀ g v, dfld d 17 0 1 = 0 → s.launchOk p d = true → q.launches.length < 4 → q.graphs.at? (dfld d 18 0 16) = some g →
        u.startLaunch p d g = some v → exec (.graphLaunch fn d) s = .next v) ∧
      (∀ l k, let h := dfld d 20 0 16
        dRestZero d [(16, 0, 4), (20, 0, 16)] = true → s.launch? p h = some l → q.state = 1 → l.parked = false →
        k ∈ s.ctxsOf p h → (s.ctx? k).any (fun x => decide (x.loc ≠ .saved)) = true →
        (∃ t, exec (.graphPreempt fn d) s = .next t ∧ t.launch? p h = some { l with parked := true } ∧
          (∀ j ∈ s.ctxsOf p h, ∀ x r f, s.ctx? j = some x → x.loc = .resident r f →
            t.ctx? j = some { x with stopReq := true }) ∧
          (∀ j, j ∉ s.ctxsOf p h → t.ctx? j = s.ctx? j) ∧ t = { u with host := t.host, parts := t.parts, ctxs := t.ctxs })) ∧
      (dRestZero d [(16, 0, 4), (17, 0, 1), (20, 0, 16)] = true → (s.launch? p (dfld d 20 0 16)).isSome = true →
        exec (.stepFence fn d) s = .next u)) ∧
    (∀ es, s.accepted pfPart fn d → (s.part (dfld d 16 0 4)).serving = true →
      (s.part (dfld d 16 0 4)).schedule = none →
      dRestZero d [(16, 0, 4), (20, 0, 16), (24, 0, 64)] = true → 1 ≤ dfld d 20 0 16 → dfld d 20 0 16 ≤ 64 →
      dfld d 24 0 64 % 8 = 0 → allSome ((List.range (dfld d 20 0 16)).map (fun j =>
        (s.part (dfld d 16 0 4)).readSlot (Memory.le s.mem.host (dfld d 24 0 64 + 8 * j) 8))) = some es →
      let at_ := (s.tbNs + 999) / 1000 * 1000
      exec (.scheduleTableSet fn d) s = .next (((s.begun pfPart fn d).setPart (dfld d 16 0 4) { s.part (dfld d 16 0 4) with
        nextSchedule := some { entries := es, start := at_, slot := 0, early := false } }).finish (s.newCmd pfPart fn d) 0
          (BitVec.ofNat 64 at_)))

/-- R300, R443: the next phase of a launch is released when nothing holds it, its tiles going to the deques of the rills
in service; a gated phase also when its gate is looked at again. -/
def Obligations.PhaseReleases : Prop :=
  ∀ (s : State) (p h : Nat) (l : Launch) (g : Graph) (ph : Phase),
    let q := s.part p
    let rills := q.rills.filter s.inService
    let l' := q.releaseTiles rills g h l.phase ((List.range ph.tileCount).map (fun i => ph.firstTile + i))
      { l with released := true, ended := [] }
    s.pwr.held = false → q.launches.at? h = some l → q.graphs.at? l.graph = some g → g.phases[l.phase]? = some ph →
    l.released = false → l.holding = false → q.state = 1 ∨ q.state = 2 → q.bucketsReady ph = true →
    s.gateOpen p ph l.step = true → (l.phase = 0 → 0 < l.step → s.tokensValid p l.tokens = false) → rills ≠ [] →
    q.launchLayers l' = [] →
    exec (.phaseRelease p h) s = .next (s.setLaunch p h l') ∧
    (ph.gated = true → exec (.gateCheck p h) s = .next (s.setLaunch p h l'))

/-- R299, R551: at the step boundary of a launch that goes on, without buckets, tokens, fences or a schedule, the next step
starts at phase 0.  R320, R321, R323: a slot of a cyclic schedule begins: the contexts of other launches are asked to stop;
the removal of a table takes effect at its time. -/
def Obligations.StepsAndSchedules : Prop :=
  (∀ (s : State) (p h : Nat) (l : Launch),
      let q := s.part p
      s.pwr.held = false → s.launch? p h = some l → s.stepDone p h l = true → l.steps = 0 → l.tokens = none →
      q.state = 1 → q.schedule = none → q.objects = [] → q.buckets = [] → s.coll.reshards = [] → s.host.inProgress = [] →
      ∃ t, exec (.launchStepBoundary p h) s = .next t ∧
        (∃ l', t.launch? p h = some l' ∧ l'.step = l.step + 1 ∧ l'.phase = 0 ∧ l'.ended = [] ∧ l'.stepStart = s.now ∧
          l'.holding = false) ∧
        (∀ k, k ≠ h → t.launch? p k = s.launch? p k) ∧ (∀ r, r ≠ p → t.part r = s.part r) ∧ t = { s with parts := t.parts }) ∧
  (∀ (s : State) (p : Nat),
      let q := s.part p
      s.pwr.held = false → q.state = 1 →
      (∀ c e, q.schedule = some c → c.start ≤ s.tbNs → c.period ≠ 0 →
        let i := slotAt c.entries 0 ((s.tbNs - c.start) % c.period)
        i ≠ c.slot → c.entries[i]? = some e → q.launches.at? e.launch = none → Tab.sorted s.ctxs = true →
        ∃ t, exec (.slotStart p) s = .next t ∧ t.part p = { q with schedule := some { c with slot := i, early := false } } ∧
          (∀ k x r f, keyPart k = p → s.ctx? k = some x → x.launch ≠ noLaunch → x.launch ≠ e.launch → x.loc = .resident r f →
            t.ctx? k = some { x with stopReq := true }) ∧
          (∀ r, r ≠ p → t.part r = s.part r) ∧ t = { s with parts := t.parts, ctxs := t.ctxs }) ∧
      (∀ n, q.nextSchedule = some n → n.start ≤ s.tbNs → n.entries = [] →
        exec (.scheduleTableEffect p) s = .next (s.setPart p { q with schedule := none, nextSchedule := none })))

/-! ## Contexts -/

/-- R122 to R125, R312 to R318: a stop request that reaches a rill whose frame 4 is taken records the context's queued
instructions; the end of a save makes the context SAVED with its region, and frees frame 4. -/
def Obligations.ContextSaves : Prop :=
  ∀ (s : State) (p n r : Nat) (c : Context),
    let k := ctxKey p n
    let v := s.rill r
    s.pwr.held = false → s.ctx? k = some c → s.calm r →
    (∀ f latency, c.loc = .resident r f → c.stopReq = true → c.stopping = false → c.zeroing = false →
      (v.frames.at? 4).isSome = true →
      let mine := fun (q : QEntry) => decide (q.ctx = k)
      ∃ t, exec (.contextStopRequest p n latency) s = .next t ∧
        ((((s.setCtx k { c with stopping := true, mx := c.mx ++ v.mxQ.filter mine, vx := c.vx ++ v.vxQ.filter mine }).setRill r
          { v with mxQ := v.mxQ.filter (fun q => !mine q), vxQ := v.vxQ.filter (fun q => !mine q) }).setF (swPreLast r)
            latency).setF (swPreMax r) (max (s.getF (swPreMax r)) latency)).marked t) ∧
    (c.loc = .saving r → (∀ m ∈ c.imagePages, s.pagePoison (keyPart k) m = false) → s.saveLanes r c = [] →
      (∀ y ∈ s.residentOn r, y.2.stopping = false) → (s.part p).state = 1 →
      (∀ e ∈ s.host.inProgress, dOpcode e.d ≠ 0x0403) →
      ∃ t, exec (.contextSaveComplete p n) s = .next t ∧
        ((((s.setCtx k { c with
          loc := .saved, stopReq := false, stopping := false, tbSave := s.clk.tb,
          region := Memory.slice s.mem.cells (spadBase r + c.regionBase) c.regionLen 0 }).setRill r
            { v with frames := v.frames.del 4, trackers := v.trackers.filter (fun y => decide (y.1 ≠ k)) }).addF (swSaves r)
              1).credit (keyPart k) 25 1).marked t)

/-- R124, R125, R313 to R315: a rill with room starts restoring the context that is offered first, at a free region; at
the end of the restore it is resident in a free frame, its region holds what was saved, and its threads what they had. -/
def Obligations.ContextRestores : Prop :=
  ∀ (s : State) (r : Nat), s.pwr.held = false →
    (∀ p k c b, s.partOfCascade (r / 16) = some p → s.restoresOn p r = true → (s.rill r).frames.at? 4 = none →
      firstOffered (s.rill r).swap (s.restorable p r none) = some (k, c) → s.ctx? k = some c →
      (∀ m ∈ c.imagePages, s.pagePoison (keyPart k) m = false) → s.choose (s.freeBases r c.regionLen none) = some b →
      ∃ t, exec (.contextRestore r) s = .next t ∧
        t.ctx? k = some { c with loc := .restoring r, regionBase := b, zeroing := s.needsZero r b c.regionLen (keyPart k) } ∧
        (∀ j, j ≠ k → t.ctx? j = s.ctx? j) ∧
        t.rill r = { s.rill r with
          frames := (s.rill r).frames.put 4 k, swap := none,
          array := if c.ownsArray then { (s.rill r).array with owner := some k } else (s.rill r).array } ∧
        (∀ q, q ≠ r → t.rill q = s.rill q) ∧ t = { s with rills := t.rills, ctxs := t.ctxs, free := t.free }) ∧
    (∀ p n c, let k := ctxKey p n
      s.ctx? k = some c → c.loc = .restoring r → c.zeroing = false →
      (∀ m ∈ c.imagePages, s.pagePoison (keyPart k) m = false) → c.slots = [] → c.mx = [] → c.vx = [] → c.held = [] →
      c.lostLanes = false → c.ownsArray = false → c.stopping = false → (∀ h ∈ c.threads, h.wait = .none) →
      (∃ f, f < 4 ∧ (s.rill r).frames.at? f = none) → c.threads.length ≤ (s.freeHw r).length → (s.rill r).mxQ = [] →
      s.settled r → (∀ y ∈ s.residentOn r, y.2.stopping = false) → Memory.wf s.mem.cells = true → Memory.wf c.region = true →
      (∀ y ∈ c.region, y.1 < c.regionLen) →
      ∃ t, exec (.contextRestoreComplete p n) s = .next t ∧
        (∃ c' f, t.ctx? k = some c' ∧ f < 4 ∧ (s.rill r).frames.at? f = none ∧ c'.loc = .resident r f ∧
          c'.threads.map Thread.arch = c.threads.map Thread.arch) ∧
        (∀ a, Memory.read t.mem.cells a = if spadBase r + c.regionBase ≤ a ∧ a < spadBase r + c.regionBase + c.regionLen then
          Memory.read c.region (a - (spadBase r + c.regionBase)) else Memory.read s.mem.cells a) ∧
        (∀ j, j ≠ k → (t.ctx? j).map (fun x => { x with blockedSince := none }) =
          (s.ctx? j).map (fun x => { x with blockedSince := none })) ∧
        t = { s with rills := t.rills, ctxs := t.ctxs, mem := { s.mem with cells := t.mem.cells }, regs := t.regs,
                     dbg := t.dbg, free := t.free })

/-- R309, R316, R317, R332: a swap of the longest blocked context asks it to stop; errors of deques and of the location
table; a rill put out of service or back; and a context number free again after 2 ms. -/
def Obligations.ContextEvents : Prop :=
  ∀ (s : State) (r : Nat),
    (∀ p k c, s.pwr.held = false → s.partOfCascade (r / 16) = some p → victimOf (s.residentOn r) = some (k, c) →
      s.getF swSwapEn = 1 →
      (∀ x ∈ s.residentOn r, x.2.stopReq = false ∧ ∃ b, x.2.blockedSince = some b ∧
        b + nsU (max 1 (s.getF swSwapHold)) ≤ s.now) →
      s.restorable p r (some k) ≠ [] → s.restoresOn p r = true →
      exec (.blockedSwap r) s = .next ((s.requestStop k).setRill r { s.rill r with swap := some c.launch })) ∧
    (∀ p h l, s.launch? p h = some l → r < 1024 → bit (s.part p).grant.cascades.toNat (r / 16) = true →
      l.released = false → s.pwr.recovery = none →
      ∃ u, exec (.dequeUncorrected p h r) s =
          .next ((u.recovering (.cascade (r / 16))).setLaunch p h { l with deques := l.deques.del r }) ∧
        s.told u kSwDequeUncorrected r) ∧
    (∀ p n c, s.ctx? (ctxKey p n) = some c → c.launch ≠ noLaunch →
      ∃ u, exec (.locationUncorrected p n) s = .next (u.endLaunch p c.launch (kSwLocationUncorrected.flint (partInst p))) ∧
        s.told u kSwLocationUncorrected (partInst p)) ∧
    (r < 1024 → (∀ v : W64, bit v.toNat 0 = false → exec (.rlOutOfService r v) s = .next (s.setF (rlOutOfService r) 0)) ∧
      (∀ v : W64, bit v.toNat 0 = true → s.inService r = true → s.residentOn r = [] → s.parts = [] →
        exec (.rlOutOfService r v) s = .next (s.setF (rlOutOfService r) 1))) ∧
    (∀ p n b, (s.part p).retired.at? n = some b →
      (b + nsU 2000000 ≤ s.now → exec (.contextNumberFree p n) s =
        .next (s.setPart p { s.part p with retired := (s.part p).retired.del n })) ∧
      (s.now < b + nsU 2000000 → exec (.contextNumberFree p n) s = .next s))

/-! ## Memory tiers -/

/-- R336 to R345: what an error of HBM or DDR5 counts, records and poisons, as the scrubber or an access finds it; a page
out of use whose row gave an uncorrectable error is repaired while a spare row is left, else retired; a stack without
requests for 10 ms enters self-refresh. -/
def Obligations.MemoryErrors : Prop :=
  ∀ (s : State) (n off : Nat),
    let hb := stackPlace n off
    let dd := connPlace n off
    let unused := fun (x : Place) => ∀ q ∈ s.parts, ∀ g ∈ q.2.pages, g.2.a ≠ some x ∧ g.2.b ≠ some x ∧ g.2.dest ≠ some x
    let ends := fun (i : Instr) (v : State) (k : Cause) (x : Place) => ∃ u t, v.told u k n ∧ exec i s = .next t ∧
      (∀ j, t.mem.poison.at? j = if j = x.key then some true else s.mem.poison.at? j) ∧
      t = { u with mem := { u.mem with poison := t.mem.poison }, regs := t.regs }
    (n < 8 → off < stackLen →
      (s.getF (hbTrained n) = 1 → s.mem.lastReq.getD n 0 + nsU 10000000 ≤ s.now →
        exec (.hbmSelfRefreshEntry n) s = .next (s.setF (hbSelfRefresh n) 1)) ∧
      (s.getF (hbScrubEn n) = 1 →
        exec (.hbmScrubRead n off .clean) s = .next s ∧
        exec (.hbmScrubRead n off .ondieCorrected) s = .next (s.satF (hbEcc n 3) 1) ∧
        ∃ u, ((s.satF (hbEcc n 2) 1).hbmErrAt n off 0).told u kHbScrubCorrected n ∧
          exec (.hbmScrubRead n off .corrected) s = .next (u.noteRow n off)) ∧
      (s.mem.poison.at? hb.key = none → unused hb → s.recordsOf (fun k => keyStack k == some n) < stackRecords n →
        ends (.hbmUncorrected n off) ((s.satF (hbEcc n 1) 1).hbmErrAt n off 1) kHbUncorrected hb ∧
        (s.getF (hbScrubEn n) = 1 →
          ends (.hbmScrubRead n off .uncorrected) ((s.satF (hbEcc n 1) 1).hbmErrAt n off 1) kHbUncorrected hb)) ∧
      (s.getF (hbRepairEn n) = 1 → (s.mem.poison.at? hb.key).isSome = true → hb.key ∉ s.mem.retired → unused hb →
        (∃ u, (s.addF (hbRepairs n) 1).told u kHbRepaired n ∧ exec (.hbmRowRepair n off true) s = .next { u with
          mem := { u.mem with poison := s.mem.poison.del hb.key, rowErrs := s.mem.rowErrs.del (rowKey n off) } }) ∧
        exec (.hbmRowRepair n off false) s = .next
          ({ s with mem := { s.mem with retired := s.mem.retired ++ [hb.key] } }.addF (hbRetired n) 1))) ∧
    (s.connHas n off = true →
      (s.getF (ddScrubEn n) = 1 → exec (.ddrScrubRead n off .clean) s = .next s ∧
        exec (.ddrScrubRead n off .ondieCorrected) s = .next s ∧
        ∃ t, ((s.satF (ddEcc n 2) 1).ddrErrAt n off 0).told t kDdScrubCorrected n ∧
          exec (.ddrScrubRead n off .corrected) s = .next t) ∧
      (s.mem.poison.at? dd.key = none → unused dd → off / pageBytes < 131072 →
        s.recordsOf (fun k => keyConn k == some n) < 4096 →
        ends (.ddrUncorrected n off) ((s.satF (ddEcc n 1) 1).ddrErrAt n off 1) kDdUncorrected dd ∧
        (s.getF (ddScrubEn n) = 1 →
          ends (.ddrScrubRead n off .uncorrected) ((s.satF (ddEcc n 1) 1).ddrErrAt n off 1) kDdUncorrected dd)))

/-- R346 to R350, R369: a sector takes its new content when it is programmed; an uncorrectable codeword poisons its page;
Shale relocates disturbed, weak, failing and static blocks, programming a number of sectors that the spec leaves open,
and its mode follows the spare capacity that is left. -/
def Obligations.FlashEvents : Prop :=
  ∀ (s : State) (page sector d block : Nat), page < flashPages → sector < 32 → d < 4 →
    let a := page * pageBytes + sector * sectorBytes
    let moved := fun (u t : State) => ∃ n, t = (u.addF (fsSectorsProg d) n).fresh
    (∀ bs, bs.length = sectorBytes → s.getF fsMode ≠ 2 →
      ∃ m, exec (.flashSectorWriteDone page sector bs) s = .next
          (({ s with mem := { s.mem with flash := m } }.addF (fsSectorsIn (page % 4)) 1).addF (fsSectorsProg (page % 4)) 1) ∧
        ∀ b, Memory.read m b = if a ≤ b ∧ b < a + sectorBytes then bs.getD (b - a) 0 else Memory.read s.mem.flash b) ∧
    (∀ bs, s.getF fsMode = 2 → ∃ t, exec (.flashSectorWriteDone page sector bs) s = .next t ∧
      s.told t kFsReadOnly (0x100 + page % 4)) ∧
    ((∀ q ∈ s.parts, ∀ g ∈ q.2.pages, g.2.a ≠ some ⟨2, page⟩ ∧ g.2.b ≠ some ⟨2, page⟩) → s.mem.poison.at? (2 ^ 40 + page) = none →
      ∃ u, (s.satF (fsUncorrectedCount (page % 4)) 1).told u kFsUncorrected (4 * (page % 4) + sector % 4) ∧
        exec (.flashUncorrected page sector) s =
          .next { u with mem := { u.mem with poison := s.mem.poison.put (2 ^ 40 + page) true } }) ∧
    (∃ u t, (s.addF (fsRefreshes d) 1).told u kFsDisturbRefresh (0x100 + d) ∧ moved u t ∧
      exec (.disturbRefresh d block) s = .next t) ∧
    (s.getF (fsPatrolEn d) = 1 → exec (.flashPatrol d block false) s = .next s ∧
      ∃ t, moved (s.addF (fsRefreshes d) 1) t ∧ exec (.flashPatrol d block true) s = .next t) ∧
    (∃ t, moved s t ∧ exec (.staticDataMove d block) s = .next t) ∧
    (∃ u v t spare, (s.addF (fsGrownBad d) 1).told u kFsBlockRetired (0x100 + d) ∧ moved u v ∧ spare ≤ 1000 ∧
      exec (.blockRetired d block) s = .next t ∧
      let w := v.fresh.setF fsSpare (spare / 10)
      if spare < 5 then t = w.setF fsMode 2
      else if spare < 20 ∧ w.getF fsMode = 0 then (w.setF fsMode 1).told t kFsLowSpare (0x100 + d)
      else t = w)

/-- R351 to R356, R361: a line is filled with the bytes of memory into a free way of the partition; a flush writes the
dirty lines of a range back, which stay valid, and no byte as read changes; an error in a line that is clean has it
filled again, in a dirty line loses it and poisons its page; `ft.addw` adds FP32 or INT32 elements, and an atomic
replaces its word and keeps the old one in its slot, in a line that is present, at which nothing else changes. -/
def Obligations.PoolCache : Prop :=
  ∀ (s : State) (p a : Nat), let la := a / 256
    (∀ w, p < 16 → s.populated a = true → s.line? a = none →
      (List.range 16).find? (fun w => bit (s.part p).grant.ways.toNat (16 * dieOf (la * 256) + w) &&
        (s.linesOfSet la).all (fun x => decide (x.2.way ≠ w))) = some w →
      ∃ t, exec (.poolCacheFill p a) s = .next t ∧
        t.mem.lines = s.mem.lines.put la { part := p, way := w, dirty := false, used := s.mem.clock } ∧
        (∀ b, Memory.read t.mem.lineCells b = if b / 256 = la then Memory.read s.mem.cells b else Memory.read s.mem.lineCells b) ∧
        t = { s with mem := { s.mem with lines := t.mem.lines, lineCells := t.mem.lineCells, clock := s.mem.clock + 1,
                                         lastReq := t.mem.lastReq },
                     regs := t.regs, dbg := t.dbg }) ∧
    (∀ off n, Tab.sorted (s.part p).pages = true → ∃ t, exec (.pcFlush p off n) s = .next t ∧ (∀ b, t.homeByte b = s.homeByte b) ∧
      (∀ m ∈ pagesOf off n, ∀ x l k, ((s.part p).pages.getD m Page.absent).a = some x → x.tier ≠ 2 →
        s.mem.lines.at? k = some l → k * 256 / pageBytes = x.addr / pageBytes →
        off / 256 * 256 ≤ m * pageBytes + k * 256 % pageBytes → m * pageBytes + k * 256 % pageBytes < off + n →
        t.mem.lines.at? k = some { l with dirty := false } ∧ ∀ b, b / 256 = k → Memory.read t.mem.cells b =
          if l.dirty = true then Memory.read s.mem.lineCells b else Memory.read s.mem.cells b) ∧
      t = { s with parts := t.parts, mem := { s.mem with cells := t.mem.cells, lines := t.mem.lines, lastReq := t.mem.lastReq },
                   regs := t.regs, dbg := t.dbg }) ∧
    (∀ l, s.line? a = some l →
      let d := dieOf a
      (l.dirty = true → ∃ u, (s.satF (pcEcc d 1) 1).told u kHbPcUncorrected (0x100 + d) ∧
        exec (.pcUncorrected a) s = .next ((u.dropLine la).poisonHome (placeOf a))) ∧
      (l.dirty = false → ∃ u, (s.satF (pcEcc d 0) 1).told u kHbPcCorrected (0x100 + d) ∧
        exec (.pcUncorrected a) s = .next ((u.dropLine la).fillLine l.part la)) ∧
      (s.getF ⟨pcReg d 0, 0, 1⟩ = 1 → exec (.pcScrub a .clean) s = .next s ∧
        (∃ t, (s.satF (pcEcc d 0) 1).told t kHbPcCorrected (0x100 + d) ∧ exec (.pcScrub a .corrected) s = .next t) ∧
        exec (.pcScrub a .uncorrected) s = exec (.pcUncorrected a) s)) ∧
    (∀ c m j x z (k := ctxKey p c), p < 16 → c < 65536 → j < 128 → s.ctx? k = some m → m.slots.at? j = some z →
      z.translated = true → z.done = false → z.refused = false → x.tier ≤ 1 →
      let frame := fun (t : State) (w : Nat → Prop) (z' : Slot) =>
        t.ctx? k = some { m with slots := m.slots.put j z' } ∧ (∀ i, i ≠ k → t.ctx? i = s.ctx? i) ∧
        (∀ b, ¬ w b → t.homeByte b = s.homeByte b) ∧
        t = { s with ctxs := t.ctxs, mem := { s.mem with lines := t.mem.lines, lineCells := t.mem.lineCells, clock := t.mem.clock },
                     regs := t.regs, dbg := t.dbg, free := t.free }
      let le := fun (t : State) (b n : Nat) => leNat ((List.range n).map (fun i => t.homeByte (b + i)))
      (3 ≤ z.op.kind → z.op.kind ≤ 4 → z.applied = [] →
        let off := faOff z.op.addr.toNat
        let at_ := x.addr + off % pageBytes
        off % 8 = 0 → ((s.part p).page off).a = some x → s.pagePoison p (off / pageBytes) = false → (s.line? at_).isSome = true →
        ∃ t, exec (.pcAmo (replyTag p c j)) s = .next t ∧
          le t at_ 8 = (if z.op.kind = 3 then (le s at_ 8 + z.op.operand.toNat) % 2 ^ 64 else z.op.operand.toNat) ∧
          frame t (fun b => at_ ≤ b ∧ b < at_ + 8)
            { z with value := BitVec.ofNat 64 (le s at_ 8), applied := [off / 256] }) ∧
      (∀ n, z.op.kind = 2 → z.op.parcels.contains n = true → z.applied.contains n = false →
        let off := faOff (tAddr z.op.memory)
        let at_ := x.addr + 256 * n % pageBytes
        let e := fun i => at_ + (off + 4 * i - 256 * n)
        let inn := fun i => i < tCols z.op.memory ∧ (off + 4 * i) / 256 = n
        tRows z.op.memory = 1 → tTrans z.op.memory = false → tTrans z.op.spad = false → tilesAgree z.op.spad z.op.memory = true →
        tFmt z.op.memory = 0 ∨ fmtBits (tFmt z.op.memory) = 32 → isMx (tFmt z.op.memory) = false → off % 4 = 0 →
        ((s.part p).page (256 * n)).a = some x → s.parcelPoison p n = false → (s.line? at_).isSome = true →
        s.poisonedOut m z.op = [] →
        ∃ t, exec (.pcAddw (replyTag p c j) n) s = .next t ∧
          (∀ i, inn i → let v := leNat ((List.range 4).map (fun y => s.regionByte m (tAddr z.op.spad + (4 * i + y))))
            le t (e i) 4 = if tFmt z.op.memory = 0 then addFp32 (le s (e i) 4) v % 2 ^ 32 else (le s (e i) 4 + v) % 2 ^ 32) ∧
          frame t (fun b => ∃ i, inn i ∧ e i ≤ b ∧ b < e i + 4) { z with applied := z.applied ++ [n] }))

/-- R37 to R44, R352: a host read of a memory window returns the bytes of the scratchpad, or those that the pool cache
serves; a write that the module takes changes its bytes and no other; one elsewhere, or outside READY, is dropped and
counted, and a read elsewhere is an unsupported request. -/
def Obligations.HostWindows : Prop :=
  ∀ (s : State) (a n : Nat) (bs : List Byte),
    (s.windowsOpen = false ∨ s.inWindows a n = false → exec (.hostWindowRead a n) s =
      .next ({ s with host := { s.host with urReads := s.host.urReads + 1 } }.emit (.unsupported 0 a))) ∧
    (s.mode ≠ .ready ∨ s.inWindows a bs.length = false → exec (.hostWindowWrite a bs) s =
      .next { s with host := { s.host with droppedWrites := s.host.droppedWrites + 1 } }) ∧
    (s.windowsOpen = true → s.inWindows a n = true →
      (inScratch a = true → (s.rill ((a - 0x040000000000) / 0x100000)).poison = [] → exec (.hostWindowRead a n) s =
        .next ((s.emit (.readData 0 a (Memory.readN s.mem.cells a n) false)).fresh)) ∧
      (inScratch a = false → (∀ i, i < n → s.mem.poison.at? ((a + i) / pageBytes) = none) →
        ∃ t, exec (.hostWindowRead a n) s = .next t ∧
          t.out = s.out ++ [.readData 0 a ((List.range n).map (fun i => s.homeByte (a + i))) false] ∧
          t = { s with out := t.out, mem := { s.mem with lastReq := t.mem.lastReq }, regs := t.regs, dbg := t.dbg,
                       free := t.free })) ∧
    (s.mode = .ready → s.inWindows a bs.length = true →
      (inScratch a = true → a % 0x100000 + bs.length ≤ 0x100000 → (s.rill ((a - 0x040000000000) / 0x100000)).poison = [] →
        ∃ m, exec (.hostWindowWrite a bs) s = .next { s with mem := { s.mem with cells := m } } ∧
          ∀ b, Memory.read m b = if a ≤ b ∧ b < a + bs.length then bs.getD (b - a) 0 else Memory.read s.mem.cells b) ∧
      (inScratch a = false → ∃ t, exec (.hostWindowWrite a bs) s = .next t ∧
        (∀ b, t.homeByte b = if a ≤ b ∧ b < a + bs.length then bs.getD (b - a) 0 else s.homeByte b) ∧
        t = { s with parts := t.parts, mem := { s.mem with cells := t.mem.cells, lineCells := t.mem.lineCells,
                                                           lines := t.mem.lines, lastReq := t.mem.lastReq },
                     regs := t.regs, dbg := t.dbg }))

/-! ## Objects, images and pages -/

/-- R390, R391, R405 to R410: `object.declare` places an object in a gap and answers its first page; `object.free` frees
one that is not in use with its pages; `object.hint` sets the hints that MASK selects, when no launch runs and pages need
not move; `object.move` leaves pages that are in the tier, and starts to move one that is not; `object.query` writes one
record for each page; `quota.set` takes the quotas that MASK selects. -/
def Obligations.ObjectCommands : Prop :=
  ∀ (s : State) (fn : Nat) (d : BitVec 512),
    let p := s.opPart vfPart fn d
    let u := s.begun vfPart fn d
    let c := s.newCmd vfPart fn d
    let q := s.part p
    let base := dfld d 24 0 44
    let mask := dfld d 17 0 4
    (s.accepted vfPart fn d →
      (∀ b, let n := declaredPages (dfld d 24 0 44) (dfld d 20 0 16)
        dRestZero d [(16, 0, 4), (17, 0, 4), (18, 0, 2), (18, 4, 4), (19, 0, 2), (20, 0, 16), (24, 0, 44)] = true →
        dfld d 17 0 4 < 6 ∨ dfld d 17 0 4 = 8 ∨ dfld d 17 0 4 = 9 → dfld d 19 0 2 ≠ 3 → dfld d 20 0 16 ≤ 256 →
        dfld d 24 0 44 ≠ 0 → pinOk (dfld d 17 0 4) (dfld d 18 0 2) = true → q.objects.length < 65536 →
        s.choose (q.bases n) = some b →
        let q' := { q with objects := q.objects.put b { Obj.plain n (dfld d 17 0 4) with
          pin := dfld d 18 0 2, access := dfld d 19 0 2, window := dfld d 18 4 4, layers := layerTable n (dfld d 20 0 16) } }
        q'.fits = true →
        exec (.objectDeclare fn d) s = .next ((u.fresh.setPart p q').finish c 0 (BitVec.ofNat 64 (b / pageBytes)))) ∧
      (∀ o, s.object? p base = some o →
        (dRestZero d [(16, 0, 4), (24, 0, 44)] = true → s.objBusy p base none = false → s.objHeld p base = false →
          ∃ v : State, exec (.objectFree fn d) s = .next (v.finish c 0 0) ∧
            (∀ j, (v.part p).objects.at? j = if j = base then none else q.objects.at? j) ∧
            (∀ n, (v.part p).pages.at? n =
              if base / pageBytes ≤ n ∧ n < base / pageBytes + o.pages then none else q.pages.at? n) ∧
            (∀ r, r ≠ p → v.part r = s.part r) ∧ v = { u with parts := v.parts, mem := v.mem, regs := v.regs }) ∧
        (dRestZero d [(16, 0, 4), (17, 0, 4), (18, 0, 2), (18, 4, 4), (19, 0, 2), (20, 0, 16), (24, 0, 44)] = true →
          dfld d 19 0 2 ≠ 3 → dfld d 20 0 16 ≤ 256 → (bit mask 0 = true → pinOk o.role (dfld d 18 0 2) = true) →
          q.launches = [] → dOpcode d = 0x0203 →
          let o1 := { o with pin := if bit mask 0 then dfld d 18 0 2 else o.pin,
                             access := if bit mask 2 then dfld d 19 0 2 else o.access }
          let o2 := { o1 with window := if bit mask 1 then dfld d 18 4 4 else o.window,
                              layers := if bit mask 3 then layerTable o.pages (dfld d 20 0 16) else o.layers }
          s.fitsWith p base o1 = true →
          (bit mask 0 = true → dfld d 18 0 2 ≠ 0 → ∀ i, i < o.pages →
            let g := q.pages.getD (base / pageBytes + i) Page.absent
            g.state = .absent ∨ (g.state = .resident ∧ g.b = none ∧ ∃ x, g.a = some x ∧ x.tier + 1 = dfld d 18 0 2)) →
          exec (.objectHint fn d) s = .next ((u.setObj p base o2).finish c 0 0)) ∧
        (dRestZero d [(16, 0, 4), (17, 0, 8), (24, 0, 44), (32, 0, 32), (40, 0, 32)] = true → dOpcode d = 0x0204 →
          (roleTiers o.role o.access).contains (dfld d 17 0 8) = true → dfld d 40 0 32 ≠ 0 →
          dfld d 32 0 32 + dfld d 40 0 32 ≤ o.pages →
          let first := base / pageBytes + dfld d 32 0 32
          let g := fun (i : Nat) => q.pages.getD (first + i) Page.absent
          (o.pin ≠ 0 ∨ (∀ i, i < dfld d 40 0 32 → (g i).state = .absent ∨
              ((g i).state = .resident ∧ ∃ x, (g i).a = some x ∧ x.tier = dfld d 17 0 8)) →
            exec (.objectMove fn d) s = .next (u.finish c 0 0)) ∧
          (∀ x v y, o.pin = 0 → (g 0).state = .resident → (g 0).a = some x → (g 0).b = none → x.tier ≠ dfld d 17 0 8 →
            q.use (dfld d 17 0 8) < q.quota (dfld d 17 0 8) → u.allocIn p (dfld d 17 0 8) = some (v, y) →
            exec (.objectMove fn d) s = .next (v.setPage p (first * pageBytes)
              { g 0 with state := .moving, dest := some y, level := 10 + s.host.order, arrived := 0 }))) ∧
        (dRestZero d [(16, 0, 4), (24, 0, 44), (32, 0, 32), (36, 0, 32), (40, 0, 64)] = true → dfld d 36 0 32 ≠ 0 →
          dfld d 36 0 32 ≤ 4096 → dfld d 40 0 64 % 16 = 0 → dfld d 32 0 32 + dfld d 36 0 32 ≤ o.pages →
          ∃ m, exec (.objectQuery fn d) s = .next ({ u with mem := { u.mem with host := m } }.finish c 0 (BitVec.ofNat 64
              ((List.range o.pages).filter (fun i => s.pagePoison p (base / pageBytes + i))).length)) ∧
            ∀ a, Memory.read m a =
              if dfld d 40 0 64 ≤ a ∧ a < dfld d 40 0 64 + 16 * dfld d 36 0 32 then
                let i := (a - dfld d 40 0 64) / 16
                (leBytes 16 (s.pageRecord p (base / pageBytes + dfld d 32 0 32 + i) o (decide (fn ≠ 0)))).getD (a % 16) 0
              else Memory.read s.mem.host a))) ∧
    (s.accepted pfPart fn d →
      let p := dfld d 16 0 4
      let q := s.part p
      let take := fun (i b old : Nat) => if bit (dfld d 17 0 8) i then dfld d b 0 32 else old
      let q' := { q with quotaH := take 0 24 q.quotaH, quotaD := take 1 28 q.quotaD, quotaF := take 2 32 q.quotaF }
      let others := s.parts.keep (fun n _ => decide (n ≠ p))
      dRestZero d [(16, 0, 4), (17, 0, 3), (24, 0, 32), (28, 0, 32), (32, 0, 32)] = true →
      q'.quotaH ≤ groupPages q.grant.groups → q'.quotaD + (others.vals.map (fun x => x.quotaD)).sum ≤ s.ddrPages →
      q'.quotaF + (others.vals.map (fun x => x.quotaF)).sum ≤ 6103515 → q'.fits = true →
      (∀ t ∈ quotaTiers (dfld d 17 0 3), q.use t ≤ q'.quota t) →
      exec (.quotaSet fn d) s = .next (((s.begun pfPart fn d).setPart p q').finish (s.newCmd pfPart fn d) 0 0))

/-- R398 to R403, R411: an image command takes its object, and a fetch asks for the image; each record that its seal
vouches for, in order, gives the header, the layer table or the data; after the last one the command of a load ends with
the number of parcels; a fetch without a parcel for 2 ms, and a broadcast that its caller ends, fail. -/
def Obligations.ImageCommands : Prop :=
  (∀ (s : State) (fn : Nat) (d : BitVec 512) (o : Obj),
    let p := s.opPart vfPart fn d
    let u := s.begun vfPart fn d
    let base := dfld d 24 0 44
    let taken := u.setObj p base { o with
      loading := true
      image := some { order := s.host.order, dataBytes := 0, layers := 0, id := 0, table := [], next := 0, start := s.now,
                      last := s.now, reported := [], failed := 0 } }
    s.accepted vfPart fn d → s.object? p base = some o → o.loading = false → dRestZero d (imageFields d) = true →
    (dOpcode d = 0x0301 → bit (dfld d 17 0 8) 0 = false → exec (.imageLoad fn d) s = .next taken) ∧
    (dOpcode d = 0x0302 → exec (.imageFetchPeer fn d) s = .next (taken.emit (.request 0 0
      (BitVec.ofNat 64 (dfld d 32 0 16 * 2 ^ 48 + dfld d 34 0 4 * 2 ^ 44 + dfld d 40 0 44)) (BitVec.ofNat 256 (dfld d 48 0 64)) []))) ∧
    (dOpcode d = 0x0303 → dfld d 17 0 2 = 0 → dfld d 40 0 32 < 65536 → (s.group? p (dfld d 40 0 32)).isSome = true →
      exec (.imageBroadcast fn d) s = .next taken)) ∧
  (∀ (s : State) (p base : Nat) (o : Obj) (c : Cmd) (r : ImageRun),
    (s.part p).objects.at? base = some o → s.imageCmd? o = some (c, r) →
    (∀ bs second, dOpcode c.d = 0x0301 → bit (dfld c.d 17 0 8) 0 = false → sealOk bs = true →
      let k := r.next
      let b := bs.take 256
      let r' := { r with next := k + 1, last := s.now }
      (∀ l n id, k = 0 → imageHeader b = some (l, n, id) → n ≤ o.pages * pageBytes →
        exec (.imageRecord p base 0 bs second) s = .next (s.setObj p base
          { o with image := some { r' with layers := l, dataBytes := n, id := BitVec.ofNat 64 id } })) ∧
      (0 < k → k < 5 → r.dataBytes ≠ 0 → r.dataBytes % 256 = 0 →
        let r1 := { r' with table := r.table ++ (List.range 64).map (fun i => leNat ((b.drop (4 * i)).take 4)) }
        (k = 4 → tableOk (r1.table.take r1.layers) (max 1 (r1.dataBytes / pageBytes + 1)) = true) →
        exec (.imageRecord p base k bs second) s = .next (s.setObj p base { o with image := some r1 })) ∧
      (∀ v w, 5 ≤ k → k - 5 < r.dataBytes / 256 → s.imageWrite p base r' (k - 5) b = some v →
        (v.part p).objects.at? base = some w →
        (k - 4 < r.dataBytes / 256 → exec (.imageRecord p base k bs second) s =
          .next (v.setObj p base { w with image := some r' })) ∧
        (k - 4 = r.dataBytes / 256 → c.part = p → dfld c.d 24 0 44 = base →
          exec (.imageRecord p base k bs second) s = .next (((v.setObj p base { w with
            image := some r', imageId := some r.id, layers := if r.layers = 0 then w.layers else r.table.take r.layers,
            poisoned := (List.range w.pages).any (fun i => v.pagePoison p (base / pageBytes + i)) }).finish c 0
              (BitVec.ofNat 64 (r.dataBytes / 256))).releaseImage p base))) ∧
      (∀ g y, 5 ≤ k → (k - 5) / 8192 * 0x200000 + 0x200000 ≤ r.dataBytes → (k - 5) % 8192 ≠ 8191 →
        s.held p (base / pageBytes + (k - 5) / 8192) = false →
        (s.part p).pages.at? (base / pageBytes + (k - 5) / 8192) = some g → g.state ≠ .staging → g.state ≠ .moving →
        g.dest = some y → s.imageWrite p base r (k - 5) b = some (s.placePut y (256 * ((k - 5) % 8192)) b))) ∧
    (c.part = p → dfld c.d 24 0 44 = base →
      (dOpcode c.d = 0x0302 → r.last + nsU 2000000 ≤ s.now → ∃ u, s.told u kSlPeerTimeout (partInst p) ∧
        exec (.peerTimeout p base) s = .next ((u.finish c (kSlPeerTimeout.flint (partInst p)) 0).releaseImage p base)) ∧
      (dOpcode c.d = 0x0303 → r.next ≠ 0 ∨ r.start + nsU 1000000000 ≤ s.now → ∃ u, s.told u kSlBroadcastAbort (partInst p) ∧
        exec (.broadcastAbort p base) s = .next ((u.finish c (kSlBroadcastAbort.flint (partInst p)) 0).releaseImage p base))))

/-- R375, R376, R382 to R388, R397: a translation fills its cache; an ABSENT page gets a zeroed place for a write that
waits; the copies of a page hold its bytes when it has been staged, written back or moved; a staged page without dirty
sectors leaves its upper copy to background reclaim; an operation that has waited too long for QUOTA is refused. -/
def Obligations.PageEvents : Prop :=
  ∀ (s : State) (p off : Nat),
    let n := off / pageBytes
    let g := (s.part p).page off
    let becomes := fun (t : State) (g' : Page) =>
      (∀ m, (t.part p).pages.at? m = if m = n then some g' else (s.part p).pages.at? m) ∧
      (∀ r, r ≠ p → t.part r = s.part r) ∧
      t = { s with parts := t.parts, regs := t.regs,
                   mem := { s.mem with cells := t.mem.cells, flash := t.mem.flash, xlat := t.mem.xlat } }
    (∀ die, die < 4 → ((s.part p).objOf n).isSome = true → (s.mem.xlat.getD die []).contains (p, n) = false →
      (s.mem.xlat.getD die []).length < 4096 → exec (.translationMissFill die p off) s = .next { s with
        free := s.free + 1, mem := { s.mem with xlat := s.mem.xlat.put die (s.mem.xlat.getD die [] ++ [(p, n)]) } }) ∧
    (∀ o v x, (s.part p).objOf n = some o → o.2.loading = false → o.2.freeing = false → g.state = .absent → s.wanted p n ≠ [] →
      s.placeFirst p (roleRank o.2.role o.2.access) o.2.tiers = some (v, x) →
      exec (.pageFirstAllocation p off) s = .next ((((v.zeroPlace x).forgetPage p n).setPage p (n * pageBytes)
        { (v.part p).page (n * pageBytes) with
          state := .resident, a := some x, b := none, dirty := 0, used := v.mem.clock }).retryOps p)) ∧
    (s.pagesCalm → s.memoriesWf → s.mem.lines = [] → s.mem.poison = [] → g.poison = false →
      (∀ x y, g.state = .staging → g.a = some y → g.b = some x → y.tier < 2 → x.tier ≤ 2 →
        ∃ t, exec (.pageStagingDone p off) s = .next t ∧ s.filled t y (s.placeByte x) ∧
          becomes t { g with state := .resident, arrived := BitVec.allOnes 32 }) ∧
      (∀ x y, g.state = .writingBack → g.a = some y → g.b = some x → y.tier < 2 → x.tier ≤ 2 →
        (y.base + pageBytes ≤ x.base ∨ x.base + pageBytes ≤ y.base ∨ x.tier = 2) →
        ∃ t, exec (.pageWriteBackDone p off) s = .next t ∧
          s.filled t x (fun i => if bit g.dirty.toNat (i / sectorBytes) then s.placeByte y i else s.placeByte x i) ∧
          becomes t { g with state := .resident, dirty := 0 }) ∧
      (∀ x y, g.state = .moving → g.a = some x → g.dest = some y → x.tier ≤ 2 → y.tier ≤ 2 →
        (s.held p n = false → ∃ t, exec (.pageMove p off) s = .next t ∧ s.filled t y (s.placeByte x) ∧
          becomes t { g with arrived := BitVec.allOnes 32 }) ∧
        (g.arrived = BitVec.allOnes 32 → g.level < 10 → ∃ t, exec (.pageMoveDone p off) s = .next t ∧
          s.filled t y (s.placeByte x) ∧
          becomes t { g with state := .resident, a := some y, b := none, dirty := 0, dest := none, level := 0 })) ∧
      (∀ x y tier, tier < 2 → (s.part p).pages = [(n, g)] → g.state = .resident → g.a = some x → g.b = some y → g.dest = none →
        g.dirty = 0 → x.tier = tier → y.tier ≠ tier → y.tier ≤ 2 → (s.part p).quota tier = 1 →
        s.reclaimable p n g false = true →
        ∃ t, exec (.backgroundReclaim p tier) s = .next t ∧
          becomes t { g with a := some y, b := none, dirty := 0, state := .resident } ∧
          t.mem.cells = s.mem.cells ∧ t.mem.flash = s.mem.flash ∧ t.regs = s.regs) ∧
      (∀ tier, 16 * (s.part p).use tier ≤ 15 * (s.part p).quota tier → exec (.backgroundReclaim p tier) s = .next s)) ∧
    (∀ i m r c z, let k := ctxKey p i
      s.ctx? k = some c → c.rillOf = some r → c.launch ≠ noLaunch → c.slots.at? m = some z →
      s.slotWait p c z = 1 → z.discard = false → s.calm r → s.noneLeaving →
      (∀ b, z.quotaSince = some b → b + nsU (max 1 (s.getF slQuotaWait) * 1000000) ≤ s.now →
        ∃ t, exec (.quotaStarved p i m) s = .next t ∧
          (∀ j, (t.ctx? k).bind (fun c => c.slots.at? j) = if j = m then
            some { z with refused := true, done := true, status := kSlQuotaStarved.flint (partInst p) } else c.slots.at? j) ∧
          (∀ l j, ((t.ctx? l).bind (fun c => c.thread? j)).map Thread.arch =
            ((s.ctx? l).bind (fun c => c.thread? j)).map Thread.arch) ∧
          t = { s with rills := t.rills, ctxs := t.ctxs, free := t.free }) ∧
      (∀ b, z.quotaSince = some b → s.now < b + nsU (max 1 (s.getF slQuotaWait) * 1000000) →
        exec (.quotaStarved p i m) s = .next s))

/-! ## Training support -/

/-- R421 to R428, R436, R444, R510: `bucket.config` defines a bucket, at once or for a running launch at its next step
boundary, or removes one; `rng.key_set` sets a key slot; a bucket whose phase has passed and whose range no write is under
way into leaves OPEN; flushed, a LOCAL bucket is REDUCED and has added its norms, and another starts its operation; one
whose operation is final is REDUCED; a permuted range opens when what lands in it has landed. -/
def Obligations.TrainingCommands : Prop :=
  (∀ (s : State) (fn : Nat) (d : BitVec 512),
    let p := s.opPart vfPart fn d
    let u := s.begun vfPart fn d
    let c := s.newCmd vfPart fn d
    let q := s.part p
    let n := dfld d 17 0 8
    s.accepted vfPart fn d →
    (dRestZero d [(16, 0, 4), (17, 0, 8), (18, 0, 4), (20, 0, 16), (22, 0, 16), (24, 0, 44), (32, 0, 32), (36, 0, 32), (40, 0, 32),
        (44, 0, 16), (46, 0, 16)] = true →
      dfld d 18 0 2 = 3 ∨ (s.bucketOk p d = true ∧ ∃ o, s.object? p (dfld d 24 0 44) = some o ∧ o.role = 3) →
      (∀ b, q.buckets.at? n = some b → (s.launch? p b.launch).isSome = true →
        exec (.bucketConfig fn d) s = .next ((u.setPart p { q with buckets := q.buckets.put n { b with next := some d } }).finish c 0 0)) ∧
      ((∀ b, q.buckets.at? n = some b → s.launch? p b.launch = none) →
        exec (.bucketConfig fn d) s = .next ((u.setPart p { q with
          buckets := (if dfld d 18 0 2 = 3 then q.buckets.del n else q.buckets.put n (Bucket.ofDesc d)) }).finish c 0 0))) ∧
    (dRestZero d [(16, 0, 4), (17, 0, 4), (24, 0, 64)] = true →
      exec (.rngKeySet fn d) s = .next ((u.setPart p { q with
        keys := q.keys.put (dfld d 17 0 4) (BitVec.ofNat 64 (dfld d 24 0 64)) }).finish c 0 0)) ∧
    (∀ l, let h := dfld d 20 0 16
      let first := dfld d 22 0 16
      let count := dfld d 24 0 16
      let addr := dfld d 32 0 64
      let previous := decide (dfld d 17 0 1 = 1)
      let w := l.writeNorms
      let b := w.normTable.bank previous (Config.pick s.free % 2 ^ 64)
      let t' := if dfld d 17 1 1 = 1 then w.normTable.clear previous first count else w.normTable
      dRestZero d [(16, 0, 4), (17, 0, 2), (20, 0, 16), (22, 0, 16), (24, 0, 16), (32, 0, 64)] = true → count ≠ 0 →
      first + count ≤ 1024 → addr % 64 = 0 → s.launch? p h = some l →
      ∃ m, exec (.normsRead fn d) s = .next (({ u.fresh with mem := { u.mem with host := m } }.setLaunch p h
          { w with norm0 := t'.norm0, norm1 := t'.norm1 }).finish c 0 (BitVec.ofNat 64 (b.2 % 2 ^ 32))) ∧
        ∀ a, Memory.read m a = if addr ≤ a ∧ a < addr + 64 * count then
          ((b.1.getD (first + (a - addr) / 64) NormSlot.zero).bytes (w.incomplete && !previous) b.2).getD (a % 64) 0
          else Memory.read s.mem.host a)) ∧
  (∀ (s : State) (p n : Nat) (b : Bucket) (l : Launch), (s.part p).buckets.at? n = some b → s.launch? p b.launch = some l →
    (s.reshard? p b.launch = none → b.state = 0 → b.closePhase < l.phase → s.writesInto p b = false →
      exec (.bucketClose p n) s = .next (s.setBucket p n { b with state := 1 })) ∧
    (b.state = 1 → s.mem.lines = [] →
      (b.op = 0 → s.pagesCalm →
        let bank := if l.step % 2 = 0 then l.norm0 else l.norm1
        let bank' := bank.put b.normLayer ((bank.getD b.normLayer NormSlot.zero).add
          (reducedNorm b.int32 (words32 (s.partRead p b.range.1 b.range.2))))
        let l' := if 1024 ≤ b.normLayer then l else if l.step % 2 = 0 then { l with norm0 := bank' } else { l with norm1 := bank' }
        ∃ t, exec (.bucketFlushed p n) s = .next t ∧ t.launch? p b.launch = some l' ∧
          (∀ h, h ≠ b.launch → t.launch? p h = s.launch? p h) ∧
          (t.part p).buckets = (s.part p).buckets.put n { b with state := 3 } ∧ (∀ r, r ≠ p → t.part r = s.part r) ∧
          t = { s with parts := t.parts }) ∧
      (b.op ≠ 0 → exec (.bucketFlushed p n) s = .next ((s.setBucket p n { b with state := 2 }).startOp
        { CollOp.fresh p b.group (0x8000 + l.step % 128 * 256 + n) (if b.op = 1 then 1 else 3) (b2n b.int32) 0 with
          off := b.range.1, len := b.range.2, launch := some b.launch, bucket := some n }))) ∧
    (b.state = 2 → s.bucketFinal p n b = true → 1024 ≤ b.normLayer → s.pagesCalm →
      exec (.bucketReduced p n) s = .next (s.setBucket p n { b with state := 3 })) ∧
    (∀ r o g x, s.reshard? p b.launch = some r → r.switched = true → r.handover = false → r.applied = [] → r.segOut = [] →
      r.part = p → n < 256 → s.mayPermute p b.launch n r = true → s.rangeOf r n = some x → s.reshardOp? r = some o →
      s.group? p r.gid = some g → o.op = 5 → o.segOut = [] → o.waiting = false → o.done = false → o.allFinal g = false →
      (∀ y ∈ s.coll.ops, y.waiting = false) →
      (∀ v ∈ unitsOf (r.segIn.filter (fun y => y.inRange x)), v.1 ∈ o.landed) → s.pagesCalm →
      ∃ t r', exec (.rangePermute p b.launch n) s = .next t ∧ t.reshard? p b.launch = some r' ∧ r' = { r with applied := [n] } ∧
        (t.part p).buckets.at? n = some { b with opened := true } ∧
        (∀ j, j ≠ n → (t.part p).buckets.at? j = (s.part p).buckets.at? j) ∧
        t = { s with parts := t.parts, coll := { s.coll with reshards := t.coll.reshards, ops := t.coll.ops } }))

/-! ## Fabric -/

/-- R452, R455, R460 to R462: how a port trains, identifies, narrows by a lane and fails, its flits leaving on another
port of its bundle; a failed port's record is kept for 2 ms; a lane group of an in-package link is replaced by the spare,
then lost, and the link with the ninth. -/
def Obligations.PortEvents : Prop :=
  (∀ (s : State) (p : Nat), p < 24 → s.fabRuns = true →
    let v := s.port p
    let down := { v with state := 2, fast := false, live := 0, nb := none, miswired := false, foreign := false }
    (v.state = 1 → exec (.signalDetect p) s = .next (s.setPort p down)) ∧
    (v.state = 1 → v.since ≠ 0 → v.since + nsU 100000000 ≤ s.now → exec (.trainingRetry p) s = .next (s.setPort p down)) ∧
    (v.state ≠ 0 → v.state ≠ 6 → exec (.portRetrain p) s = .next (s.setPort p down)) ∧
    (v.state = 6 → v.since + nsU 1000000000 ≤ s.now → exec (.failedPortRetrain p) s = .next (s.setPort p
      { down with nextSeq := 0, acked := 0xFFF, accepted := 0xFFF, ackSent := 0xFFF, window := [], queue := [], credits := [],
                  owed := [] })) ∧
    (∀ lanes : BitVec 4, let live := lanes &&& (if v.fast then v.live else BitVec.ofNat 4 (s.getF (glLaneMask p)))
      v.state = 2 → live ≠ 0 → exec (.trainingComplete p lanes) s =
        .next ((s.setPort p { v with state := 3, live := live, fast := false }).emit (.identity p (s.ownRecord p)))) ∧
    (v.state = 2 → v.fast = false → exec (.trainingFailure p) s = .next (s.setPort p { v with state := 1, live := 0, since := s.now })) ∧
    (∀ r : NeighbourRecord, let f := s.fabric
      3 ≤ v.state → v.state ≤ 5 → f.chip ≠ 0xFFFF → r.chip.toNat ≠ 0xFFFF → f.ring (p / 4 / 2) ≠ 1 →
      (r.x, r.y, r.z) = f.step (p / 4) → r.port = p ^^^ 4 → r.withdrawn = false → s.mode ≠ .withdrawn → f.fabricId ≠ 0 →
      (r.fabricId = f.fabricId →
        let w := s.setPort p { v with nb := some r, state := 4, miswired := false, foreign := false }
        (v.state = 4 → exec (.identityRecord p r) s = .next w) ∧
        (v.state ≠ 4 → ∃ t, w.told t kGlLinkUp p ∧ exec (.identityRecord p r) s = .next t)) ∧
      (r.fabricId ≠ f.fabricId → v.foreign = false →
        ∃ t, (s.setPort p { v with nb := some r, state := 5, miswired := false, foreign := true }).told t kGlForeign p ∧
          exec (.identityRecord p r) s = .next t))) ∧
  (∀ (s : State) (p : Nat), p < 24 → s.pwr.recovery = none →
    let v := s.port p
    let out := s.setPort p { v with
      state := 6, live := 0, fast := false, window := [], queue := [], since := s.now, record := some (v.accepted, s.now) }
    let fails := fun (i : Instr) => ∃ u, out.told u kGlPortDown p ∧ ∀ q qs, out.activePorts (p / 4) = q :: qs →
      exec i s = .next ((((v.window.map (fun x => x.1)).filter (fun f => decide (f.kind ≠ 0))).map (fun f => if f.kind = 4 then f
        else { f with kind := 4, orig := p, credits := f.seq, nak := false })).foldl (fun t f => t.sendFlit q f)
          (u.recovering (.link p)))
    (v.queue = [] → (3 ≤ v.state ∧ v.state ≤ 5) ∨ (v.state = 2 ∧ v.fast = true) →
      fails (.portDown p) ∧ (v.state = 2 → fails (.trainingFailure p))) ∧
    (∀ lane, lane < 4 → v.fast = false → 3 ≤ v.state → v.state ≤ 5 → v.live.getLsbD lane = true → v.live.toNat = s.getF (glLaneMask p) →
      v.live &&& ~~~(BitVec.ofNat 4 (2 ^ lane)) ≠ 0 →
      ∃ u, ((s.satF (glLaneDrops p) 1).setPort p
          { v with state := 2, fast := true, live := v.live &&& ~~~(BitVec.ofNat 4 (2 ^ lane)) }).told u kGlLaneFailed p ∧
        exec (.laneFailed p lane) s = .next (u.recovering (.link p))) ∧
    (∀ a b, v.record = some (a, b) →
      (b + nsU 2000000 ≤ s.now → exec (.replayRecordExpiry p) s = .next (s.setPort p { v with record := none })) ∧
      (s.now < b + nsU 2000000 → exec (.replayRecordExpiry p) s = .next s)) ∧
    (∀ i, i < 6 → (s.ipl i).lost = false →
      ((s.ipl i).spareUsed = false → ∃ u, (s.setIpl i { s.ipl i with spareUsed := true }).told u kGlIplSpared (0x100 + i) ∧
        exec (.iplSpared i) s = .next (u.recovering (.link (0x100 + i)))) ∧
      ((s.ipl i).spareUsed = true → 8 < (s.ipl i).groups → exec (.iplSpared i) s =
        .next ((s.setIpl i { s.ipl i with groups := (s.ipl i).groups - 1 }).recovering (.link (0x100 + i)))) ∧
      ((s.ipl i).spareUsed = true → (s.ipl i).groups ≤ 8 →
        ∃ u, (s.setIpl i { s.ipl i with groups := (s.ipl i).groups - 1, lost := true }).told u kGlIplLost (0x100 + i) ∧
          exec (.iplSpared i) s = .next (u.withdraw 4 (kGlIplLost.flint (0x100 + i))))))

/-- R456 to R458, R462, R463: a flit whose LCRC passes and whose SEQ is the next is accepted with its ACK and credits, and a
header waits for its route; another is discarded with a NAK; acknowledgements that are due and resends go out; a replay
flit counts once; a packet that stops is ended. -/
def Obligations.FlitEvents : Prop :=
  ∀ (s : State) (p : Nat) (f : Flit), s.listens p = true →
    let v := s.port p
    let n := (f.ack + 4096 - v.acked) % 4096
    let gone := if n ≤ v.window.length then n else 0
    let sends := fun (i : Instr) (u : State) (nak : Bool) => ∃ g t, exec i s = .next t ∧ t.out = s.out ++ [.flit p g] ∧
      g.seq = v.nextSeq ∧ g.ack = v.accepted ∧ g.kind = 0 ∧ g.nak = nak ∧ g.lcrc = BitVec.ofNat 32 (crc32 (flitBytes g)) ∧
      (t.port p).nextSeq = (v.nextSeq + 1) % 4096 ∧ (t.port p).window = v.window ++ [(g, 0)] ∧
      (t.port p).ackSent = v.accepted ∧ (∀ q, q ≠ p → t.port q = s.port q) ∧
      t = { u with fabric := { u.fabric with ports := t.fabric.ports }, regs := t.regs, out := t.out }
    let packet := { hdr := BitVec.ofNat 256 (leNat (f.body.take 32)), hop := .unrouted, held := [], ended := f.last,
                    since := s.now : Partial }
    (lcrcOk f = true → f.seq = (v.accepted + 1) % 4096 → f.nak = false → v.queue = [] →
      let w := { v with
        accepted := f.seq, window := v.window.drop gone, acked := if 0 < gone then f.ack else v.acked,
        since := if 0 < gone then s.now else v.since,
        credits := if f.kind ≠ 4 ∧ 0 < f.credits then v.credits.put f.orig (v.credits.getD f.orig 0 + f.credits) else v.credits }
      (f.kind ≠ 1 → f.kind ≠ 2 → exec (.flitReceive p f) s = .next ((s.setPort p w).portCount p glRx 1)) ∧
      (f.kind = 1 → s.carries p = true → exec (.flitReceive p f) s = .next (((s.setPort p
        { w with owed := v.owed.put f.vc (v.owed.getD f.vc 0 + 1) }).portCount p glRx 1).setPartial (p * 16 + f.vc) packet))) ∧
    (v.window.length < 2048 → v.queue = [] →
      (lcrcOk f = false ∨ f.seq ≠ (v.accepted + 1) % 4096 →
        sends (.flitReceive p f) (s.portSat p glLcrcFail (some glIplLcrc) 1) true) ∧
      (v.ackSent ≠ v.accepted → sends (.ackTimer p) s false)) ∧
    (v.ackSent = v.accepted → exec (.ackTimer p) s = .next s) ∧
    (v.window ≠ [] → v.since + nsU 10000 ≤ s.now → (∀ x ∈ v.window, x.2 < 15) →
      let w := v.window.map (fun x =>
        let g := { x.1 with ack := v.accepted }
        ({ g with lcrc := BitVec.ofNat 32 (crc32 (flitBytes g)) }, x.2 + 1))
      ∃ t xs, exec (.replayTimeout p) s = .next t ∧ t.out = s.out ++ w.map (fun x => .flit p x.1) ++ xs ∧
        t.port p = { v with window := w, since := s.now, ackSent := v.accepted } ∧ (∀ q, q ≠ p → t.port q = s.port q) ∧
        t = { s with fabric := { s.fabric with ports := t.fabric.ports }, regs := t.regs, out := t.out,
                     host := { s.host with mailboxes := t.host.mailboxes }, grotto := t.grotto,
                     pwr := { s.pwr with wellheadLast := t.pwr.wellheadLast } }) ∧
    (f.orig < 24 → let q := f.orig ^^^ 4
      (s.recordOf q = none → ∃ t, s.told t kGlReplayLost q ∧ exec (.replayFlit p f) s = .next t) ∧
      (∀ a b, (s.port q).record = some (a, b) → s.now < b + nsU 2000000 →
        (f.credits ≠ (a + 1) % 4096 → exec (.replayFlit p f) s = .next (s.satF (glReplayDiscarded q) 1)) ∧
        (f.credits = (a + 1) % 4096 → s.fabric.partials.at? (q * 16 + f.vc) = none → exec (.replayFlit p f) s =
          .next ((s.setPort q { s.port q with record := some (f.credits, b) }).setPartial (q * 16 + f.vc) packet)))) ∧
    (∀ k x q vc die, portDie p = die → s.fabric.partials.find? (fun y => decide (y.1 / 16 = p)) = some (k, x) →
      (∀ y ∈ s.fabric.partials, y.1 / 16 = p → y = (k, x)) → x.hop = .port q vc →
      x.since + nsU (1000 * max 1 (s.getF (glTruncUs die))) ≤ s.now →
      ∃ t, (((s.sendFlit q { idleFlit with kind := 3, vc := vc, last := true }).setPartial k { x with hop := .sink }).portSat p
          glTruncatedCount none 1).told t kGlTruncated (portInst p) ∧ exec (.truncated die p) s = .next t)

/-- R466 to R472, R600: dimension-order routing with its drops; a packet goes to a port of its bundle; a remote request
that an acceptance entry covers reads, writes or changes the bytes of a line and is answered, another is refused; the
timebase follows its parent. -/
def Obligations.FabricTraffic : Prop :=
  (∀ (s : State) (die : Nat) (h : BitVec 256), die < 4 →
    let e := s.fabric.dest.getD (hDst h) 0
    let f := s.fabric
    let x := s.unrouted die h
    (hHops h < max 1 (s.getF (glHopLimit die)) → hViaActive h = false → destValid e = true →
      (hDst h = f.chip → destX e = f.x → destY e = f.y → destZ e = f.z → s.route die h 4 = .deliver) ∧
      (∀ d, hDst h ≠ f.chip → hHops h ≠ 0 ∨ destViaValid e = false →
        (List.range 3).find? (fun d => decide (destCoord e d ≠ f.coord d)) = some d →
        s.activePorts (2 * d + shorter (f.coord d) (destCoord e d) (f.ring d)) ≠ [] →
        s.route die h 4 = .forward (hSet h 6 0 8 (hHops h + 1)) (2 * d + shorter (f.coord d) (destCoord e d) (f.ring d)) false false)) ∧
    (max 1 (s.getF (glHopLimit die)) ≤ hHops h → s.route die h 4 = .hopLimit) ∧
    (s.route die h 4 = .deliver → hcrcOk h = true → exec (.packetRoute die h) s = .next (s.sinkPartial x)) ∧
    (∀ k n, (s.route die h 4 = .noRoute ∧ k = kGlNoRoute ∧ n = 0) ∨ (s.route die h 4 = .hopLimit ∧ k = kGlHopLimit ∧ n = 1) →
      (4 < hType h → exec (.packetRoute die h) s = .next ((s.satF (glDrops die n) 1).sinkPartial x)) ∧
      (hType h ≤ 4 → ∃ u, (s.satF (glDrops die n) 1).told u k (0x200 + die) ∧ exec (.packetRoute die h) s =
        .next ((u.emit (.reply (BitVec.ofNat 16 (hSrc h)) (hTag h) (k.flint (0x200 + die)) 0 [])).sinkPartial x))) ∧
    (∀ h' b k q, s.route die h 4 = .forward h' b false false → x = some (k, q) → q.held = [] → q.ended = true →
      let vc := s.vcFor h' b (some (k / 16, k % 16))
      let w := s.pickPort die b vc
      exec (.packetRoute die h) s = .next ((w.1.sendFlit w.2 (headerFlit h' vc true)).delPartial k))) ∧
  (∀ (s : State) (die : Nat) (h : BitVec 256) (bs : List Byte), die < 4 → hType h < 5 →
    let p := faPart (hAddr h)
    let off := faOff (hAddr h)
    let answer := fun (k : W32) (v : W64) (l : List Byte) => (Out.reply (BitVec.ofNat 16 (hSrc h)) (hTag h) k v l)
    let taken := (s.part p).state ≠ 0 ∧
      (s.part p).accept.vals.any (fun e => accepts e (hSrc h) (tagPart (hTag h)) (decide (hType h ≠ 0))) = true
    (hcrcOk h = false → ∃ t, (s.satF (glDrops die 2) 1).told t kGlHeaderCrc (0x200 + die) ∧ exec (.remoteRequest die h bs) s = .next t) ∧
    (hcrcOk h = true → ¬ taken → exec (.remoteRequest die h bs) s =
      .next ((s.satF (glDrops die 3) 1).emit (answer (kRlRemoteRefused.flint 0xFFF) 0 []))) ∧
    (∀ o x, let at_ := x.addr + off % pageBytes
      let le := fun (t : State) => leNat ((List.range 8).map (fun i => t.homeByte (at_ + i)))
      hcrcOk h = true → taken → (s.part p).objOf (off / pageBytes) = some o → o.2.freeing = false → o.2.loading = false →
      ((s.part p).page off).a = some x → x.tier < 2 → ((s.part p).page off).state = .resident → s.pagePoison p (off / pageBytes) = false →
      (∀ b ∈ (s.part p).buckets.vals, b.covers (off / pageBytes) = false) → (s.line? at_).isSome = true →
      let served := fun (v : W64) (l : List Byte) (bytes : List Byte) => ∃ t, exec (.remoteRequest die h bs) s = .next t ∧
        t.out = s.out ++ [answer 0 v l] ∧
        (∀ a, t.homeByte a = if at_ ≤ a ∧ a < at_ + bytes.length then bytes.getD (a - at_) 0 else s.homeByte a) ∧
        t = { s with parts := t.parts, out := t.out, regs := t.regs, dbg := t.dbg, mem := { s.mem with
          lines := t.mem.lines, lineCells := t.mem.lineCells, clock := t.mem.clock } }
      (hType h = 0 → off % 256 = 0 → hParcels h ≤ 1 →
        served 0 ((List.range 256).map (fun i => s.homeByte (at_ + i))) []) ∧
      (hType h = 1 → bs ≠ [] → off % 256 + bs.length ≤ 256 → served 0 [] bs) ∧
      (hType h = 3 → off % 8 = 0 → served (BitVec.ofNat 64 (le s)) [] (leBytes 8 ((le s + leNat (bs.take 8)) % 2 ^ 64))) ∧
      (hType h = 4 → off % 8 = 0 → served (BitVec.ofNat 64 (le s)) [] (leBytes 8 (leNat (bs.take 8)))))) ∧
  (∀ (s : State) (parent b : Nat), s.fabric.timeMaster = false → s.clk.tbRuns = true → b < 6 → s.activePorts b ≠ [] →
    let d : Int := (parent : Int) - (s.tbNs : Int)
    let off := BitVec.ofNat 32 (ofInt 32 d)
    (s.clk.timeValid = false → ∃ t, { s with
        clk := { s.clk with tb := nsU (parent % 2 ^ 64), timeValid := true, offset := off, slew := 0 } }.told t kPwTimeValid 0xFFF ∧
      exec (.tbSync parent true) s = .next t) ∧
    (s.clk.timeValid = true → 10000 < d.natAbs →
      ∃ t, { s with clk := { s.clk with timeValid := false, offset := off, slew := 0 } }.told t kPwTimeLost 0xFFF ∧
        exec (.tbSync parent true) s = .next t) ∧
    (s.clk.timeValid = true → d.natAbs ≤ 10000 → ∃ r : Int, r.natAbs ≤ 20000 ∧ 0 ≤ r * d ∧ (d = 0 → r = 0) ∧
      exec (.tbSync parent true) s =
        .next { s with clk := { s.clk with offset := off, slew := BitVec.ofNat 16 (ofInt 16 r) }, free := s.free + 1 }) ∧
    exec (.tbSync parent false) s = .next s)

/-- R478, R483: the fabric commands write the discover records, assign and unassign the module, set route and acceptance
entries, and let a spare take its chip identifier. -/
def Obligations.FabricCommands : Prop :=
  ∀ (s : State) (fn : Nat) (d : BitVec 512), s.accepted pfNone fn d →
    let u := s.begun pfNone fn d
    let c := s.newCmd pfNone fn d
    let f := s.fabric
    let a := dfld d 24 0 64
    (dRestZero d [(24, 0, 64)] = true → a % 64 = 0 →
      ∃ m, exec (.fabricDiscover fn d) s = .next ({ u with mem := { u.mem with host := m } }.finish c 0 (BitVec.ofNat 64
          ((List.range 24).filter (fun p => decide (3 ≤ (s.port p).state ∧ (s.port p).state ≤ 5))).length)) ∧
        ∀ b, Memory.read m b = if a ≤ b ∧ b < a + 64 * 24 then (s.discoverRecord ((b - a) / 64)).getD (b % 64) 0
          else Memory.read s.mem.host b) ∧
    (let chip := dfld d 16 0 16;
      dRestZero d [(16, 0, 16), (18, 0, 2), (19, 0, 8), (20, 0, 32), (24, 0, 48)] = true →
      chip = f.chip ∨ s.mode = .ready ∨ f.chip = 0xFFFF →
      (chip = 0xFFFF → exec (.fabricAssign fn d) s = .next (({ u with fabric := { f with
        chip := 0xFFFF, fabricId := 0, spare := false, timeMaster := false, timeParent := 7, x := 0, y := 0, z := 0, ringX := 1,
        ringY := 1, ringZ := 1 } }.reidentify).finish c 0 0)) ∧
      (chip ≠ 0xFFFF → assignOk d = true → exec (.fabricAssign fn d) s = .next (({ u with
        fabric := { f with
          chip := chip, fabricId := BitVec.ofNat 32 (dfld d 20 0 32), spare := decide (dfld d 18 0 1 = 1),
          timeMaster := decide (dfld d 18 1 1 = 1), timeParent := dfld d 19 0 8, x := dfld d 24 0 8, y := dfld d 25 0 8,
          z := dfld d 26 0 8, ringX := dfld d 27 0 8, ringY := dfld d 28 0 8, ringZ := dfld d 29 0 8 },
        clk := if dfld d 18 1 1 = 1 then { u.clk with timeValid := true, slew := 0 } else u.clk }.reidentify).finish c 0 0))) ∧
    (let first := dfld d 20 0 32;
      let n := dfld d 24 0 32;
      let es := (List.range n).map (fun i => Memory.le s.mem.host (dfld d 32 0 64 + 8 * i) 8);
      dRestZero d [(16, 0, (if dfld d 17 0 8 = 1 then 4 else 0)), (17, 0, 8), (20, 0, 32), (24, 0, 32), (32, 0, 64)] = true →
      n ≠ 0 → n ≤ 16384 →
      (let t := putEntries f.dest first es;
        dfld d 17 0 8 = 0 → first + n ≤ 0xFFFF → (∀ e ∈ es, bits e 36 28 = 0) → (t.vals.filter destValid).length ≤ 16384 →
        exec (.fabricRouteSet fn d) s = .next (({ u with fabric := { f with dest := t } }).finish c 0 0)) ∧
      (let p := dfld d 16 0 4;
        dfld d 17 0 8 = 1 → (s.part p).state ≠ 0 → first + n ≤ 64 → (∀ e ∈ es, bits e 50 14 = 0) →
        exec (.fabricRouteSet fn d) s = .next ((u.setPart p { s.part p with
          accept := putEntries (s.part p).accept first es }).finish c 0 0))) ∧
    (dRestZero d [(16, 0, 16)] = true → f.spare = true → dfld d 16 0 16 ≠ 0xFFFF → exec (.fabricSpareEnable fn d) s =
      .next (({ u with fabric := { f with chip := dfld d 16 0 16, spare := false } }.reidentify).finish c 0 0))

/-! ## Collective engine -/

/-- R485 to R489, R496, R504, R508, R511, R514: a group is created with this module's rank, or dropped; an operation takes the
next OPSEQ of its group, or resumes from a step; a re-shard or handover is noted or starts; an abort ends an operation. -/
def Obligations.CollectiveCommands : Prop :=
  ∀ (s : State) (fn : Nat) (d : BitVec 512),
    (s.accepted vfPart fn d →
      let p := s.opPart vfPart fn d
      let u := s.begun vfPart fn d
      let c := s.newCmd vfPart fn d
      let gid := dfld d 20 0 16
      (dRestZero d [(16, 0, 4), (17, 0, 3), (18, 0, 8), (20, 0, 16), (24, 0, 32), (32, 0, 64)] = true → s.groupBusy p gid = false →
        let n := dfld d 24 0 32
        let l := nats32 (Memory.readN s.mem.host (dfld d 32 0 64) (4 * n))
        let me := s.fabric.chip + p * 65536
        (n = 0 → (s.group? p gid).isSome = true → exec (.collGroupCreate fn d) s = .next ((u.dropGroup p gid).finish c 0 0)) ∧
        (n ≠ 0 → n ≤ 16384 → dfld d 17 2 1 = 0 → gid ≠ 0 → 2 ≤ dfld d 18 0 8 → dfld d 18 0 8 ≤ 8 → (∀ x ∈ l, x < 2 ^ 20) →
          noRepeat l = true → me ∈ l → (s.coll.groups.del (groupKey p gid)).length < 64 →
          let rank := l.findIdx (fun x => decide (x = me))
          exec (.collGroupCreate fn d) s = .next (({ u.dropGroup p gid with coll := { (u.dropGroup p gid).coll with
            groups := (s.coll.groups.del (groupKey p gid)).put (groupKey p gid) ({
              part := p, members := l.map (fun x => (x % 65536, x / 65536)), rank := rank, fanin := dfld d 18 0 8,
              ordered := decide (dfld d 17 1 1 = 1), pace := decide (dfld d 17 0 1 = 1), count := 0 } : Group) } }).finish c 0
                (BitVec.ofNat 64 rank)))) ∧
      (∀ g, let op := dfld d 17 0 3
        let counted := { u with coll := { u.coll with
          groups := s.coll.groups.put (groupKey p gid) { g with count := (g.count + 1) % 32768 } } }
        s.group? p gid = some g →
        (dRestZero d [(16, 0, 4), (17, 0, 8), (18, 0, 16), (20, 0, 16), (22, 0, 16), (24, 0, 64), (32, 0, 64), (40, 0, 32),
            (48, 0, 64)] = true →
          (∀ m, dfld d 17 3 1 = 0 → s.collOk p g d = true →
            (if op = 5 then s.readMap p g.members.length (dfld d 48 0 64) true else some ([], [])) = some m →
            exec (.collLaunch fn d) s = .next (counted.startOp { CollOp.fresh p gid g.count op (dfld d 17 4 2) (dfld d 17 6 2) with
              root := dfld d 18 0 16, off := dfld d 24 0 64, len := if op = 5 then 0 else dfld d 32 0 64, segOut := m.1,
              segIn := m.2, cmd := some s.host.order })) ∧
          (∀ x, dfld d 17 3 1 = 1 →
            s.coll.aborted.find? (fun o => decide (o.part = p ∧ o.gid = gid ∧ o.opseq = dfld d 22 0 16)) = some x →
            dfld d 40 0 32 ≤ x.doneSteps g →
            exec (.collLaunch fn d) s = .next (u.resumeOp x g (dfld d 40 0 32) s.host.order))) ∧
        (∀ o, dRestZero d [(16, 0, 4), (17, 0, 1), (20, 0, 16), (22, 0, 16)] = true → dfld d 17 0 1 = 0 →
          s.coll.ops.find? (fun o => decide (o.part = p ∧ o.gid = gid ∧ o.opseq = dfld d 22 0 16) && !o.pace && !o.done) = some o →
          exec (.collAbort fn d) s = .next ((u.abortOp o kCeAborted).finish c 0 0))) ∧
      (∀ g l m, let h := dfld d 20 0 16
        let gid := dfld d 22 0 16
        dRestZero d [(16, 0, 4), (20, 0, 16), (22, 0, 16), (24, 0, 64)] = true → s.group? p gid = some g →
        s.launch? p h = some l → s.reshard? p h = none → s.readMap p g.members.length (dfld d 24 0 64) false = some m →
        (m.1.map (fun g => g.units)).sum = 0 →
        let v := { u with coll := { u.coll with
          groups := s.coll.groups.put (groupKey p gid) { g with count := (g.count + 1) % 32768 }
          reshards := s.coll.reshards ++ [({
            part := p, launch := h, gid := gid, opseq := g.count, cmd := s.host.order, new := nextEpoch l.cur, switched := false,
            objects := (s.namedObjects p h l.cur (m.1 ++ m.2)).map (fun o => (o, false)), applied := [], segOut := m.1,
            segIn := m.2, staging := none, handover := false } : Reshard)] } }
        exec (.collReshard fn d) s = .next ((v.setPart p { s.part p with
          buckets := (s.part p).buckets.mapV (fun _ b => if b.launch = h then { b with opened := false } else b) }).trySwitch
            p h false))) ∧
    (s.accepted pfNone fn d →
      ∀ p g, let role := dfld d 17 0 1
        let gid := dfld d 22 0 16
        let n := dfld d 24 0 32
        let offs := (List.range n).map (fun i => Memory.le s.mem.host (dfld d 32 0 64 + 8 * i) 8)
        let objs := offs.filterMap (fun o => (s.object? p o).map (fun x => (o, x)))
        let segs := fun (peer : Nat) (staged : Bool) => objs.map (fun (o : Nat × Obj) =>
          ({ localOff := o.1, peerRank := peer, peerOff := o.1, units := o.2.pages * 512, staged := staged } : Seg))
        let w := s.begun pfNone fn d
        let v := { w with
          coll := { w.coll with groups := s.coll.groups.put (groupKey p gid) { g with count := (g.count + 1) % 32768 } }
          host := { w.host with inProgress := s.host.inProgress ++ [({ s.newCmd pfNone fn d with part := p } : Cmd)] } }
        dRestZero d [(17, 0, 1), (20, 0, 16), (22, 0, 16), (24, 0, 32), (32, 0, 64)] = true → n ≠ 0 → n ≤ 256 →
        s.handoverPart gid role = some p → s.group? p gid = some g → objs.length = n → noRepeat offs = true →
        (role = 0 → (s.launch? p (dfld d 20 0 16)).isSome = true → s.reshard? p (dfld d 20 0 16) = none →
          exec (.handoverBegin fn d) s = .next { v with coll := { v.coll with reshards := s.coll.reshards ++ [({
            part := p, launch := dfld d 20 0 16, gid := gid, opseq := g.count, cmd := s.host.order, new := 0, switched := false,
            objects := objs.map (fun o => (o.1, false)), applied := [], segOut := segs 1 true, segIn := [], staging := none,
            handover := true } : Reshard)] } }) ∧
        (role = 1 → exec (.handoverBegin fn d) s = .next (v.startOp { CollOp.fresh p gid g.count 5 2 0 with
          segIn := segs 0 false, cmd := some s.host.order })))

/-- R495 to R503: a packet of no group is foreign; a child's CONTRIB and the parent's RESULT or DATA of the current attempt
count once and are acknowledged, and the operation goes on; an ACK takes its packet off; an ABORT, a stall and an eighth
resend end the operation with its record in the aborted table. -/
def Obligations.CollectivePackets : Prop :=
  (∀ (s : State) (k : CollPacket), s.group? (pktPart k) k.gid.toNat = none →
    let foreign := s.addF (ceForeign (pktSlice k)) 1
    exec (.contrib k) s = .next foreign ∧ exec (.result k) s = .next foreign ∧ exec (.data k) s = .next foreign ∧
    (k.opseq ≠ 0 → (∀ n, exec (.ack k n) s = .next foreign) ∧ exec (.abort k) s = .next foreign)) ∧
  (∀ (s : State) (k : CollPacket) (g : Group) (o : CollOp),
    let c := pktChunk k
    let root := o.rootOf g.members.length c
    let kids := treeChildren g.members.length g.fanin root g.rank
    let off := pktOff k
    s.group? (pktPart k) k.gid.toNat = some g → (g.members.any (fun m => decide (m.1 = k.src.toNat))) = true →
    s.pktOp k = some o → o.attempt = k.attempt.toNat → o.done = false →
    let admitted := fun (t : State) (r : Nat) => (((t.updChunk o c (fun h => { h with seen := r :: h.seen })).updOp o
      (fun x => { x with last := s.now })).collSend o 2 r off []).runOp o
    (∀ r, o.reduces = true → c < o.chunkCount → g.ranksOf kids k.src.toNat = [r] →
      (r ∈ (o.chunk c).seen → exec (.contrib k) s = .next ((s.addF (ceDup (pktSlice k)) 1).collSend o 2 r off [])) ∧
      (r ∉ (o.chunk c).seen → k.sealOk = true → (o.chunk c).committed = false → exec (.contrib k) s =
        .next (admitted ((s.addF (ceBytes (pktSlice k)) k.data.length).updChunk o c
          (fun h => { h with inputs := h.inputs ++ [(r, words32 k.data)] })) r))) ∧
    (∀ r, c < o.chunkCount → treeParent g.members.length g.fanin root g.rank = some r → g.chip r = k.src.toNat →
      let down := fun (kind : Nat) => admitted (kids.foldl (fun t q => t.sendKept o c kind q off k.data)
        ((s.putResult o c k.data).updChunk o c (fun h => { h with written := true }))) r
      (r ∈ (o.chunk c).seen → (o.op = 1 → exec (.result k) s = .next ((s.addF (ceDup (pktSlice k)) 1).collSend o 2 r off [])) ∧
        (o.op = 2 ∨ o.op = 4 → exec (.data k) s = .next ((s.addF (ceDup (pktSlice k)) 1).collSend o 2 r off []))) ∧
      (r ∉ (o.chunk c).seen → k.sealOk = true → (o.op = 1 → exec (.result k) s = .next (down 1)) ∧
        (o.op = 2 ∨ o.op = 4 → exec (.data k) s = .next (down 3)))) ∧
    (∀ v, o.op = 5 → (unitsOf o.segIn).find? (fun u => decide (u.1 = off ∧ g.chip u.2.1 = k.src.toNat)) = some v →
      off ∉ o.landed → k.sealOk = true → s.mayLand o off = true → o.launch = none →
      exec (.data k) s = .next ((((s.collWrite o.part off k.data).updOp o (fun x =>
        { x with landed := off :: x.landed, last := s.now })).collSend o 2 v.2.1 off []).runOp o)) ∧
    (∀ kind x l, o.op ≠ 5 → c < o.chunkCount → (o.chunk c).unacked = x :: l → x.1 = kind → g.chip x.2.1 = k.src.toNat →
      x.2.1 ∈ kids ++ (treeParent g.members.length g.fanin root g.rank).toList →
      exec (.ack k kind) s = .next (((s.updChunk o c (fun h => { h with unacked := l })).updOp o (fun x =>
        { x with last := s.now })).runOp o)) ∧
    (∀ r, r < g.members.length → r ≠ g.rank → g.chip r = k.src.toNat → o.op ≠ 5 → g.rank ∈ o.tells { g with rank := r } →
      exec (.abort k) s = .next (s.abortOp o kCeAborted))) ∧
  (∀ (s : State) (p : Nat) (gid opseq : BitVec 16) (o : CollOp),
    let same := fun (x : CollOp) => decide (x.part = p ∧ x.gid = gid.toNat ∧ x.opseq = opseq.toNat)
    o ∈ s.coll.ops → same o = true → o.waiting = false → o.done = false → (∀ x ∈ s.coll.ops, same x = true → x = o) →
    (o.last + nsU (1000000 * max 1 (s.getF ceStallMs)) ≤ s.now →
      exec (.stalled p gid opseq) s = .next (s.abortOp o kCeStalled)) ∧
    (∀ c, (o.chunk c).unacked ≠ [] → (∀ x ∈ (o.chunk c).unacked, x.2.2.2 < 8) → exec (.collResend p gid opseq c) s =
      .next (((o.chunk c).unacked.foldl (fun t x => t.collSend o x.1 x.2.1 (o.seqOf c) x.2.2.1)
        (s.addF (ceResend (c % 4)) (o.chunk c).unacked.length)).updChunk o c
          (fun h => { h with unacked := h.unacked.map (fun x => (x.1, x.2.1, x.2.2.1, x.2.2.2 + 1)) }))) ∧
    (∀ c, (∃ x ∈ (o.chunk c).unacked, 8 ≤ x.2.2.2) → exec (.collResend p gid opseq c) s = .next (s.abortOp o kCeNoPath)) ∧
    (∀ cause : Cause, o.pace = false → o.cmd = none → (∀ x ∈ s.coll.ops, x.waiting = false) →
      let kept := s.coll.aborted ++ [{ o with cause := cause.flint (partInst p) }]
      let t := s.abortOp o cause
      t.coll.ops = s.coll.ops.filter (fun y => !y.same o) ∧ t.coll.aborted = (if 16 < kept.length then kept.drop 1 else kept) ∧
      t.logs (cause.flint (partInst p)) ∧ t.coll.groups = s.coll.groups ∧ t.mem = s.mem ∧ t.parts = s.parts))

/-! ## Host interface -/

/-- R521 to R525, R534: the link trains, widens and narrows; a function-level reset returns a mailbox to its reset values and
drops the completions of its commands; PF0's takes the VFs with it, and so do a hot reset and PERST_N; VF Enable; and a host
read that times out ends its command. -/
def Obligations.HostLink : Prop :=
  ∀ (s : State),
    (∀ w b, s.host.perst = true → w = 1 ∨ w = 2 ∨ w = 4 ∨ w = 8 → ∀ v, 1 ≤ v → v ≤ 7 →
      let u := { s with host := { s.host with speed := v, width := w, flit := b, l0p := false } }
      (v = 7 ∧ w = 8 → exec (.pcieLinkTrained v w b) s = .next u) ∧
      (v < 7 ∨ w < 8 → ∃ t, u.told t kPxSpeedReduced 0 ∧ exec (.pcieLinkTrained v w b) s = .next t)) ∧
    (∀ w b, s.host.speed ≠ 0 → w = 1 ∨ w = 2 ∨ w = 4 ∨ w = 8 →
      exec (.l0p b w) s = .next { s with host := { s.host with l0p := b, width := w } }) ∧
    (∀ f, f < 16 → ∃ u : State, u.mailbox f = Mailbox.reset ∧ (∀ g, g ≠ f → u.mailbox g = s.mailbox g) ∧ u.reg (mbFault f) = 0 ∧
      (∀ a, a ≠ mbFault f → u.reg a = s.reg a) ∧ u = { s with regs := u.regs, host := { s.host with
        mailboxes := u.host.mailboxes
        inProgress := s.host.inProgress.map (fun (c : Cmd) => if c.fn = f ∧ c.session = none then { c with drop := true } else c)
        cmdsDropped := min (s.host.cmdsDropped + (s.mailbox f).heldCq.length) 0xFFFF } } ∧
      ∃ t, u.told t kPxFlr (0x100 + f) ∧ (1 ≤ f → f ≤ s.host.numVfs → exec (.flrVf f) s = .next t) ∧
        (f = 0 → exec .flrPf0 s = exec (.vfEnable false 0) t)) ∧
    (∀ n, ∃ t, exec (.vfEnable false n) s = .next t ∧ t.host.numVfs = 0 ∧
      (s.host.numVfs = 0 → t.mailbox 0 = s.mailbox 0 ∧ ∀ f, 1 ≤ f → f < 16 → t.mailbox f = Mailbox.reset) ∧
      (∀ c ∈ t.host.inProgress, 1 ≤ c.fn → c.fn < 16 → c.session = none → c.drop = true)) ∧
    (∀ n, n ≤ 15 → exec (.vfEnable true n) s = .next { s with host := { s.host with numVfs := n } }) ∧
    (∃ u t, exec .flrPf0 s = .next u ∧
      { u with host := { u.host with speed := 0, width := 0, flit := false, l0p := false } }.told t kPxLinkDown 0 ∧
      exec .hotReset s = .next t) ∧
    (s.host.perst = true → exec (.perstN false) s = exec .hotReset { s with host := { s.host with perst := false } }) ∧
    (s.host.perst = false → exec (.perstN true) s = .next { s with host := { s.host with perst := true } }) ∧
    exec (.perstN s.host.perst) s = .next s ∧
    (∀ fn tag, let v := s.satF (pxErr 3) 1
      let reads := fun (c : Cmd) => decide (c.fn = fn ∧ c.session = none ∧ dTag c.d = tag) && (!c.started || imageOp c)
      (s.host.inProgress.find? reads = none → exec (.hostReadTimeout fn tag) s = .next v) ∧
      (∀ c, s.host.inProgress.find? reads = some c → ∃ u, v.told u kCmHostReadFailed fn ∧
        let w := u.finish c (kCmHostReadFailed.flint fn) 0
        exec (.hostReadTimeout fn tag) s =
          .next (if imageOp c = true ∧ c.started = true then w.releaseImage c.part (dfld c.d 24 0 44) else w)))

/-- R528 to R537, R562, R581: words written to the open fill bank; a doorbell that commits a batch; a descriptor that is
taken, refused by its CRC, version or opcode, or carried out at once when no other command is in progress; HEAD; coalesced
vectors; completions held while writes fail; and SPDM messages, whose response the spec leaves open. -/
def Obligations.Mailboxes : Prop :=
  (∀ (s : State) (f : Nat), f < 16 →
    let m := s.mailbox f
    (∀ off bs, off < 0x2000 →
      (off % 8 = 0 ∧ bs.length % 8 = 0 ∧ 0 < bs.length ∧ off % 0x1000 + bs.length ≤ 0x1000 ∧ m.fillOpen = true ∧
        m.fill = decide (0x1000 ≤ off) → ∃ m', exec (.mbBankWrite f off bs false) s = .next (s.setMailbox f m') ∧
          (∀ w, w < 512 → bits ((m'.bank m.fill).getD (w / 8) 0).toNat (64 * (w % 8)) 64 =
            if off % 0x1000 ≤ 8 * w ∧ 8 * w < off % 0x1000 + bs.length then
              leNat ((bs.drop (8 * w - off % 0x1000)).take 8)
            else bits ((m.bank m.fill).getD (w / 8) 0).toNat (64 * (w % 8)) 64) ∧
          m' = { m with bankA := m'.bankA, bankB := m'.bankB, bad := m'.bad } ∧ m'.bank (!m.fill) = m.bank (!m.fill)) ∧
      (m.fillOpen = false ∨ m.fill ≠ decide (0x1000 ≤ off) →
        ∃ t, (s.setMailbox f { m with refused := min (m.refused + 1) 0xFFFF }).told t kWhBankWriteDropped f ∧
          exec (.mbBankWrite f off bs false) s = .next t)) ∧
    (∀ v : W64, let n := bits v.toNat 0 7
      (m.fillOpen = true → m.enable = true → s.mode ≠ .boot →
        (m.batchOk n = true → exec (.mbDoorbell f v) s = .next (s.setMailbox f (if m.fill then
            { m with pendB := List.range n, bFirst := m.pendA.isEmpty, fill := !m.pendA.isEmpty, fillOpen := m.pendA.isEmpty }
          else { m with pendA := List.range n, bFirst := !m.pendB.isEmpty, fill := m.pendB.isEmpty,
                        fillOpen := m.pendB.isEmpty }))) ∧
        (m.batchOk n = false → ∃ t, s.told t kWhBatchBad f ∧ exec (.mbDoorbell f v) s = .next t)) ∧
      (m.fillOpen = false ∨ m.enable = false ∨ s.mode = .boot →
        ∃ t, (s.setMailbox f { m with refused := min (m.refused + 1) 0xFFFF }).told t kWhDoorbellRefused f ∧
          exec (.mbDoorbell f v) s = .next t)) ∧
    (∀ v : W64, let h := BitVec.ofNat 32 v.toNat
      ((m.posted - m.head).toNat < (h - m.head).toNat → exec (.mbCqHead f v) s = .next s) ∧
      ((h - m.head).toNat ≤ (m.posted - m.head).toNat → (∀ q ∈ s.parts, q.2.state = 0 ∨ s.vfOf q.1 ≠ f) →
        exec (.mbCqHead f v) s = .next (s.setMailbox f { m with head := h }))) ∧
    (0 < m.unsignalled → m.oldest + nsU (1000 * m.coalesceUs) ≤ s.now →
      exec (.coalesceTimer f) s = .next ((s.setMailbox f { m with unsignalled := 0 }).msix f 0)) ∧
    (m.unsignalled = 0 ∨ s.now < m.oldest + nsU (1000 * m.coalesceUs) → exec (.coalesceTimer f) s = .next s) ∧
    (∃ t, (s.setMailbox f { m with cqStalled := true }).told t kWhCqWriteFailed f ∧ exec (.cqWriteRetry f false) s = .next t) ∧
    (m.cqStalled = true → exec (.cqWriteRetry f true) s = .next (m.heldCq.foldl
      (fun t e => t.post f e.1 e.2.1 e.2.2.1 e.2.2.2) (s.setMailbox f { m with cqStalled := false, heldCq := [] }))) ∧
    (m.cqStalled = false → exec (.cqWriteRetry f true) s = .next s)) ∧
  (∀ (s : State) (f : Nat) (d : BitVec 512),
    let m := s.mailbox f
    let b := m.firstBank
    let slot := m.firstSlot b
    let u := (s.setMailbox f (m.leave b slot)).openBank f
    let v := { u with host := { u.host with rotor := (f + 1) % 16 } }
    s.takeable = [f] → (m.bank b).getD slot 0 = d → (∀ w, w < 8 → m.wordBad b slot w = false) → s.host.inProgress = [] →
    tagReserved d = false →
    (∀ k, headCheck d = some k → ∃ w, (v.begun (issuerOf d) f d).told w k f ∧
      exec (.descriptorTake .clean false) s = .next (w.finish (v.newCmd (issuerOf d) f d) (k.flint f) 0)) ∧
    (∀ i h w r, handlerOf (dOpcode d) = some (i, h) → headCheck d = none → v.accepted i f d →
      h (v.begun i f d) (v.newCmd i f d) = .ok w r → w.host.inProgress = [v.newCmd i f d] →
      exec (.descriptorTake .clean false) s = .next (w.finish (v.newCmd i f d) 0 r))) ∧
  (∀ (s : State) (fn : Nat) (d : BitVec 512), s.accepted pfNone fn d →
    let rsp := Config.spdmResponse s.free (Memory.readN s.mem.host (dfld d 24 0 64) (dfld d 32 0 32))
    dRestZero d [(24, 0, 64), (32, 0, 32), (40, 0, 64), (48, 0, 32)] = true →
    ∃ t, exec (.spdmPlain fn d) s = .next t ∧ exec (.spdmSecured fn d) s = .next t ∧
      (rsp.length ≤ dfld d 48 0 32 → t = (((s.begun pfNone fn d).fresh).hostWrite (dfld d 40 0 64) rsp).finish
        (s.newCmd pfNone fn d) 0 (BitVec.ofNat 64 rsp.length)) ∧
      (dfld d 48 0 32 < rsp.length → ∃ u, (s.begun pfNone fn d).told u kCmBadOperand fn ∧
        t = u.finish (s.newCmd pfNone fn d) (kCmBadOperand.flint fn) 0))

/-- R533, R534: a completion takes the command out of those in progress and puts its 16 bytes, STATUS, TAG and RESULT, at the
next entry of the function's ring, moves POSTED by one, and writes it behind the ring where the host asked for it; no other
byte of host memory changes. -/
def Obligations.CompletionRing : Prop :=
  ∀ (s : State) (c : Cmd) (status : W32) (result : W64),
    let m := s.mailbox c.fn
    let a := m.cqBase.toNat + 16 * (m.posted.toNat % 2 ^ m.sizeLog2)
    let b := m.postedAddr.toNat
    c.drop = false → c.session = none → m.cqStalled = false → m.postedAddr = 0 ∨ b + 8 ≤ a ∨ a + 16 ≤ b →
    let t := s.finish c status result
    t.host.inProgress = s.host.inProgress.filter (fun e => decide (e.order ≠ c.order)) ∧
    Memory.readN t.mem.host a 16 = leBytes 4 status.toNat ++ leBytes 4 (dTag c.d).toNat ++ leBytes 8 result.toNat ∧
    (t.mailbox c.fn).posted = m.posted + 1 ∧ (t.mailbox c.fn).head = m.head ∧ (∀ f, f ≠ c.fn → t.mailbox f = s.mailbox f) ∧
    (m.postedAddr ≠ 0 → Memory.readN t.mem.host b 8 = leBytes 8 (m.posted + 1).toNat) ∧
    (∀ x, (x < a ∨ a + 16 ≤ x) → (m.postedAddr = 0 ∨ x < b ∨ b + 8 ≤ x) → Memory.read t.mem.host x = Memory.read s.mem.host x) ∧
    t = { s with mem := { s.mem with host := t.mem.host }, out := t.out,
                 host := { s.host with mailboxes := t.host.mailboxes, inProgress := t.host.inProgress,
                                       completed := s.host.completed + 1 } }

/-! ## Power-on and boot -/

/-- R617, R662, R667: the input rising through 40 V and MOD_RST_N low for 10 µs return everything that flash does not hold to
its reset value; the switch off stops the module in the same way, and a tripped switch tries three times.  R569, R572, R595 to
R597, R613, R614: the stages of power-up, where each halts, and what a clock source that fails takes down. -/
def Obligations.BootStages : Prop :=
  (∀ (s : State) (n : Nat),
    let cold := fun (t : State) (on tripped : Bool) (stage : Nat) =>
      t = { State.reset with
        pending := s.pending, regs := t.regs, out := s.out, free := s.free,
        mem := { Mem.reset with flash := s.mem.flash, host := s.mem.host, poison := t.mem.poison, retired := t.mem.retired },
        grotto := { Grotto.reset with
          nor := s.grotto.nor, recordA := s.grotto.recordA, recordB := s.grotto.recordB, rpmc := s.grotto.rpmc,
          stagedG := s.grotto.stagedG, stagedW := s.grotto.stagedW, factory := s.grotto.factory, norLog := s.grotto.norLog,
          nextSeq := s.grotto.nextSeq, powerStage := stage },
        pwr := { Power.reset with days := s.pwr.days }, host := { HostIf.reset with perst := s.host.perst },
        input := { on := on, tripped := tripped, retries := 0 } } ∧
      t.mem.poison = s.mem.poison.filter (fun x => x.2) ∧
      (∀ k ∈ t.mem.retired, k ∈ s.mem.retired ∧ ∃ x ∈ t.mem.poison, x.1 = k) ∧
      t.reg fsStatus = s.reg fsStatus ∧ (∀ k, k < 4 → t.reg (fsReg k 0x10) = s.reg (fsReg k 0x10)) ∧
      (∀ k, k < 8 → t.getF (hbRetired k) = s.getF (hbRetired k) ∧ t.getF (hbRepairs k) = s.getF (hbRepairs k)) ∧
      (∀ a, a ≠ fsStatus → (∀ k, k < 4 → a ≠ fsReg k 0x10) → (∀ k, k < 8 → a ≠ hbReg k 8) → t.reg a = regReset a)
    (s.input.tripped = false → ∃ t, exec .powerOnReset s = .next t ∧ cold t true false 1) ∧
    (s.input.tripped = true → exec .powerOnReset s = .next s) ∧
    (s.input.on = true → 10 ≤ n → ∃ t, exec (.modRstN n) s = .next t ∧ cold t true false 1) ∧
    (n < 10 ∨ s.input.on = false → exec (.modRstN n) s = .next s) ∧
    (∃ t, exec .vinUndervoltage s = .next t ∧ cold t false false 0) ∧
    (s.input.on = true → (∃ t, exec .vinOvervoltage s = .next t ∧ cold t false false 0) ∧
      ∃ t, exec .overcurrent s = .next t ∧ cold t false true 0) ∧
    (s.input.tripped = true → s.input.retries < 3 → (∃ t, exec (.overcurrentRetry false) s = .next t ∧ cold t true false 1) ∧
      exec (.overcurrentRetry true) s = .next { s with input := { s.input with retries := s.input.retries + 1 } }) ∧
    (s.input.tripped = true → 3 ≤ s.input.retries → ∀ b, exec (.overcurrentRetry b) s = .next s)) ∧
  (∀ (s : State) (n : Nat),
    let stage := fun (u : State) (k : Nat) => { u with grotto := { u.grotto with powerStage := k, stageSince := u.now } }
    let halts := fun (k : Cause) (inst : Nat) (i : Instr) =>
      ∃ t, ({ s with grotto := { s.grotto with stage := 4 } } : State).told t k inst ∧ exec i s = .next t
    let good := 63536 ≤ n ∧ n ≤ 67536 ∧ ∃ p, s.clk.xtalPrev = some p ∧ n ≤ p + 8 ∧ p ≤ n + 8
    let waits := s.clk.crystal = false ∧ (s.grotto.powerStage = 1 ∨ s.grotto.powerStage = 2)
    (waits → s.grotto.stage ≠ 4 →
      let seen := fun (k : Nat) => { s with
        clk := { s.clk with xtalGood := k, xtalPrev := some n }, grotto := { s.grotto with powerStage := 2 } }
      (¬ good → exec (.crystalWindow n) s = .next (seen 0)) ∧
      (good → s.clk.xtalGood < 15 → exec (.crystalWindow n) s = .next (seen (s.clk.xtalGood + 1))) ∧
      (good → 15 ≤ s.clk.xtalGood → exec (.crystalWindow n) s =
        .next (stage { s with clk := { s.clk with xtalGood := s.clk.xtalGood + 1, xtalPrev := some n, crystal := true } } 3))) ∧
    (waits → s.grotto.stage = 0 → nsU 200000000 ≤ s.clk.boot → halts kPwXtalFail 0xFFF .xtalFail) ∧
    (s.grotto.powerStage = 3 → s.grotto.stage = 0 →
      halts kGrPufFail 0xFFF (.romBoot false) ∧
      (s.grotto.record? = none → halts kGrReplayFail 0xFFF (.romBoot true)) ∧
      (∀ r, s.grotto.record? = some r →
        (s.imageOk 0 r.activeG = true → exec (.romBoot true) s = .next (stage { s with grotto := { s.grotto with
          grottoSlot := r.activeG, grottoVer := s.imageVersion 0 r.activeG, measG := s.imageDigest 0 r.activeG, stage := 1 } } 4)) ∧
        (s.imageOk 0 r.activeG = false → r.trialG = false → halts kGrRomImageNone 0xFFF (.romBoot true)) ∧
        (s.imageOk 0 r.activeG = false → r.trialG = true → s.imageOk 0 (!r.activeG) = true →
          ∃ t, exec (.romBoot true) s = .next t ∧ t.logs (kGrFwFallback.flint 0) ∧ t.record.activeG = !r.activeG ∧
            t.record.trialG = false ∧ t.grotto.grottoSlot = (!r.activeG) ∧ t.grotto.stage = 1 ∧ t.grotto.powerStage = 4))) ∧
    (s.record.trialG = true → s.grotto.stage < 3 → 4 ≤ s.grotto.powerStage → s.imageOk 0 (!s.record.activeG) = true →
      ∃ t, exec .romWatchdog s = .next t ∧ t.logs (kGrFwFallback.flint 0) ∧ t.record.activeG = !s.record.activeG ∧
        t.record.trialG = false ∧ t.grotto.grottoSlot = (!s.record.activeG) ∧ t.grotto.stage = 1 ∧ t.grotto.powerStage = 4) ∧
    (s.grotto.powerStage = 4 → s.grotto.stage = 1 → ∃ t, exec .bootRailsUp s = .next t ∧
      (∀ a b, s.slateIn 0 = some a → s.slateIn 1 = some b →
        t.grotto.slateSel = if seqNewer (fieldOf b 8 4) (fieldOf a 8 4) then 1 else 0) ∧
      (∀ a, s.slateIn 0 = some a → s.slateIn 1 = none → t.grotto.slateSel = 0 ∧ t.logs (kGrSlateInvalid.flint 0xFFF)) ∧
      (∀ b, s.slateIn 0 = none → s.slateIn 1 = some b → t.grotto.slateSel = 1 ∧ t.logs (kGrSlateInvalid.flint 0xFFF)) ∧
      (s.slateIn 0 = none → s.slateIn 1 = none → t.grotto.slateSel = 2 ∧ t.grotto.slate = Slate.default ∧
        t.logs (kGrSlateNone.flint 0xFFF)) ∧
      (∀ k bs, k < 2 → t.grotto.slateSel = k → s.slateIn k = some bs → t.grotto.slate = (slateSettings bs).1 ∧
        t.grotto.slateSeq = fieldOf bs 8 4 ∧ ((slateSettings bs).2 = true → t.logs (kGrSlateKeyIgnored.flint 0xFFF))) ∧
      (t.grotto.slate.ownerKey ≠ none → t.record.owner = t.grotto.slate.ownerKey) ∧
      (∀ d, d < 4 → t.terrace d = { s.terrace d with ceiling := (t.terrace d).ceiling } ∧
        (∀ m, m < 4 → bit t.grotto.slate.oppAllowed m = true →
          m ≤ (t.terrace d).ceiling ∧ bit t.grotto.slate.oppAllowed (t.terrace d).ceiling = true)) ∧
      t.grotto.powerStage = 5 ∧ t = { s with
        regs := t.regs, out := t.out, host := { s.host with mailboxes := t.host.mailboxes }, grotto := t.grotto,
        pwr := { s.pwr with cap := t.grotto.slate.powerCapW }, clk := { s.clk with terr := t.clk.terr } }) ∧
    (s.grotto.powerStage = 5 → s.grotto.stage = 1 →
      exec .sysrefLock s = .next (stage { s with clk := { s.clk with sysrefLock := true, arrLock := 0xF, tbRuns := true } } 6) ∧
      (s.grotto.waitTold = false → s.grotto.stageSince + nsU 1000000000 ≤ s.now →
        ∃ t, ({ s with grotto := { s.grotto with waitTold := true } } : State).told t kPwSysrefWait 0xFFF ∧
          exec .sysrefWait s = .next t) ∧
      (s.grotto.stageSince + nsU 10000000 ≤ s.now → halts kPwPllFail (if n < 4 then n else 0xFFF) (.pllFail n))) ∧
    (s.grotto.powerStage = 6 → s.grotto.stage = 1 → ∀ hbm : BitVec 8,
      (∃ t, exec (.bootTrainingDone hbm []) s = .next t ∧ t.grotto.powerStage = (if hbm = 0xFF then 7 else 10) ∧
        (∀ k, k < 8 → bit hbm.toNat k = true → t.getF (hbTrained k) = 1) ∧
        (∀ k, k < 8 → bit hbm.toNat k = false → t.logs (kHbTrainFail.flint k)) ∧
        t = { s with regs := t.regs, out := t.out, host := { s.host with mailboxes := t.host.mailboxes }, grotto := t.grotto }) ∧
      (∀ x : Spd, x.conn < 4 → x.speed < 4 → ∃ t, exec (.bootTrainingDone hbm [x]) s = .next t ∧ t.getF (ddPresent x.conn) = 1 ∧
        (x.supported = false ∨ x.gb < 64 ∨ 256 < x.gb → t.logs (kDdUnsupported.flint x.conn)) ∧
        (x.supported = true → 64 ≤ x.gb → x.gb ≤ 256 → x.trained = false → t.logs (kDdTrainFail.flint x.conn)) ∧
        (x.supported = true → 64 ≤ x.gb → x.gb ≤ 256 → x.trained = true → t.getF (ddTrained x.conn) = 1 ∧
          t.getF (ddSpeed x.conn) = x.speed ∧ t.getF (ddInline x.conn) = (if x.ecc then 0 else 1) ∧
          t.getF (ddPages x.conn) = (if x.ecc then x.gb * 1000000000 else x.gb * 1000000000 / 32 * 31) / pageBytes ∧
          (x.speed < 3 → t.logs (kDdSpeedReduced.flint x.conn))))) ∧
    (s.grotto.powerStage = 7 → s.grotto.stage = 1 →
      let b := s.record.activeW
      (s.imageOk 1 b = true → exec .wellheadStart s = .next (stage { s with grotto := { s.grotto with
        wellheadSlot := b, wellheadVer := s.imageVersion 1 b, measW := s.imageDigest 1 b, stage := 2 } } 8)) ∧
      (s.imageOk 1 b = false → s.record.trialW = false → exec .wellheadStart s = .next s)) ∧
    (s.grotto.powerStage = 8 → s.grotto.stage = 2 → ∃ t, exec .bootRelease s = .next t ∧ t.mode = .ready ∧ t.grotto.stage = 3 ∧
      t.grotto.powerStage = 9 ∧ t.record.trialG = false ∧ (s.record.trialG = true → t.logs (kGrFwCommitted.flint 0) ∧
        t.record.svnG = max s.record.svnG (s.imageSvn 0 s.record.activeG)) ∧
      (∀ f, f < 16 → (s.mailbox f).enable = true → (if (s.mailbox f).fill then (s.mailbox f).pendB else (s.mailbox f).pendA) = [] →
        (t.mailbox f).fillOpen = true) ∧
      t = { s with mode := .ready, regs := t.regs, out := t.out, grotto := t.grotto,
                   host := { s.host with mailboxes := t.host.mailboxes } }) ∧
    (s.grotto.stage = 3 → n < 12 →
      let failed := if bit s.clk.failed n then s.clk.failed else s.clk.failed + 2 ^ n
      ∃ t, exec (.clockSourceFailed n) s = .next t ∧
        (∀ p, p < 24 → if (n = 0 ∨ n = 1 ∨ n = 10) ∧ (s.port p).state ≠ 0
          then (t.port p).state = 1 ∧ (t.port p).live = 0 ∧ (t.port p).nb = none else t.port p = s.port p) ∧
        t = { s with
          clk := { s.clk with failed := failed, tbRuns := s.clk.tbRuns && decide (n ≠ 1) },
          fabric := { s.fabric with ports := t.fabric.ports },
          host := if n = 0 ∨ n = 11 then { s.host with speed := 0, width := 0, flit := false, l0p := false } else s.host }))

/-! ## Firmware, slates and the management port -/

/-- R573, R576, R577, R579: `slate.write` programs the slot that does not hold the selected slate; `fw.stage` writes a chunk
into the copy that is not active; `fw.activate` puts the staged copy on trial; a Wellhead trial succeeds or fails after 1 s;
and log entries are copied to the NOR flash. -/
def Obligations.FirmwareCommands : Prop :=
  ∀ (s : State) (fn : Nat) (d : BitVec 512),
    let u := s.begun pfNone fn d
    let c := s.newCmd pfNone fn d
    (s.accepted pfNone fn d → dRestZero d [(24, 0, 64), (32, 0, 32)] = true →
      let n := dfld d 32 0 32
      let bs := Memory.readN s.mem.host (dfld d 24 0 64) n
      let a := slateBase (if s.grotto.slateSel = 0 then 1 else 0)
      128 ≤ n → n ≤ 65536 →
      (slateFormOk bs n = false → ∃ t, u.told t kGrSlateBad 0xFFF ∧
        ∀ b, exec (.slateWrite fn d b) s = .next (t.finish c (kGrSlateBad.flint 0xFFF) 0)) ∧
      (slateFormOk bs n = true → slateSigOk s.record.owner bs = true →
        (∀ k x, k < 2 → s.slateIn k = some x → seqNewer (fieldOf bs 8 4) (fieldOf x 8 4) = true) →
        ∃ v : State, exec (.slateWrite fn d true) s = .next (v.finish c 0 (BitVec.ofNat 64 (fieldOf bs 8 4))) ∧
          v.norRead a (128 + fieldOf bs 12 4) = bs.take (128 + fieldOf bs 12 4) ∧
          (∀ x, x < a ∨ a + 0x10000 ≤ x → Memory.read v.grotto.nor x = Memory.read s.grotto.nor x) ∧
          v = { u with grotto := { s.grotto with nor := v.grotto.nor } } ∧
          ∃ t, { v with grotto := { s.grotto with nor := Memory.zero s.grotto.nor a 0x10000 } }.told t kGrNorWriteFail 0xFFF ∧
            exec (.slateWrite fn d false) s = .next (t.finish c (kGrNorWriteFail.flint 0xFFF) 0))) ∧
    (s.accepted pfNone fn d → dRestZero d [(17, 0, 2), (24, 0, 64), (32, 0, 32), (36, 0, 32)] = true →
      let g := dfld d 17 0 1
      let off := dfld d 32 0 32
      let n := dfld d 36 0 32
      let bs := Memory.readN s.mem.host (dfld d 24 0 64) n
      let b := !s.record.active g
      off % 4096 = 0 → 256 ≤ n → n ≤ 1048576 → n % 256 = 0 →
      (s.record.trial g = true → ∃ t, u.told t kGrFwBusy g ∧ ∀ x, exec (.fwStage fn d x) s = .next (t.finish c (kGrFwBusy.flint g) 0)) ∧
      (s.record.trial g = false → copySize g < off + n →
        ∃ t, u.told t kGrFwBad g ∧ ∀ x, exec (.fwStage fn d x) s = .next (t.finish c (kGrFwBad.flint g) 0)) ∧
      (s.record.trial g = false → off + n ≤ copySize g →
        let w := { u with grotto := { s.grotto with
          nor := if off = 0 then Memory.zero s.grotto.nor (copyBase g b) (copySize g) else s.grotto.nor
          factory := s.grotto.factory.filter (fun k => decide (k ≠ copyNum g b))
          stagedG := if off = 0 ∧ g = 0 then none else s.grotto.stagedG
          stagedW := if off = 0 ∧ g ≠ 0 then none else s.grotto.stagedW } }
        (∃ t, w.told t kGrNorWriteFail 0xFFF ∧ exec (.fwStage fn d false) s = .next (t.finish c (kGrNorWriteFail.flint 0xFFF) 0)) ∧
        ∃ v : State, v.norRead (copyBase g b + off) n = bs ∧ v = { w with grotto := { w.grotto with nor := v.grotto.nor } } ∧
          (∀ x, x < copyBase g b + off ∨ copyBase g b + off + n ≤ x →
            Memory.read v.grotto.nor x = Memory.read w.grotto.nor x) ∧
          (dfld d 17 1 1 = 0 → exec (.fwStage fn d true) s = .next (v.finish c 0 0)) ∧
          (dfld d 17 1 1 = 1 → ∃ w, exec (.fwStage fn d true) s = .next w ∧
            (v.stageCheck g b = none → w = (v.setStaged g (some b)).finish c 0 (BitVec.ofNat 64 (v.imageVersion g b))) ∧
            ∀ k, v.stageCheck g b = some k → ∃ t, v.told t k g ∧ w = t.finish c (k.flint g) 0))) ∧
    (s.accepted pfNone fn d → dRestZero d [(17, 0, 2)] = true →
      let g := dfld d 17 0 1
      (s.grotto.staged g = none → ∃ t, u.told t kGrFwBad g ∧ exec (.fwActivate fn d) s = .next (t.finish c (kGrFwBad.flint g) 0)) ∧
      (∀ b, s.grotto.staged g = some b → ∃ v : State, exec (.fwActivate fn d) s = .next (v.finish c 0 0) ∧
        v.record.active g = b ∧ v.record.trial g = true ∧ v.record.svnG = s.record.svnG ∧ v.record.svnW = s.record.svnW ∧
        v = { u with
          grotto := { s.grotto with recordA := v.grotto.recordA, recordB := v.grotto.recordB, rpmc := s.grotto.rpmc + 1 }
          pwr := { s.pwr with
            reload := s.pwr.reload || decide (g = 1)
            resetting := (if g = 1 ∧ dfld d 17 1 1 = 1 then some (s.now, 0) else none) } })) ∧
    (s.record.trialW = true → s.grotto.stage = 3 → s.grotto.wellheadSlot = s.record.activeW →
      (∃ t, exec (.fwTrialTimer true) s = .next t ∧ t.record.trialW = false ∧ t.record.activeW = s.record.activeW ∧
        t.record.svnW = max s.record.svnW (s.imageSvn 1 s.record.activeW) ∧ t.logs (kGrFwCommitted.flint 1)) ∧
      (s.imageOk 1 (!s.record.activeW) = true → ∃ t, exec (.fwTrialTimer false) s = .next t ∧ t.record.trialW = false ∧
        t.record.activeW = (!s.record.activeW) ∧ t.grotto.wellheadSlot = (!s.record.activeW) ∧ t.logs (kGrFwFallback.flint 1))) ∧
    (∀ n, s.grotto.restart = none → s.grotto.norLog.length + s.grotto.log.length ≤ 131072 → exec (.logNorCopy n) s =
      .next { s with grotto := { s.grotto with norLog := s.grotto.norLog ++ s.grotto.log.filter (fun e =>
        (match s.grotto.norLog.getLast? with | some q => seqNewer e.seq q.seq | none => true) && !seqNewer e.seq n) } })

/-- R582 to R589, R593, R634: beacons, what drops a frame, handshakes, sessions, secured messages and the identify state of the
management port; and a Grotto SRAM error that cannot be corrected, which ends the sessions. -/
def Obligations.ManagementPort : Prop :=
  ∀ (s : State) (n : Nat),
    let beacon := fun (u : State) => { u with out := u.out ++ [.beacon u.beaconBody] }
    let unauth := s.satF (grT1sDrop 3) 1
    (s.portOn = true →
      ((∀ t, s.grotto.lastAnswer = some t → t + nsU 100000000 ≤ s.now) →
        exec .discover s = .next (beacon { s with grotto := { s.grotto with lastAnswer := some s.now } })) ∧
      (∀ t, s.grotto.lastAnswer = some t → s.now < t + nsU 100000000 → exec .discover s = .next s) ∧
      (s.grottoRuns = true → exec .beaconTimer s = .next (beacon s)) ∧
      exec .beaconNow s = .next (let u := beacon s;
        { u with grotto := { s.grotto with ledUntil := some (s.now + nsU 10000000000) } }) ∧
      (∀ p ∈ [(FrameDrop.badFcs, 0), (.runtOrLong, 1), (.foreign, 2), (.unauth, 3)],
        exec (.t1sFrameDropped p.1) s = .next (s.satF (grT1sDrop p.2) 1)) ∧
      exec (.t1sFrameDropped .beacon) s = .next s ∧
      (s.grottoRuns = true → n < 4 →
        (s.grotto.handshakes.at? n = none → exec (.spdmHandshake n .begin) s = .next { s with grotto := { s.grotto with
          handshakes := s.grotto.handshakes.put n { start := s.now, keyed := false } } }) ∧
        (∀ h, s.grotto.handshakes.at? n = some h →
          let gone := { s with grotto := { s.grotto with handshakes := s.grotto.handshakes.del n } }
          exec (.spdmHandshake n .begin) s = .next unauth ∧
          (∀ root, s.grotto.slate.mgmtRoot = some root → exec (.spdmHandshake n (.keyExchange root)) s =
            .next { s with grotto := { s.grotto with handshakes := s.grotto.handshakes.put n { h with keyed := true } } }) ∧
          (∀ k, k < 4 → s.grotto.sessions.at? k = none → (∀ j, j < k → s.grotto.sessions.at? j ≠ none) → h.keyed = true →
            exec (.spdmHandshake n (.finish true)) s = .next { gone with
              grotto := { gone.grotto with sessions := s.grotto.sessions.put k s.now }, out := s.out ++ [Out.handshake n true] }) ∧
          (let w := { gone with
              grotto := { gone.grotto with limits := s.grotto.limits.put (kGrSessionFail.flint 0xFFF).toNat s.now }
              out := s.out ++ [Out.handshake n false] };
            s.grotto.limits.at? (kGrSessionFail.flint 0xFFF).toNat = none → ∃ t, w.told t kGrSessionFail 0xFFF ∧
              (∀ root, s.grotto.slate.mgmtRoot ≠ some root → exec (.spdmHandshake n (.keyExchange root)) s = .next t) ∧
              ((∃ k, k < 4 ∧ s.grotto.sessions.at? k = none) → exec (.spdmHandshake n (.finish false)) s = .next t) ∧
              (h.start + nsU 2000000000 ≤ s.now → exec (.sessionFail n) s = .next t)))) ∧
      (∀ bs : List Byte, bs.length = 8 → s.grottoRuns = true → s.grotto.sessions.at? n ≠ none →
        let u := { s with grotto := { s.grotto with sessions := s.grotto.sessions.put n s.now } }
        let on := fieldOf bs 4 1
        let ok := fieldOf bs 0 4 = 0x49445431 ∧ on ≤ 1 ∧ fieldOf bs 6 2 = 0
        (ok → exec (.secured n bs) s = .next { u with
          grotto := { u.grotto with
            identify := (if on = 1 then some (if fieldOf bs 5 1 = 0 then 0 else s.now + nsU (fieldOf bs 5 1 * 1000000000))
              else none) }
          out := s.out ++ [.secured n 0 0 (BitVec.ofNat 64 on) []] }) ∧
        (¬ ok → exec (.secured n bs) s = .next { u with out := s.out ++ [.secured n (kCmBadOperand.flint 0) 0 0 []] })) ∧
      (∀ (d : BitVec 512) (l : List Byte), l.length ≤ 1024 → s.grottoRuns = true → s.grotto.sessions.at? n ≠ none →
        s.host.inProgress = [] → tagReserved d = false → headCheck d = none →
        let u := { s with
          grotto := { s.grotto with sessions := s.grotto.sessions.put n s.now }, host := { s.host with order := s.host.order + 1 } }
        let bs := leBytes 64 d.toNat ++ l
        (sessionOp (dOpcode d) = false → ∃ t, u.told t kCmNotPrivileged 0 ∧ exec (.secured n bs) s =
          .next { t with out := t.out ++ [.secured n (kCmNotPrivileged.flint 0) (dTag d) 0 []] }) ∧
        (dOpcode d = 0x0B04 → s.gate pfNone 0 d = none → dRestZero d [] = true → s.pwr.resetting = none →
          exec (.secured n bs) s = .next { u with
            pwr := { s.pwr with resetting := some (s.now, 0) }
            host := { u.host with inProgress := [{ s.newCmd pfNone 0 d with session := some (n, l) }] } })) ∧
      (∀ bs : List Byte, s.grotto.sessions.at? n = none ∨ s.grottoRuns = false → exec (.secured n bs) s = .next unauth)) ∧
    (s.portOn = false → ∀ w m bs, exec .discover s = .next s ∧ exec (.t1sFrameDropped w) s = .next s ∧
      exec (.spdmHandshake n m) s = .next s ∧ exec (.secured n bs) s = .next s) ∧
    (∀ t, s.grotto.sessions.at? n = some t → t + nsU 60000000000 ≤ s.now →
      exec (.sessionIdle n) s = .next { s with grotto := { s.grotto with sessions := s.grotto.sessions.del n } }) ∧
    (s.portOn = true → 1 ≤ s.grotto.slate.nodeId → s.grotto.slate.nodeId ≤ 254 →
      (s.grotto.plcaLost = false → ∃ t, ({ s with grotto := { s.grotto with plcaLost := true, plcaHeard := 0 } } : State).told t
        kGrPlcaLost 0xFFF ∧ exec .plcaLost s = .next t) ∧
      (s.grotto.plcaLost = true → s.grotto.plcaHeard < 9 →
        exec .plcaBeacon s = .next { s with grotto := { s.grotto with plcaHeard := s.grotto.plcaHeard + 1 } }) ∧
      (s.grotto.plcaLost = true → 9 ≤ s.grotto.plcaHeard →
        exec .plcaBeacon s = .next { s with grotto := { s.grotto with plcaLost := false, plcaHeard := 0 } })) ∧
    (∀ v : W64, bit v.toNat 1 = false → exec (.identify v) s = .next (let u := s.setF grT1sEnable (bits v.toNat 0 1);
      { u with grotto := { s.grotto with identify := if bit v.toNat 2 then some 0 else none } })) ∧
    (∀ t, s.grotto.identify = some t → exec .identifyExpiry s =
      .next (if t ≠ 0 ∧ t ≤ s.now then { s with grotto := { s.grotto with identify := none } } else s)) ∧
    (∀ t, s.grotto.ledUntil = some t → exec .idLedNExpiry s =
      .next (if t ≤ s.now then { s with grotto := { s.grotto with ledUntil := none } } else s)) ∧
    (s.grottoRuns = true → ∃ u, (s.satF (grEcc 1) 1).told u kGrSramUncorrected 0xFFF ∧ exec .sramUncorrected s =
      .next { u with grotto := { u.grotto with restart := some s.now, sessions := [], handshakes := [] } })

/-! ## Clocks and power -/

/-- R604 to R607, R609 to R612, R636: a sequencer step moves RUNNING by one OPP toward TARGET, which the cap hold and the
thermal holds lower; droop stretches a terrace's clock and HOLD_NS ends the stretch; the power cap loop and the input monitor
set G; and `opp.set`, `power.cap_set` and `droop.config`. -/
def Obligations.OperatingPoints : Prop :=
  (∀ (s : State) (d p : Nat), d < 4 →
    let t := s.terrace d
    let hot := fun (f : Sensor → Bool) => f (s.sensor d) || f (s.sensor (4 + d))
    let target := if hot (fun x => x.crit) then 0
      else if hot (fun x => x.warn) then min (t.ceiling - t.capHold) (t.ceiling - 1) else t.ceiling - t.capHold
    let moved := fun (n : Nat) => s.setTerrace d { t with running := n }
    (s.grotto.stage = 3 → t.stretch = none → s.pwr.held = false →
      (∀ c ∈ s.host.inProgress, ¬ (dOpcode c.d = 0x0902 ∧ c.started = true)) →
      exec (.oppStep d) s = .next (if t.running < target then moved (t.running + 1)
        else if target < t.running then moved (t.running - 1) else s)) ∧
    (∀ c, s.grotto.stage = 3 → t.stretch = none → s.pwr.held = false → s.host.inProgress = [c] → dOpcode c.d = 0x0902 →
      c.started = true → t.running < target → (moved (t.running + 1)).atTarget (dfld c.d 17 0 4) = true →
      exec (.oppStep d) s = .next ((moved (t.running + 1)).finish c 0 (moved (t.running + 1)).runningWord)) ∧
    (∀ x, t.stretch = some x → exec (.oppStep d) s = .next s ∧ exec (.droop d) s = .next s ∧
      exec (.stretchEnd d) s = .next (if x + nsU (s.getF (ckHoldNs d)) ≤ s.now then s.setTerrace d { t with stretch := none } else s)) ∧
    (t.stretch = none → s.grotto.limits.at? (kPwDroop.flint d).toNat = none →
      let u := (s.setTerrace d { t with stretch := some s.now }).addF (ckDroopEvents d) 1
      ∃ v, ({ u with grotto := { s.grotto with limits := s.grotto.limits.put (kPwDroop.flint d).toNat s.now } } : State).told v
        kPwDroop d ∧ exec (.droop d) s = .next v) ∧
    (s.grotto.stage = 3 → s.grotto.restart = none → s.pwr.capNext = none →
      (∀ c ∈ s.host.inProgress, ¬ ((dOpcode c.d = 0x0901 ∨ dOpcode c.d = 0x0902) ∧ c.started = true)) →
      let c := 1000 * s.pwr.cap
      let g := if c < p then min 15 (t.g + ((p - c) * 50 + c - 1) / c) else if 100 * p < 95 * c then t.g - 1 else t.g
      let holds := 8 ≤ g ∧ 9 ≤ t.highLoops
      ∃ v, exec (.powerCapLoop p) s = .next v ∧ (v.terrace d).g = (if holds then 0 else g) ∧
        (v.terrace d).highLoops = (if holds ∨ g < 8 then 0 else t.highLoops + 1) ∧
        (holds → t.lowLoops < 99 → (v.terrace d).capHold = min 3 (t.capHold + 1)) ∧
        (¬ holds → 0 < t.capHold → g = 0 → 10 * p < 9 * c →
          (99 ≤ t.lowLoops → (v.terrace d).capHold = t.capHold - 1 ∧ (v.terrace d).lowLoops = 0) ∧
          (t.lowLoops < 99 → (v.terrace d).capHold = t.capHold ∧ (v.terrace d).lowLoops = t.lowLoops + 1)) ∧
        (¬ holds → t.capHold = 0 ∨ g ≠ 0 ∨ 9 * c ≤ 10 * p → (v.terrace d).capHold = t.capHold ∧ (v.terrace d).lowLoops = 0) ∧
        (v.terrace d).running = t.running ∧ (v.terrace d).ceiling = t.ceiling ∧ (v.terrace d).stretch = t.stretch ∧
        (t.g = 0 → 0 < (v.terrace d).g → s.grotto.limits.at? (kPwPowerCapped.flint 0xFFF).toNat = none →
          v.logs (kPwPowerCapped.flint 0xFFF)) ∧
        v = { s with regs := v.regs, out := v.out, host := { s.host with mailboxes := v.host.mailboxes }, grotto := v.grotto,
                     clk := { s.clk with terr := v.clk.terr } }) ∧
    (s.grotto.stage = 3 → s.grotto.restart = none →
      (∀ w, s.pwr.capNext = some w → exec (.powerCapLoop p) s =
        exec (.powerCapLoop p) { s with pwr := { s.pwr with cap := w, capNext := none } }) ∧
      (∀ c, s.pwr.capNext = none → s.host.inProgress = [c] → dOpcode c.d = 0x0901 → c.started = true →
        exec (.powerCapLoop p) s = exec (.powerCapLoop p) (s.finish c 0 (BitVec.ofNat 64 s.pwr.cap)))) ∧
    (2100000 < p → 4 ≤ s.grotto.powerStage → ∃ v, exec (.inputMonitor p) s = .next v ∧ v.terrace d = { t with g := max t.g 8 } ∧
      (t.g = 0 → s.grotto.limits.at? (kPwPowerCapped.flint 0xFFF).toNat = none → v.logs (kPwPowerCapped.flint 0xFFF)) ∧
      v = { s with regs := v.regs, out := v.out, host := { s.host with mailboxes := v.host.mailboxes }, grotto := v.grotto,
                   clk := { s.clk with terr := v.clk.terr } }) ∧
    (p ≤ 2100000 → exec (.inputMonitor p) s = .next s)) ∧
  (∀ (s : State) (fn : Nat) (d : BitVec 512), s.accepted pfNone fn d →
    let u := s.begun pfNone fn d
    let c := s.newCmd pfNone fn d
    let refused := fun (i : Instr) (k : Cause) (inst : Nat) => ∃ t, u.told t k inst ∧ exec i s = .next (t.finish c (k.flint inst) 0)
    let mask := dfld d 17 0 4
    (dRestZero d [(24, 0, 32)] = true →
      (400 ≤ dfld d 24 0 32 → dfld d 24 0 32 ≤ 2100 →
        exec (.powerCapSet fn d) s = .next { u with pwr := { s.pwr with capNext := some (dfld d 24 0 32) } }) ∧
      (dfld d 24 0 32 < 400 ∨ 2100 < dfld d 24 0 32 → refused (.powerCapSet fn d) kCmBadOperand fn)) ∧
    (dRestZero d [(17, 0, 4), (18, 0, 2)] = true →
      (mask = 0 → refused (.oppSet fn d) kCmBadOperand fn) ∧
      (mask ≠ 0 → bit s.grotto.slate.oppAllowed (dfld d 18 0 2) = false → refused (.oppSet fn d) kPwOppNotAllowed 0xFFF) ∧
      (mask ≠ 0 → bit s.grotto.slate.oppAllowed (dfld d 18 0 2) = true → ∃ v : State,
        (∀ e, e < 4 → v.terrace e = if bit mask e then { s.terrace e with ceiling := dfld d 18 0 2 } else s.terrace e) ∧
        v = { u with clk := { s.clk with terr := v.clk.terr } } ∧
        exec (.oppSet fn d) s = .next (if v.atTarget mask then v.finish c 0 v.runningWord else v))) ∧
    (dRestZero d [(17, 0, 4), (20, 0, 32)] = true →
      let mv := dfld d 20 0 16
      let ns := dfld d 22 0 16
      (mv < 10 ∨ 150 < mv ∨ ns < 1000 → refused (.droopConfig fn d) kCmBadOperand fn) ∧
      (10 ≤ mv → mv ≤ 150 → 1000 ≤ ns → ∃ v : State,
        (∀ e, e < 4 → bit mask e = true → v.getF (ckThreshold e) = mv ∧ v.getF (ckHoldNs e) = ns) ∧
        (∀ a, (∀ e, e < 4 → bit mask e = true → a ≠ (ckThreshold e).addr) → v.reg a = s.reg a) ∧
        v = { u with regs := v.regs } ∧ exec (.droopConfig fn d) s = .next (v.finish c 0 0))))

/-- R578, R612, R623 to R626, R628, R629, R635: a sample of the sensors crosses limits, falls back to the hysteresis points and
withdraws the module; the heartbeat and its watch, whose fourth miss in a row is a hang; the escalation window; and the day
record. -/
def Obligations.SensorsAndWatch : Prop :=
  (∀ (s : State) (vs : List (Nat × W32)),
    4 ≤ s.grotto.powerStage → s.grotto.stage ≠ 4 → s.grotto.restart = none →
    (∀ c ∈ s.host.inProgress, ¬ (dOpcode c.d = 0x0902 ∧ c.started = true)) →
    ∃ t, exec (.sensorSample vs) s = .next t ∧
      (∀ i v, i < 25 → Tab.at? vs i = some v → (i < 16 ∨ 20 ≤ i ∨ s.getF (ddTrained (i - 16)) = 1) →
        t.sensor i = {
          value := v, valid := true, warn := s.beyond i v false (s.sensor i).warn, crit := s.beyond i v true (s.sensor i).crit,
          since := (if s.beyond i v true false then some ((s.sensor i).since.getD s.now) else none) } ∧
        ((s.sensor i).crit = false → s.beyond i v true false = true → t.logs (kGrSensorCrit.flint i)) ∧
        (8 ≤ i → i < 16 → t.getF (hbTemp (i - 8)) = min 255 (v.toInt / 16).toNat)) ∧
      (∀ i, i < 25 → Tab.at? vs i = none → t.grotto.sensors.at? i = none) ∧
      (let trips := fun (i : Nat) => (∃ t0, (t.sensor i).since = some t0 ∧ t0 + nsU 1000000000 ≤ s.now) ∨
          ((t.sensor i).valid = true ∧ 16 * (s.grotto.slate.tempCrit : Int) + 160 < (t.sensor i).value.toInt);
        let warm := ∃ t0, (t.sensor 21).since = some t0 ∧ t0 + nsU 10000000000 ≤ s.now;
        (s.mode = .withdrawn ∨ s.pwr.withdrawing ≠ 0 → t.pwr = s.pwr) ∧
        (s.mode ≠ .withdrawn → s.pwr.withdrawing = 0 →
          ((∃ i, i < 8 ∧ trips i) → t.pwr.withdrawing = 2 ∧ ∃ k, t.pwr.resetting = some (s.now, k)) ∧
          ((∀ i, i < 8 → ¬ trips i) → warm → t.pwr.withdrawing = 3 ∧ ∃ k, t.pwr.resetting = some (s.now, k)) ∧
          ((∀ i, i < 8 → ¬ trips i) → ¬ warm → t.pwr = s.pwr))) ∧
      t = { s with regs := t.regs, out := t.out, host := { s.host with mailboxes := t.host.mailboxes }, grotto := t.grotto,
                   pwr := t.pwr }) ∧
  (∀ (s : State) (i : Nat) (v : W32), i < 8 →
    (∀ held, s.beyond i v false held = decide (16 * (s.grotto.slate.tempWarn : Int) - (if held then 32 else 0) < v.toInt)) ∧
    (∀ held, s.beyond i v true held = decide (16 * (s.grotto.slate.tempCrit : Int) - (if held then 32 else 0) < v.toInt))) ∧
  (∀ (s : State), 2 ≤ s.grotto.stage → s.grotto.stage ≤ 3 → s.pwr.held = false → exec .heartbeat s = .next { s with
    host := { s.host with heartbeat := s.host.heartbeat + 1 }
    watch := (if s.watch.running then s.watch
      else { running := true, misses := 0, seen := s.host.heartbeat.toNat, missStart := 0 }) }) ∧
  (∀ (s : State), s.watch.running = true → s.pwr.held = false → s.grotto.restart = none →
    s.pwr.resetting = none ∨ s.pwr.cleared = true →
    let now := s.tbNs / 250000 * 250000
    (s.host.heartbeat.toNat ≠ s.watch.seen → exec .heartbeatSlotCheck s =
      .next { s with watch := { s.watch with misses := 0, seen := s.host.heartbeat.toNat } }) ∧
    (s.host.heartbeat.toNat = s.watch.seen → s.watch.misses < 3 → exec .heartbeatSlotCheck s =
      .next { s with watch := { s.watch with
        misses := s.watch.misses + 1, missStart := (if s.watch.misses = 0 then now - 250000 else s.watch.missStart) } }) ∧
    (s.host.heartbeat.toNat = s.watch.seen → 3 ≤ s.watch.misses →
      let w := s.grotto.slate.escWindowS * 1000000000
      let e := match s.pwr.esc with
        | some (t0, n) => if now < t0 + w then (t0, n + 1) else (now, 1)
        | none => (now, 1)
      ∃ t, exec .heartbeatSlotCheck s = .next t ∧ t.watch.running = false ∧ t.pwr.recovery = none ∧ t.pwr.esc = some e ∧
        t.pwr.ptLost = s.pwr.ptLost + (s.tbNs - s.watch.missStart) ∧
        t.getF (pwResets 3) = min (s.getF (pwResets 3) + 1) (2 ^ (pwResets 3).wd - 1) ∧
        (s.grotto.slate.escCount ≤ e.2 → t.pwr.withdrawing = 1 ∧ t.pwr.resetting = some (s.now, kPwEscalated.flint 0xFFF)) ∧
        (e.2 < s.grotto.slate.escCount → t.pwr.withdrawing = s.pwr.withdrawing) ∧
        (s.grotto.slate.holdOnHang = true → t.pwr.held = true ∧ t.logs (kPwHangHeld.flint 0xFFF) ∧
          (e.2 < s.grotto.slate.escCount → t.pwr.resetting = s.pwr.resetting)) ∧
        (s.grotto.slate.holdOnHang = false → t.pwr.held = false ∧ t.logs (kPwHang.flint 0xFFF) ∧
          t.pwr.kept = some (s.pwr.wellheadLast.getD (kPwHang.flint 0xFFF)) ∧
          (e.2 < s.grotto.slate.escCount → t.pwr.resetting = some (s.now, kPwHang.flint 0xFFF))) ∧
        t = { s with regs := t.regs, out := t.out, host := { s.host with mailboxes := t.host.mailboxes }, pwr := t.pwr, watch := t.watch,
                     grotto := { s.grotto with log := t.grotto.log, nextSeq := t.grotto.nextSeq, lastFatal := t.grotto.lastFatal } })) ∧
  (∀ (s : State) (t0 n : Nat), s.pwr.esc = some (t0, n) → exec .escalationWindowClose s =
    .next (if t0 + s.grotto.slate.escWindowS * 1000000000 ≤ s.tbNs then { s with pwr := { s.pwr with esc := none } } else s)) ∧
  (∀ (s : State), let d := s.pwr.today
    exec .dayRecordClose s = .next (if d.began + 86400000000000 ≤ s.tbNs then { s with pwr := { s.pwr with
      days := (s.pwr.days ++ [d]).drop (s.pwr.days.length + 1 - 31)
      today := { began := d.began + 86400000000000, total := 0, excluded := 0, lost := 0 } } } else s))

/-! ## Resets and recovery -/

/-- R15, R618, R619: a compute reset returns its blocks to reset and ends launches with COMPUTE_RESET; when service resumes,
`reset.compute` completes with TB, streams that were CLOSING are FREE (R259), the Wellhead reloads where it must, and a module
that withdraws or returns to service changes its state (R629, R630). -/
def Obligations.ComputeResets : Prop :=
  (∀ (s : State) (t0 : Nat) (code : W32),
    s.pwr.resetting = some (t0, code) → s.pwr.cleared = false → s.ctxs = [] → s.noneLeaving →
    ((∀ q ∈ s.parts, q.2.launches = []) → s.host.inProgress = [] → ∃ t, exec .computeReset s = .next t ∧
      (∀ a, resetClears a = true → t.reg a = regReset a) ∧
      (∀ a, resetClears a = false → a ≠ (pwResets 0).addr → t.reg a = s.reg a) ∧
      (∀ k, k < 4 → t.getF (pwResets k) = if k = (if code = 0 then 1 else 0) then min (s.getF (pwResets k) + 1) 0xFFFF
        else s.getF (pwResets k)) ∧
      (∀ r, r < 1024 → t.rill r = { Rill.reset with
        poison := (s.rill r).poison, hitBanks := (s.rill r).hitBanks, bankPtr := (s.rill r).bankPtr,
        lastUser := (s.rill r).lastUser, cyclesOff := (s.terrace (r / 256)).cycles }) ∧
      (∀ p, (t.part p) = { s.part p with
        state := (if (s.part p).state = 2 then 1 else (s.part p).state), newGrant := none, stage := 0, oldCascades := 0,
        schedule := none, nextSchedule := none }) ∧
      t = { s with
        regs := t.regs, rills := t.rills, streamCaches := [], frqs := [], frqOver := [], parts := t.parts, watch := Watch.reset
        coll := { s.coll with ops := s.coll.ops.map (fun (o : CollOp) => { o with cmd := none }) }
        host := { s.host with heartbeat := 0, cmdsDropped := 0, completed := 0 }
        pwr := { s.pwr with cleared := true, recovery := none, wellheadLast := none, capNext := none } }) ∧
    (∀ p h q l c, s.parts = [(p, q)] → q.launches = [(h, l)] → q.objects = [] → s.coll.ops = [] → s.coll.reshards = [] →
      s.host.inProgress = [c] → s.launchCmd? p h = some c → s.pwr.withdrawing = 0 → c.drop = false → c.session = none →
      (s.mailbox c.fn).cqStalled = false → (s.mailbox c.fn).postedAddr = 0 →
      let m := s.mailbox c.fn
      ∃ t, exec .computeReset s = .next t ∧ t.launch? p h = none ∧ t.host.inProgress = [] ∧
        t.logs (kPwComputeReset.flint 0xFFF) ∧ (t.mailbox c.fn).posted = m.posted + 1 ∧
        Memory.readN t.mem.host (m.cqBase.toNat + 16 * (m.posted.toNat % 2 ^ m.sizeLog2)) 4 =
          leBytes 4 (kPwComputeReset.flint 0xFFF).toNat ∧
        (t.part p).norms.at? h = some { step := l.step, norm0 := l.norm0, norm1 := l.norm1, incomplete := true })) ∧
  (∀ (s : State) (t0 : Nat) (code : W32) (reload : Bool),
    s.pwr.resetting = some (t0, code) → s.pwr.cleared = true →
    (Tab.sorted s.streams = true → reload = false → s.pwr.reload = false → ∃ t, exec (.serviceResume reload) s = .next t ∧
      ∀ n, eState (s.entry n) = 2 → eState (t.entry n) = 0) ∧
    ((∀ e ∈ s.streams, eState e.2 ≠ 2) → (reload || s.pwr.reload) = false ∨ s.imageOk 1 s.record.activeW = true →
      let b := s.record.activeW
      let u := { s with
        pwr := { s.pwr with resetting := none, cleared := false, reload := false, held := s.pwr.held && decide (code ≠ 0) }
        grotto := (if reload || s.pwr.reload then { s.grotto with
          wellheadSlot := b, wellheadVer := s.imageVersion 1 b, measW := s.imageDigest 1 b } else s.grotto) }
      let idle := ∀ c ∈ s.host.inProgress, dOpcode c.d ≠ 0x0B04 ∧ dOpcode c.d ≠ 0x0B06
      (s.pwr.withdrawing = 0 → idle → exec (.serviceResume reload) s = .next u) ∧
      (∀ c, s.pwr.withdrawing = 0 → s.host.inProgress = [c] → dOpcode c.d = 0x0B04 → c.started = true →
        exec (.serviceResume reload) s = .next (u.finish c 0 (BitVec.ofNat 64 s.tbNs))) ∧
      (∀ c, s.pwr.withdrawing = 0 → s.host.inProgress = [c] → dOpcode c.d = 0x0B06 → c.started = true →
        ∃ t, exec (.serviceResume reload) s = .next t ∧ t.mode = .ready ∧ t.host.inProgress = [] ∧
          t.pwr = { u.pwr with esc := none, withdrawn := 0, withdrawCause := 0 }) ∧
      (s.pwr.withdrawing = 1 ∨ s.pwr.withdrawing = 2 → idle → ∃ t, exec (.serviceResume reload) s = .next t ∧
        t.mode = .withdrawn ∧ (∀ p, p < 24 → (s.port p).state = 4 → (t.port p).state = 5) ∧
        t.logs (if s.pwr.withdrawing = 1 then kPwEscalated.flint 0xFFF else kPwThermalTrip.flint (codeInst code)) ∧
        t.pwr = { u.pwr with
          withdrawing := 0, withdrawn := s.pwr.withdrawing, withdrawCause := s.pwr.withdrawing } ∧
        t = { u with mode := .withdrawn, regs := t.regs, out := t.out, grotto := t.grotto, pwr := t.pwr,
                     fabric := { s.fabric with ports := t.fabric.ports },
                     host := { s.host with mailboxes := t.host.mailboxes } })))

/-- R617, R620, R621, R630 to R632, R635, R636: the commands that reset the module or a cascade; a cascade reset clears the
cascade's rills and re-creates the contexts that it loses; self-checks; and the end of a single-fault recovery. -/
def Obligations.ResetsAndRecovery : Prop :=
  (∀ (s : State) (fn : Nat) (d : BitVec 512), s.accepted pfNone fn d →
    let u := s.begun pfNone fn d
    let reset := fun (v : State) => { v with pwr := { v.pwr with resetting := some (s.now, 0) } }
    let warm := (s.pwr.withdrawn = 2 ∧ ∃ i, i < 8 ∧ (s.sensor i).valid = true ∧
        16 * (s.grotto.slate.tempWarn : Int) ≤ (s.sensor i).value.toInt) ∨
      (s.pwr.withdrawn = 3 ∧ (s.sensor 21).valid = true ∧ 16 * 60 ≤ (s.sensor 21).value.toInt)
    (dRestZero d [] = true →
      exec (.resetCompute fn d) s = .next (reset u) ∧
      (warm → ∃ t, u.told t kPwConditionPersists 0xFFF ∧
        exec (.serviceReturn fn d) s = .next (t.finish (s.newCmd pfNone fn d) (kPwConditionPersists.flint 0xFFF) 0)) ∧
      (¬ warm → (∀ q ∈ s.parts, q.2.state = 0) →
        exec (.serviceReturn fn d) s = .next (reset { u with parts := s.parts.mapV (fun _ q => { q with vf := 0 }) })) ∧
      (∀ p q, ¬ warm → s.parts = [(p, q)] → q.state = 1 → q.launches = [] → q.objects = [] →
        (∀ e ∈ s.streams, eState e.2 = 0 ∨ ePart e.2 ≠ p) → (∀ o ∈ s.coll.ops, o.part ≠ p) → dOpcode d = 0x0B06 →
        (∀ e ∈ s.host.inProgress, dOpcode e.d ≠ 0x0102 ∧ dOpcode e.d ≠ 0x0103) → s.noneLeaving →
        ∃ t, exec (.serviceReturn fn d) s = .next t ∧ t.part p = { Part.reset with retired := q.retired } ∧
          t.pwr.resetting = some (s.now, 0))) ∧
    (dRestZero d [(17, 0, 6)] = true → exec (.resetCascade fn d) s = .next u)) ∧
  (∀ (s : State) (n : Nat) (x : Cmd), n < 64 → s.pwr.recovery = none → s.cascadeCmd? n = some x → x.a = 0 →
    ((∀ c ∈ s.ctxs, ∀ r, r / 16 = n → c.2.loc ≠ .saving r ∧ c.2.loc ≠ .restoring r ∧ ∀ f, c.2.loc ≠ .resident r f) → ∃ t, exec (.cascadeReset n) s = .next t ∧
      (∀ a, cascadeClears n a = true → t.reg a = regReset a) ∧
      (∀ a, cascadeClears n a = false → a ≠ (pwResets 2).addr → t.reg a = s.reg a) ∧
      t.getF (pwResets 2) = min (s.getF (pwResets 2) + 1) 0xFFFF ∧
      (∀ r, t.rill r = if r / 16 = n then { Rill.reset with
          poison := (s.rill r).poison, hitBanks := (s.rill r).hitBanks, bankPtr := (s.rill r).bankPtr,
          lastUser := (s.rill r).lastUser, cyclesOff := (s.terrace (r / 256)).cycles,
          array := { MxArray.reset with phase := .selfCheck }, vector := { VxEngine.reset with selfCheck := true } }
        else s.rill r) ∧
      t = { s with regs := t.regs, rills := t.rills, streamCaches := s.streamCaches.del n, host := { s.host with
        inProgress := s.host.inProgress.map (fun (c : Cmd) =>
          if c.order = x.order then { c with a := s.now + 1, b := 0 } else c) } }) ∧
    (∀ k c r f l m, s.ctxs = [(k, c)] → c.loc = .resident r f → r / 16 = n → c.tiles = [] → c.slots = [] → c.held = [] →
      s.launch? (keyPart k) c.launch = some l → s.freeNumber (keyPart k) = some m →
      ∃ t y, exec (.cascadeReset n) s = .next t ∧ t.ctxs = [(ctxKey (keyPart k) m, y)] ∧ ctxKey (keyPart k) m ≠ k ∧
        y.loc = .saved ∧ y.launch = c.launch ∧ y.region = [] ∧ y.regionLen = c.regionLen ∧
        y.threads.length = c.threads.length ∧
        ∀ h ∈ y.threads, h.st = .ready ∧ h.pc = (s.part (keyPart k)).entryOf l ∧ ∀ i, h.reg i = 0)) ∧
  (∀ (s : State) (r : Nat), r < 1024 → s.resetCheck r = true →
    let u := s.setRill r { s.rill r with
      array := { (s.rill r).array with phase := .idle }, vector := { (s.rill r).vector with selfCheck := false } }
    (s.cascadeCmd? (r / 16) = none → exec (.cascadeSelfCheckDone r true) s = .next u ∧
      (s.getF (rlOutOfService r) = 0 → s.ctxs = [] → (∀ q ∈ s.parts, q.2.launches = []) →
        exec (.cascadeSelfCheckDone r false) s = .next (u.setF (rlOutOfService r) 1))) ∧
    (∀ c, s.cascadeCmd? (r / 16) = some c → c.a ≠ 0 →
      let v := u.updCmd c.order (fun x => { x with b := setBits c.b (r % 16) 1 1 })
      let k := (s.now - (c.a - 1)) / Config.unitsPerNs / 64
      (setBits c.b (r % 16) 1 1 ≠ 0xFFFF → exec (.cascadeSelfCheckDone r true) s = .next v) ∧
      (setBits c.b (r % 16) 1 1 = 0xFFFF → exec (.cascadeSelfCheckDone r true) s = .next
        ({ v with pwr := { s.pwr with
          ptExcluded := s.pwr.ptExcluded + k, today := { s.pwr.today with excluded := s.pwr.today.excluded + k } } }.finish c 0
          (BitVec.ofNat 64 ((List.range 16).filter (fun i => decide (s.getF (rlOutOfService (16 * (r / 16) + i)) = 0))).length))))) ∧
  (∀ (s : State) (ns affected : Nat) (x : Recovery), s.pwr.recovery = some x →
    let lost := ns * affected / 1024
    let n := min ns (2 ^ 24 - 1)
    ∃ (u t : State), u.told t kPwRecovered 0xFFF ∧ exec (.recovered ns affected) s = .next t ∧
      (∃ e ∈ t.grotto.log, e.flint = kPwRecovered.flint 0xFFF ∧ e.detail = BitVec.ofNat 96 ns) ∧
      u.getF pwLastNs = n ∧ u.getF pwUnion = (if x.isUnion then 1 else 0) ∧ u.getF pwMaxNs = max (s.getF pwMaxNs) n ∧
      u.getF pwEvents = s.getF pwEvents ∧ (∀ a, a ≠ pwLastNs.addr → a ≠ pwMaxNs.addr → u.reg a = s.reg a) ∧
      u = { s with regs := u.regs, pwr := { s.pwr with
        recovery := none, ptLost := s.pwr.ptLost + lost, today := { s.pwr.today with lost := s.pwr.today.lost + lost } } })

/-! ## Debug block and registers -/

/-- R635, R643, R646 to R655: `counters.read` writes a record or day records; `sample.config` sets a sampler; a rill takes a PC
sample of the thread next in turn, and a snapshot takes its record; `log.read` writes entries from a SEQ on; and `dump.read`
reads the frozen state while the module is HELD. -/
def Obligations.CountersAndSamples : Prop :=
  (∀ (s : State) (fn : Nat) (d : BitVec 512),
    let i : Issuer := ⟨false, some 0, false⟩
    let u := s.begun i fn d
    let c := s.newCmd i fn d
    let p := s.opPart i fn d
    let k := if dfld d 17 0 2 = 1 then 16 else p
    let a := dfld d 24 0 64
    let record := (List.range 64).flatMap (fun e => leBytes 8
      (if e = 0 then s.tbNs else if 41 ≤ e then 0 else (s.dbg.records.getD k []).getD e 0))
    s.accepted i fn d →
      (fn ≠ 0 → dfld d 17 0 2 ≠ 0 → ∃ t, u.told t kCmNotPrivileged fn ∧
        exec (.countersRead fn d) s = .next (t.finish c (kCmNotPrivileged.flint fn) 0)) ∧
      (dRestZero d [(16, 0, 4), (17, 0, 3), (20, 0, 16), (22, 0, 16), (24, 0, 64)] = true → a % 64 = 0 →
        (dfld d 17 0 2 = 0 ∨ (fn = 0 ∧ dfld d 17 0 2 = 1) → exec (.countersRead fn d) s = .next
          ((if dfld d 17 2 1 = 1 then { u.hostWrite a record with dbg := { s.dbg with
              records := s.dbg.records.del k, cleared := s.dbg.cleared.put k (s.now, s.dbg.records.getD k []) } }
            else u.hostWrite a record).finish c 0 (BitVec.ofNat 64 s.tbNs))) ∧
        (fn = 0 → dfld d 17 0 2 = 2 → 1 ≤ dfld d 22 0 16 → dfld d 20 0 16 + dfld d 22 0 16 ≤ 32 →
          let l := (List.range (dfld d 22 0 16)).filterMap (fun j =>
            if dfld d 20 0 16 + j = 31 then some s.pwr.today else s.pwr.days[dfld d 20 0 16 + j]?)
          exec (.countersRead fn d) s = .next ((u.hostWrite a (l.flatMap (fun r =>
            leBytes 8 r.began ++ leBytes 8 r.total ++ leBytes 8 r.excluded ++ leBytes 8 r.lost))).finish c 0
              (BitVec.ofNat 64 l.length))))) ∧
  (∀ (s : State) (fn : Nat) (d : BitVec 512), s.accepted vfPart fn d →
    dRestZero d [(16, 0, 4), (17, 0, 3), (20, 0, 32), (24, 0, 44), (32, 0, 64)] = true →
    let u := s.begun vfPart fn d
    let c := s.newCmd vfPart fn d
    let p := s.opPart vfPart fn d
    let mode := dfld d 17 0 2
    let key := if dfld d 17 2 1 = 1 then 16 else p
    let period := dfld d 20 0 32
    let ring := dfld d 24 0 44
    let n := dfld d 32 0 64
    let fails := fun (k : Cause) (inst : Nat) => ∃ t, u.told t k inst ∧ exec (.sampleConfig fn d) s = .next (t.finish c (k.flint inst) 0)
    (fn ≠ 0 → dfld d 17 2 1 = 1 → fails kCmNotPrivileged fn) ∧
    (fn = 0 ∨ dfld d 17 2 1 = 0 →
      (mode = 3 → fails kCmBadOperand fn) ∧
      (mode = 0 → exec (.sampleConfig fn d) s = .next (({ u with dbg := { s.dbg with
        samplers := s.dbg.samplers.del key } } : State).finish c 0 0)) ∧
      (mode = 1 ∨ mode = 2 →
        (period < (if mode = 1 then 1024 else 10) ∨ 2 ^ 24 < period ∨ n % 4096 ≠ 0 ∨ n < 8192 → fails kCmBadOperand fn) ∧
        ((if mode = 1 then 1024 else 10) ≤ period → period ≤ 2 ^ 24 → n % 4096 = 0 → 8192 ≤ n →
          ((s.part p).objAt ring = none → fails kSlBadObject (partInst p)) ∧
          (∀ o, (s.part p).objAt ring = some o → o.1 + o.2.pages * pageBytes < ring + n → fails kSlBadObject (partInst p)) ∧
          (∀ o, (s.part p).objAt ring = some o → ring + n ≤ o.1 + o.2.pages * pageBytes →
            let v := u.collWrite p ring (List.replicate 64 0)
            let y : Sampler := { mode := mode, part := p, period := period, ring := ring, ringBytes := n }
            exec (.sampleConfig fn d) s = .next (({ v with dbg := { v.dbg with
              samplers := v.dbg.samplers.put key y } } : State).finish c 0 0)))))) ∧
  (∀ (s : State) (r p : Nat) (global : Bool) (freeze stall : BitVec 3) (x : Sampler),
    let key := if global then 16 else p
    let ptr := s.dbg.rotors.getD (key * 1024 + r) 0
    let written := s.partLe x.part x.ring 8
    let put := fun (u : State) (bs : List Byte) =>
      ((u.collWrite x.part (x.ring + 64 + written % ((x.ringBytes - 64) / bs.length) * bs.length) bs).collWrite x.part x.ring
        (leBytes 8 (written + 1))).addF dgRecords 1
    s.dbg.samplers.at? key = some x → s.getF dgSampleEn = 1 → (s.part x.part).ringOk x.ring x.ringBytes = true →
    (x.mode = 1 → r < 1024 → s.pwr.held = false →
      (s.sampled r key = [] → ∀ b, exec (.pcSample r p global freeze stall b) s = .next s) ∧
      (∀ hw f k c h, s.hwThread r hw = some (f, k, c, h) → hw ∈ s.sampled r key →
        (ptr ≤ hw ∧ ∀ j ∈ s.sampled r key, j < ptr ∨ hw ≤ j) ∨ (∀ j ∈ s.sampled r key, j < ptr ∧ hw ≤ j) →
        let u := { s with dbg := { s.dbg with rotors := s.dbg.rotors.put (key * 1024 + r) ((hw + 1) % 32) } }
        exec (.pcSample r p global freeze stall false) s = .next (put u
          (leBytes 8 s.tbNs ++ leBytes 8 h.pc.toNat ++ leBytes 2 r ++ leBytes 1 (hw % 32 + 32 * (f % 4)) ++ leBytes 1 h.st.code ++
            leBytes 2 (keyNum k) ++
            leBytes 1 (freeze.toNat + 8 * (if (s.rill r).array.owner = some k then 1 else 0) + 16 * stall.toNat) ++
            leBytes 1 (s.threadCause k (c.threads.findIdx (fun t => decide (t.hw = hw))) c) ++ leBytes 4 (s.arrCycles r) ++
            leBytes 4 0)) ∧
        exec (.pcSample r p global freeze stall true) s = .next ((u.collWrite x.part (x.ring + 8)
          (leBytes 8 (s.partLe x.part (x.ring + 8) 8 + 1))).satF dgDropped 1))) ∧
    (x.mode = 2 →
      let value := fun (e : Nat) => (s.dbg.records.getD key []).getD e 0
      let put' := fun (f : Nat → Nat) => put s ((List.range 64).flatMap (fun e => leBytes 8
        (if e = 0 then s.tbNs else if 41 ≤ e then 0 else f e)))
      (s.dbg.cleared.at? key = none → exec (.counterSnapshot p global) s = .next ((put' value).satF dgCoincident 0)) ∧
      (∀ t0 old, s.dbg.cleared.at? key = some (t0, old) →
        exec (.counterSnapshot p global) s = .next (if t0 = s.now then (put' (fun e => 2 ^ 63 + old.getD e 0)).satF dgCoincident 40
          else (put' value).satF dgCoincident 0)))) ∧
  (∀ (s : State) (fn : Nat) (d : BitVec 512), s.accepted vfNone fn d →
    dRestZero d [(20, 0, 32), (24, 0, 16), (26, 0, 4), (32, 0, 64)] = true →
    let first := dfld d 20 0 32
    let n := dfld d 24 0 16
    let l := s.allEntries.filter (fun e => decide (e.seq = first) || seqNewer e.seq first)
    let xs := (l.filter (fun e => decide (dfld d 26 0 4 ≤ codeSev e.flint) &&
      (decide (fn = 0) || decide (e.partition = s.opPart vfNone fn d)))).take n
    let last := if xs.length = n then xs.getLast? else l.getLast?
    let next := match last with
      | some e => (e.seq + 1) % 2 ^ 32
      | none => first
    1 ≤ n → n ≤ 4096 → dfld d 32 0 64 % 32 = 0 →
    exec (.logRead fn d) s = .next (((s.begun vfNone fn d).hostWrite (dfld d 32 0 64) (xs.flatMap (fun e =>
      leBytes 8 e.tb ++ leBytes 4 e.seq ++ leBytes 4 e.flint.toNat ++ leBytes 1 e.partition ++ leBytes 1 e.function ++
        leBytes 2 e.count ++ leBytes 12 e.detail.toNat))).finish (s.newCmd vfNone fn d) 0
      (BitVec.ofNat 64 (xs.length + next * 2 ^ 32)))) ∧
  (∀ (s : State) (fn : Nat) (d : BitVec 512), s.accepted pfNone fn d →
    let u := s.begun pfNone fn d
    let c := s.newCmd pfNone fn d
    let ix := dfld d 18 0 16
    let off := dfld d 32 0 32
    let n := dfld d 36 0 32
    (s.pwr.held = false → ∃ t, u.told t kCmBadState fn ∧ exec (.dumpRead fn d) s = .next (t.finish c (kCmBadState.flint fn) 0)) ∧
    (s.pwr.held = true → dRestZero d [(17, 0, 8), (18, 0, 16), (24, 0, 64), (32, 0, 32), (36, 0, 32)] = true →
      ∀ x ∈ [(0, 0x1000, 1), (1, 0x40000, 1), (2, 0x20000, 1024), (3, 0x100000, 1024), (4, 0x10000, 1), (5, 0x20000, 1)],
      dfld d 17 0 8 = x.1 →
      (n % 64 ≠ 0 ∨ 0x100000 < n ∨ x.2.1 < off + n ∨ x.2.2 ≤ ix → ∃ t, u.told t kCmBadOperand fn ∧
        exec (.dumpRead fn d) s = .next (t.finish c (kCmBadOperand.flint fn) 0)) ∧
      (n % 64 = 0 → n ≤ 0x100000 → off + n ≤ x.2.1 → ix < x.2.2 → ∃ bs : List Byte, bs.length = n ∧
        exec (.dumpRead fn d) s = .next ((u.fresh.hostWrite (dfld d 24 0 64) bs).finish c 0 (BitVec.ofNat 64 n)) ∧
        (x.1 = 3 → ∀ j, j < n → bs.getD j 0 = if (off + j) / 4 * 4 ∈ (s.rill ix).poison then 0
          else Memory.read s.mem.cells (spadBase ix + (off + j))) ∧
        (x.1 = 2 → ∀ j, j < n → 0x10000 ≤ off + j → off + j < 0x14000 → bs.getD j 0 =
          BitVec.ofNat 8 (((s.rill ix).array.acc0.getD ((off + j - 0x10000) / 4) 0).toNat / 256 ^ ((off + j) % 4))))))

/-- R13, R14, R41, R42, R132, R175, R523, R528: a read of a register returns its value, and clears the fields that a read
clears; a write sets RW fields, clears W1C flags where it writes 1, and acts where the register acts; an access that reaches
no register of the function is an Unsupported Request, or a dropped write, and is counted. -/
def Obligations.RegisterAccesses : Prop :=
  (∀ (s : State) (fn a : Nat) (v : W64),
    (a < 0x080000000000 ∨ 0x080013000000 ≤ a) ∨ (fn ≠ 0 ∧ (a < mbReg fn 0 ∨ mbReg (fn + 1) 0 ≤ a)) →
    exec (.registerReadClear fn a) s = .next { s with
      host := { s.host with urReads := s.host.urReads + 1 }, out := s.out ++ [.unsupported fn a] } ∧
    exec (.registerWrite fn a v) s = .next { s with host := { s.host with droppedWrites := s.host.droppedWrites + 1 } }) ∧
  (∀ (s : State) (f : Nat), f < 16 →
    let m := s.mailbox f
    ∀ x ∈ [(0, ckReg 8, s.tbNs % 2 ^ 64), (0, pwReg 0x38, s.pwr.ptTotal % 2 ^ 64), (0, pwReg 0x40, s.pwr.ptExcluded % 2 ^ 64),
      (0, pwReg 0x48, s.pwr.ptLost % 2 ^ 64), (0, whReg 8, s.host.heartbeat.toNat), (0, ckReg 0x18, s.reg ckFault),
      (0, whReg 0, s.mode.code % 4 + 0x0302 * 2 ^ 2 + b2n s.grotto.wellheadSlot * 2 ^ 18),
      (0, pwReg 0, s.pwr.cap % 2 ^ 12 + b2n s.pwr.held * 2 ^ 12 + b2n s.pwr.recovery.isSome * 2 ^ 13 +
        s.pwr.withdrawCause % 4 * 2 ^ 14), (0, blockBase 0x0D + 0x40000, s.fabric.chip % 2 ^ 16 +
        s.fabric.fabricId.toNat * 2 ^ 16 + b2n s.fabric.spare * 2 ^ 48 + b2n s.fabric.timeMaster * 2 ^ 49),
      (f, mbReg f 0x2000, b2n m.enable + b2n m.order * 2), (f, mbReg f 0x2018, m.cqBase.toNat), (f, mbReg f 0x2028, m.head.toNat),
      (f, mbReg f 0x2030, m.posted.toNat), (f, mbReg f 0x2038, m.postedAddr.toNat), (f, mbReg f 0x2048, s.reg (mbFault f))],
    exec (.registerReadClear x.1 x.2.1) s = .next { s with out := s.out ++ [.readData x.1 x.2.1 (leBytes 8 x.2.2) false] }) ∧
  (∀ (s : State) (n : Nat), n < 1024 →
    ∀ x ∈ [(spReg n 0x10, 48), (arReg n 0x58, 32), (vxReg n 0x48, 32), (rlReg n 0x58, 16), (stReg 0x10, 32), (slReg 0x10, 32),
      (whReg 0x18, 32), (pwReg 0x30, 24), (dgReg 0x18, 16), (grReg 0x38, 64)],
    exec (.registerReadClear 0 x.1) s = .next
      (({ s with out := s.out ++ [.readData 0 x.1 (leBytes 8 (s.reg x.1)) false] } : State).setReg x.1 (setBits (s.reg x.1) 0 x.2 0))) ∧
  (∀ (s : State) (n : Nat) (v : W64), n < 1024 →
    (∀ x ∈ [(slReg 0, 16), (spReg n 0, 1), (arReg n 0, 1), (vxReg n 0, 1), (swReg 0, 17), (blockBase 0x0E, 32), (dgReg 0, 1)],
      exec (.registerWrite 0 x.1 v) s = .next (s.setReg x.1 (setBits (s.reg x.1) 0 x.2 (v.toNat % 2 ^ x.2)))) ∧
    (∀ a ∈ [arReg n 0x20, vxReg n 0x10], ∃ t, exec (.registerWrite 0 a v) s = .next t ∧
      (∀ b, bit (t.reg a) b = (bit (s.reg a) b && !(decide (b < 4) && bit v.toNat b))) ∧
      (∀ a', a' ≠ a → t.reg a' = s.reg a') ∧ t = { s with regs := t.regs }) ∧
    (∀ a ∈ [rlFault n, arFault n, vxReg n 0x50, spReg n 0x40, ckFault, pwFault, whFault, mbFault (n % 16), stFault, pxFault, grFault],
      exec (.registerWrite 0 a v) s = .next (if bit v.toNat 32 then s.setReg a 0
        else if bit v.toNat 33 then s.setReg a (setBits (s.reg a) 33 1 0) else s)) ∧
    exec (.registerWrite 0 (pwReg 8) v) s = .next (if bit v.toNat 32 then { s with pwr := { s.pwr with kept := none } } else s) ∧
    exec (.registerWrite 0 (ckReg 8) v) s = .next s ∧ exec (.registerWrite 0 (pwReg 0x38) v) s = .next s ∧
    exec (.registerWrite 0 (grReg 0x20) v) s = exec (.identify v) s ∧
    exec (.registerWrite 0 (stReg 0) v) s = (if bit v.toNat 0 then exec .stFlush s else .next s) ∧
    exec (.registerWrite 0 (rlReg n 0) v) s = exec (.rlOutOfService n v) s ∧
    exec (.registerWrite (n % 16) (mbReg (n % 16) 0x2010) v) s = exec (.mbDoorbell (n % 16) v) s ∧
    exec (.registerWrite (n % 16) (mbReg (n % 16) 0x2028) v) s = exec (.mbCqHead (n % 16) v) s ∧
    (let m := s.mailbox (n % 16);
      exec (.registerWrite (n % 16) (mbReg (n % 16) 0x2018) v) s = .next (if m.enable then s
        else s.setMailbox (n % 16) { m with cqBase := BitVec.ofNat 64 (v.toNat / 4096 * 4096) })))

/-! ## The machine after power-on reset, and an invariant -/

/-- R15, R293, R481 to R483, R574, R604, R617, R639, R641: after a power-on reset the module is in BOOT, at stage 1 of its
power-up, Grotto in its ROM, no command waiting and none in progress; every register reads its reset value, the
thresholds, rates and enables of the register tables among them; CAP is 0x73A; every terrace is at OPP 0 with CEILING 3; no
partition, context, object or stream stands; ports are DOWN, in-package links have their 16 groups, and the module has no
place in a fabric.  The values of registers for which the spec gives none are the model's choice (log 1). -/
def Obligations.ResetState : Prop :=
  State.reset.pending = [] ∧ State.reset.mode = .boot ∧ State.reset.grotto.powerStage = 1 ∧ State.reset.grotto.stage = 0 ∧
  State.reset.host.inProgress = [] ∧ State.reset.out = [] ∧ (∀ a, State.reset.reg a = regReset a) ∧
  State.reset.getF slQuotaWait = 0xA ∧ State.reset.getF grT1sEnable = 1 ∧ State.reset.getF dgSampleEn = 1 ∧
  State.reset.getF swSwapHold = 0x7D0 ∧ State.reset.getF swSwapEn = 1 ∧ State.reset.getF ceResendUs = 0x64 ∧
  State.reset.getF ceStallMs = 0x3E8 ∧
  (∀ r, r < 1024 → State.reset.getF (spScrubEn r) = 1) ∧
  (∀ n, n < 8 → State.reset.getF (hbScrubEn n) = 1 ∧ State.reset.getF (hbRepairEn n) = 1) ∧
  (∀ n, n < 24 → State.reset.getF (glEnable n) = 1 ∧ State.reset.getF (glLaneMask n) = 0xF) ∧
  (∀ d, d < 4 → State.reset.getF (glHopLimit d) = 0x40 ∧ State.reset.getF (glTruncUs d) = 0x28) ∧
  (∀ d, d < 4 → State.reset.getF (ckThreshold d) = 50 ∧ State.reset.getF (ckHoldNs d) = 1000) ∧
  State.reset.pwr.cap = 0x73A ∧ State.reset.pwr.recovery = none ∧
  (∀ d, d < 4 → (State.reset.terrace d).running = 0 ∧ (State.reset.terrace d).ceiling = 3 ∧ (State.reset.terrace d).g = 0) ∧
  (∀ p, (State.reset.part p).state = 0) ∧ (∀ k, State.reset.ctx? k = none) ∧ (∀ n, State.reset.entry n = 0) ∧
  (∀ n, (State.reset.port n).state = 1) ∧ (∀ n, (State.reset.ipl n).groups = 16) ∧ State.reset.fabric.chip = 0xFFFF ∧
  (∀ f, (State.reset.mailbox f).enable = false ∧ (State.reset.mailbox f).sizeLog2 = 6 ∧ (State.reset.mailbox f).coalesceN = 1) ∧
  State.reset.grotto.slate.escCount = 3 ∧ State.reset.grotto.slate.powerCapW = 1850 ∧
  State.reset.grotto.slate.oppAllowed = 0xF ∧ State.reset.memoriesWf ∧ State.reset.pointsLegal

/-- R604, R608 to R610: whatever the command at the front of the queue, a step keeps every terrace at one of the four OPPs,
its CEILING one of them, its hold at most 3, and its gate duty at most 15. -/
def Obligations.StepKeepsOperatingPoints : Prop :=
  ∀ (s t : State), s.pointsLegal → step s = .next t → t.pointsLegal
end

