-- ==== Sys2Proof/Laws/State.lean ====
section
/-! SUPPORT. One lemma for each field of the state and each named update: what an update leaves unchanged, so that
no proof unfolds a record update. -/

namespace Sys2Proof.Machine

open Sys2Proof

/-! ## `State.setRill` -/

@[simp] theorem State.setRill_pending (s : State) (r : Nat) (v : Rill) : (s.setRill r v).pending = s.pending := rfl
@[simp] theorem State.setRill_mode (s : State) (r : Nat) (v : Rill) : (s.setRill r v).mode = s.mode := rfl
@[simp] theorem State.setRill_regs (s : State) (r : Nat) (v : Rill) : (s.setRill r v).regs = s.regs := rfl
@[simp] theorem State.setRill_clk (s : State) (r : Nat) (v : Rill) : (s.setRill r v).clk = s.clk := rfl
@[simp] theorem State.setRill_pwr (s : State) (r : Nat) (v : Rill) : (s.setRill r v).pwr = s.pwr := rfl
@[simp] theorem State.setRill_watch (s : State) (r : Nat) (v : Rill) : (s.setRill r v).watch = s.watch := rfl
@[simp] theorem State.setRill_grotto (s : State) (r : Nat) (v : Rill) : (s.setRill r v).grotto = s.grotto := rfl
@[simp] theorem State.setRill_dbg (s : State) (r : Nat) (v : Rill) : (s.setRill r v).dbg = s.dbg := rfl
@[simp] theorem State.setRill_ctxs (s : State) (r : Nat) (v : Rill) : (s.setRill r v).ctxs = s.ctxs := rfl
@[simp] theorem State.setRill_frqs (s : State) (r : Nat) (v : Rill) : (s.setRill r v).frqs = s.frqs := rfl
@[simp] theorem State.setRill_frqOver (s : State) (r : Nat) (v : Rill) : (s.setRill r v).frqOver = s.frqOver := rfl
@[simp] theorem State.setRill_streams (s : State) (r : Nat) (v : Rill) : (s.setRill r v).streams = s.streams := rfl
@[simp] theorem State.setRill_streamCaches (s : State) (r : Nat) (v : Rill) : (s.setRill r v).streamCaches = s.streamCaches := rfl
@[simp] theorem State.setRill_parts (s : State) (r : Nat) (v : Rill) : (s.setRill r v).parts = s.parts := rfl
@[simp] theorem State.setRill_mem (s : State) (r : Nat) (v : Rill) : (s.setRill r v).mem = s.mem := rfl
@[simp] theorem State.setRill_fabric (s : State) (r : Nat) (v : Rill) : (s.setRill r v).fabric = s.fabric := rfl
@[simp] theorem State.setRill_coll (s : State) (r : Nat) (v : Rill) : (s.setRill r v).coll = s.coll := rfl
@[simp] theorem State.setRill_host (s : State) (r : Nat) (v : Rill) : (s.setRill r v).host = s.host := rfl
@[simp] theorem State.setRill_input (s : State) (r : Nat) (v : Rill) : (s.setRill r v).input = s.input := rfl
@[simp] theorem State.setRill_out (s : State) (r : Nat) (v : Rill) : (s.setRill r v).out = s.out := rfl
@[simp] theorem State.setRill_free (s : State) (r : Nat) (v : Rill) : (s.setRill r v).free = s.free := rfl

/-! ## `State.setPart` -/

@[simp] theorem State.setPart_pending (s : State) (p : Nat) (v : Part) : (s.setPart p v).pending = s.pending := rfl
@[simp] theorem State.setPart_mode (s : State) (p : Nat) (v : Part) : (s.setPart p v).mode = s.mode := rfl
@[simp] theorem State.setPart_regs (s : State) (p : Nat) (v : Part) : (s.setPart p v).regs = s.regs := rfl
@[simp] theorem State.setPart_clk (s : State) (p : Nat) (v : Part) : (s.setPart p v).clk = s.clk := rfl
@[simp] theorem State.setPart_pwr (s : State) (p : Nat) (v : Part) : (s.setPart p v).pwr = s.pwr := rfl
@[simp] theorem State.setPart_watch (s : State) (p : Nat) (v : Part) : (s.setPart p v).watch = s.watch := rfl
@[simp] theorem State.setPart_grotto (s : State) (p : Nat) (v : Part) : (s.setPart p v).grotto = s.grotto := rfl
@[simp] theorem State.setPart_dbg (s : State) (p : Nat) (v : Part) : (s.setPart p v).dbg = s.dbg := rfl
@[simp] theorem State.setPart_rills (s : State) (p : Nat) (v : Part) : (s.setPart p v).rills = s.rills := rfl
@[simp] theorem State.setPart_ctxs (s : State) (p : Nat) (v : Part) : (s.setPart p v).ctxs = s.ctxs := rfl
@[simp] theorem State.setPart_frqs (s : State) (p : Nat) (v : Part) : (s.setPart p v).frqs = s.frqs := rfl
@[simp] theorem State.setPart_frqOver (s : State) (p : Nat) (v : Part) : (s.setPart p v).frqOver = s.frqOver := rfl
@[simp] theorem State.setPart_streams (s : State) (p : Nat) (v : Part) : (s.setPart p v).streams = s.streams := rfl
@[simp] theorem State.setPart_streamCaches (s : State) (p : Nat) (v : Part) : (s.setPart p v).streamCaches = s.streamCaches := rfl
@[simp] theorem State.setPart_mem (s : State) (p : Nat) (v : Part) : (s.setPart p v).mem = s.mem := rfl
@[simp] theorem State.setPart_fabric (s : State) (p : Nat) (v : Part) : (s.setPart p v).fabric = s.fabric := rfl
@[simp] theorem State.setPart_coll (s : State) (p : Nat) (v : Part) : (s.setPart p v).coll = s.coll := rfl
@[simp] theorem State.setPart_host (s : State) (p : Nat) (v : Part) : (s.setPart p v).host = s.host := rfl
@[simp] theorem State.setPart_input (s : State) (p : Nat) (v : Part) : (s.setPart p v).input = s.input := rfl
@[simp] theorem State.setPart_out (s : State) (p : Nat) (v : Part) : (s.setPart p v).out = s.out := rfl
@[simp] theorem State.setPart_free (s : State) (p : Nat) (v : Part) : (s.setPart p v).free = s.free := rfl

/-! ## `State.setCtx` -/

@[simp] theorem State.setCtx_pending (s : State) (k : Nat) (c : Context) : (s.setCtx k c).pending = s.pending := rfl
@[simp] theorem State.setCtx_mode (s : State) (k : Nat) (c : Context) : (s.setCtx k c).mode = s.mode := rfl
@[simp] theorem State.setCtx_regs (s : State) (k : Nat) (c : Context) : (s.setCtx k c).regs = s.regs := rfl
@[simp] theorem State.setCtx_clk (s : State) (k : Nat) (c : Context) : (s.setCtx k c).clk = s.clk := rfl
@[simp] theorem State.setCtx_pwr (s : State) (k : Nat) (c : Context) : (s.setCtx k c).pwr = s.pwr := rfl
@[simp] theorem State.setCtx_watch (s : State) (k : Nat) (c : Context) : (s.setCtx k c).watch = s.watch := rfl
@[simp] theorem State.setCtx_grotto (s : State) (k : Nat) (c : Context) : (s.setCtx k c).grotto = s.grotto := rfl
@[simp] theorem State.setCtx_dbg (s : State) (k : Nat) (c : Context) : (s.setCtx k c).dbg = s.dbg := rfl
@[simp] theorem State.setCtx_rills (s : State) (k : Nat) (c : Context) : (s.setCtx k c).rills = s.rills := rfl
@[simp] theorem State.setCtx_frqs (s : State) (k : Nat) (c : Context) : (s.setCtx k c).frqs = s.frqs := rfl
@[simp] theorem State.setCtx_frqOver (s : State) (k : Nat) (c : Context) : (s.setCtx k c).frqOver = s.frqOver := rfl
@[simp] theorem State.setCtx_streams (s : State) (k : Nat) (c : Context) : (s.setCtx k c).streams = s.streams := rfl
@[simp] theorem State.setCtx_streamCaches (s : State) (k : Nat) (c : Context) : (s.setCtx k c).streamCaches = s.streamCaches := rfl
@[simp] theorem State.setCtx_parts (s : State) (k : Nat) (c : Context) : (s.setCtx k c).parts = s.parts := rfl
@[simp] theorem State.setCtx_mem (s : State) (k : Nat) (c : Context) : (s.setCtx k c).mem = s.mem := rfl
@[simp] theorem State.setCtx_fabric (s : State) (k : Nat) (c : Context) : (s.setCtx k c).fabric = s.fabric := rfl
@[simp] theorem State.setCtx_coll (s : State) (k : Nat) (c : Context) : (s.setCtx k c).coll = s.coll := rfl
@[simp] theorem State.setCtx_host (s : State) (k : Nat) (c : Context) : (s.setCtx k c).host = s.host := rfl
@[simp] theorem State.setCtx_input (s : State) (k : Nat) (c : Context) : (s.setCtx k c).input = s.input := rfl
@[simp] theorem State.setCtx_out (s : State) (k : Nat) (c : Context) : (s.setCtx k c).out = s.out := rfl
@[simp] theorem State.setCtx_free (s : State) (k : Nat) (c : Context) : (s.setCtx k c).free = s.free := rfl

/-! ## `State.setMailbox` -/

@[simp] theorem State.setMailbox_pending (s : State) (f : Nat) (m : Mailbox) : (s.setMailbox f m).pending = s.pending := rfl
@[simp] theorem State.setMailbox_mode (s : State) (f : Nat) (m : Mailbox) : (s.setMailbox f m).mode = s.mode := rfl
@[simp] theorem State.setMailbox_regs (s : State) (f : Nat) (m : Mailbox) : (s.setMailbox f m).regs = s.regs := rfl
@[simp] theorem State.setMailbox_clk (s : State) (f : Nat) (m : Mailbox) : (s.setMailbox f m).clk = s.clk := rfl
@[simp] theorem State.setMailbox_pwr (s : State) (f : Nat) (m : Mailbox) : (s.setMailbox f m).pwr = s.pwr := rfl
@[simp] theorem State.setMailbox_watch (s : State) (f : Nat) (m : Mailbox) : (s.setMailbox f m).watch = s.watch := rfl
@[simp] theorem State.setMailbox_grotto (s : State) (f : Nat) (m : Mailbox) : (s.setMailbox f m).grotto = s.grotto := rfl
@[simp] theorem State.setMailbox_dbg (s : State) (f : Nat) (m : Mailbox) : (s.setMailbox f m).dbg = s.dbg := rfl
@[simp] theorem State.setMailbox_rills (s : State) (f : Nat) (m : Mailbox) : (s.setMailbox f m).rills = s.rills := rfl
@[simp] theorem State.setMailbox_ctxs (s : State) (f : Nat) (m : Mailbox) : (s.setMailbox f m).ctxs = s.ctxs := rfl
@[simp] theorem State.setMailbox_frqs (s : State) (f : Nat) (m : Mailbox) : (s.setMailbox f m).frqs = s.frqs := rfl
@[simp] theorem State.setMailbox_frqOver (s : State) (f : Nat) (m : Mailbox) : (s.setMailbox f m).frqOver = s.frqOver := rfl
@[simp] theorem State.setMailbox_streams (s : State) (f : Nat) (m : Mailbox) : (s.setMailbox f m).streams = s.streams := rfl
@[simp] theorem State.setMailbox_streamCaches (s : State) (f : Nat) (m : Mailbox) : (s.setMailbox f m).streamCaches = s.streamCaches := rfl
@[simp] theorem State.setMailbox_parts (s : State) (f : Nat) (m : Mailbox) : (s.setMailbox f m).parts = s.parts := rfl
@[simp] theorem State.setMailbox_mem (s : State) (f : Nat) (m : Mailbox) : (s.setMailbox f m).mem = s.mem := rfl
@[simp] theorem State.setMailbox_fabric (s : State) (f : Nat) (m : Mailbox) : (s.setMailbox f m).fabric = s.fabric := rfl
@[simp] theorem State.setMailbox_coll (s : State) (f : Nat) (m : Mailbox) : (s.setMailbox f m).coll = s.coll := rfl
@[simp] theorem State.setMailbox_input (s : State) (f : Nat) (m : Mailbox) : (s.setMailbox f m).input = s.input := rfl
@[simp] theorem State.setMailbox_out (s : State) (f : Nat) (m : Mailbox) : (s.setMailbox f m).out = s.out := rfl
@[simp] theorem State.setMailbox_free (s : State) (f : Nat) (m : Mailbox) : (s.setMailbox f m).free = s.free := rfl

/-! ## `State.setPort` -/

@[simp] theorem State.setPort_pending (s : State) (p : Nat) (v : Port) : (s.setPort p v).pending = s.pending := rfl
@[simp] theorem State.setPort_mode (s : State) (p : Nat) (v : Port) : (s.setPort p v).mode = s.mode := rfl
@[simp] theorem State.setPort_regs (s : State) (p : Nat) (v : Port) : (s.setPort p v).regs = s.regs := rfl
@[simp] theorem State.setPort_clk (s : State) (p : Nat) (v : Port) : (s.setPort p v).clk = s.clk := rfl
@[simp] theorem State.setPort_pwr (s : State) (p : Nat) (v : Port) : (s.setPort p v).pwr = s.pwr := rfl
@[simp] theorem State.setPort_watch (s : State) (p : Nat) (v : Port) : (s.setPort p v).watch = s.watch := rfl
@[simp] theorem State.setPort_grotto (s : State) (p : Nat) (v : Port) : (s.setPort p v).grotto = s.grotto := rfl
@[simp] theorem State.setPort_dbg (s : State) (p : Nat) (v : Port) : (s.setPort p v).dbg = s.dbg := rfl
@[simp] theorem State.setPort_rills (s : State) (p : Nat) (v : Port) : (s.setPort p v).rills = s.rills := rfl
@[simp] theorem State.setPort_ctxs (s : State) (p : Nat) (v : Port) : (s.setPort p v).ctxs = s.ctxs := rfl
@[simp] theorem State.setPort_frqs (s : State) (p : Nat) (v : Port) : (s.setPort p v).frqs = s.frqs := rfl
@[simp] theorem State.setPort_frqOver (s : State) (p : Nat) (v : Port) : (s.setPort p v).frqOver = s.frqOver := rfl
@[simp] theorem State.setPort_streams (s : State) (p : Nat) (v : Port) : (s.setPort p v).streams = s.streams := rfl
@[simp] theorem State.setPort_streamCaches (s : State) (p : Nat) (v : Port) : (s.setPort p v).streamCaches = s.streamCaches := rfl
@[simp] theorem State.setPort_parts (s : State) (p : Nat) (v : Port) : (s.setPort p v).parts = s.parts := rfl
@[simp] theorem State.setPort_mem (s : State) (p : Nat) (v : Port) : (s.setPort p v).mem = s.mem := rfl
@[simp] theorem State.setPort_coll (s : State) (p : Nat) (v : Port) : (s.setPort p v).coll = s.coll := rfl
@[simp] theorem State.setPort_host (s : State) (p : Nat) (v : Port) : (s.setPort p v).host = s.host := rfl
@[simp] theorem State.setPort_input (s : State) (p : Nat) (v : Port) : (s.setPort p v).input = s.input := rfl
@[simp] theorem State.setPort_out (s : State) (p : Nat) (v : Port) : (s.setPort p v).out = s.out := rfl
@[simp] theorem State.setPort_free (s : State) (p : Nat) (v : Port) : (s.setPort p v).free = s.free := rfl

/-! ## `State.setIpl` -/

@[simp] theorem State.setIpl_pending (s : State) (i : Nat) (v : Ipl) : (s.setIpl i v).pending = s.pending := rfl
@[simp] theorem State.setIpl_mode (s : State) (i : Nat) (v : Ipl) : (s.setIpl i v).mode = s.mode := rfl
@[simp] theorem State.setIpl_regs (s : State) (i : Nat) (v : Ipl) : (s.setIpl i v).regs = s.regs := rfl
@[simp] theorem State.setIpl_clk (s : State) (i : Nat) (v : Ipl) : (s.setIpl i v).clk = s.clk := rfl
@[simp] theorem State.setIpl_pwr (s : State) (i : Nat) (v : Ipl) : (s.setIpl i v).pwr = s.pwr := rfl
@[simp] theorem State.setIpl_watch (s : State) (i : Nat) (v : Ipl) : (s.setIpl i v).watch = s.watch := rfl
@[simp] theorem State.setIpl_grotto (s : State) (i : Nat) (v : Ipl) : (s.setIpl i v).grotto = s.grotto := rfl
@[simp] theorem State.setIpl_dbg (s : State) (i : Nat) (v : Ipl) : (s.setIpl i v).dbg = s.dbg := rfl
@[simp] theorem State.setIpl_rills (s : State) (i : Nat) (v : Ipl) : (s.setIpl i v).rills = s.rills := rfl
@[simp] theorem State.setIpl_ctxs (s : State) (i : Nat) (v : Ipl) : (s.setIpl i v).ctxs = s.ctxs := rfl
@[simp] theorem State.setIpl_frqs (s : State) (i : Nat) (v : Ipl) : (s.setIpl i v).frqs = s.frqs := rfl
@[simp] theorem State.setIpl_frqOver (s : State) (i : Nat) (v : Ipl) : (s.setIpl i v).frqOver = s.frqOver := rfl
@[simp] theorem State.setIpl_streams (s : State) (i : Nat) (v : Ipl) : (s.setIpl i v).streams = s.streams := rfl
@[simp] theorem State.setIpl_streamCaches (s : State) (i : Nat) (v : Ipl) : (s.setIpl i v).streamCaches = s.streamCaches := rfl
@[simp] theorem State.setIpl_parts (s : State) (i : Nat) (v : Ipl) : (s.setIpl i v).parts = s.parts := rfl
@[simp] theorem State.setIpl_mem (s : State) (i : Nat) (v : Ipl) : (s.setIpl i v).mem = s.mem := rfl
@[simp] theorem State.setIpl_coll (s : State) (i : Nat) (v : Ipl) : (s.setIpl i v).coll = s.coll := rfl
@[simp] theorem State.setIpl_host (s : State) (i : Nat) (v : Ipl) : (s.setIpl i v).host = s.host := rfl
@[simp] theorem State.setIpl_input (s : State) (i : Nat) (v : Ipl) : (s.setIpl i v).input = s.input := rfl
@[simp] theorem State.setIpl_out (s : State) (i : Nat) (v : Ipl) : (s.setIpl i v).out = s.out := rfl
@[simp] theorem State.setIpl_free (s : State) (i : Nat) (v : Ipl) : (s.setIpl i v).free = s.free := rfl

/-! ## `State.setTerrace` -/

@[simp] theorem State.setTerrace_pending (s : State) (d : Nat) (t : Terrace) : (s.setTerrace d t).pending = s.pending := rfl
@[simp] theorem State.setTerrace_mode (s : State) (d : Nat) (t : Terrace) : (s.setTerrace d t).mode = s.mode := rfl
@[simp] theorem State.setTerrace_regs (s : State) (d : Nat) (t : Terrace) : (s.setTerrace d t).regs = s.regs := rfl
@[simp] theorem State.setTerrace_pwr (s : State) (d : Nat) (t : Terrace) : (s.setTerrace d t).pwr = s.pwr := rfl
@[simp] theorem State.setTerrace_watch (s : State) (d : Nat) (t : Terrace) : (s.setTerrace d t).watch = s.watch := rfl
@[simp] theorem State.setTerrace_grotto (s : State) (d : Nat) (t : Terrace) : (s.setTerrace d t).grotto = s.grotto := rfl
@[simp] theorem State.setTerrace_dbg (s : State) (d : Nat) (t : Terrace) : (s.setTerrace d t).dbg = s.dbg := rfl
@[simp] theorem State.setTerrace_rills (s : State) (d : Nat) (t : Terrace) : (s.setTerrace d t).rills = s.rills := rfl
@[simp] theorem State.setTerrace_ctxs (s : State) (d : Nat) (t : Terrace) : (s.setTerrace d t).ctxs = s.ctxs := rfl
@[simp] theorem State.setTerrace_frqs (s : State) (d : Nat) (t : Terrace) : (s.setTerrace d t).frqs = s.frqs := rfl
@[simp] theorem State.setTerrace_frqOver (s : State) (d : Nat) (t : Terrace) : (s.setTerrace d t).frqOver = s.frqOver := rfl
@[simp] theorem State.setTerrace_streams (s : State) (d : Nat) (t : Terrace) : (s.setTerrace d t).streams = s.streams := rfl
@[simp] theorem State.setTerrace_streamCaches (s : State) (d : Nat) (t : Terrace) : (s.setTerrace d t).streamCaches = s.streamCaches := rfl
@[simp] theorem State.setTerrace_parts (s : State) (d : Nat) (t : Terrace) : (s.setTerrace d t).parts = s.parts := rfl
@[simp] theorem State.setTerrace_mem (s : State) (d : Nat) (t : Terrace) : (s.setTerrace d t).mem = s.mem := rfl
@[simp] theorem State.setTerrace_fabric (s : State) (d : Nat) (t : Terrace) : (s.setTerrace d t).fabric = s.fabric := rfl
@[simp] theorem State.setTerrace_coll (s : State) (d : Nat) (t : Terrace) : (s.setTerrace d t).coll = s.coll := rfl
@[simp] theorem State.setTerrace_host (s : State) (d : Nat) (t : Terrace) : (s.setTerrace d t).host = s.host := rfl
@[simp] theorem State.setTerrace_input (s : State) (d : Nat) (t : Terrace) : (s.setTerrace d t).input = s.input := rfl
@[simp] theorem State.setTerrace_out (s : State) (d : Nat) (t : Terrace) : (s.setTerrace d t).out = s.out := rfl
@[simp] theorem State.setTerrace_free (s : State) (d : Nat) (t : Terrace) : (s.setTerrace d t).free = s.free := rfl

/-! ## `State.setLaunch` -/

@[simp] theorem State.setLaunch_pending (s : State) (p h : Nat) (l : Launch) : (s.setLaunch p h l).pending = s.pending := rfl
@[simp] theorem State.setLaunch_mode (s : State) (p h : Nat) (l : Launch) : (s.setLaunch p h l).mode = s.mode := rfl
@[simp] theorem State.setLaunch_regs (s : State) (p h : Nat) (l : Launch) : (s.setLaunch p h l).regs = s.regs := rfl
@[simp] theorem State.setLaunch_clk (s : State) (p h : Nat) (l : Launch) : (s.setLaunch p h l).clk = s.clk := rfl
@[simp] theorem State.setLaunch_pwr (s : State) (p h : Nat) (l : Launch) : (s.setLaunch p h l).pwr = s.pwr := rfl
@[simp] theorem State.setLaunch_watch (s : State) (p h : Nat) (l : Launch) : (s.setLaunch p h l).watch = s.watch := rfl
@[simp] theorem State.setLaunch_grotto (s : State) (p h : Nat) (l : Launch) : (s.setLaunch p h l).grotto = s.grotto := rfl
@[simp] theorem State.setLaunch_dbg (s : State) (p h : Nat) (l : Launch) : (s.setLaunch p h l).dbg = s.dbg := rfl
@[simp] theorem State.setLaunch_rills (s : State) (p h : Nat) (l : Launch) : (s.setLaunch p h l).rills = s.rills := rfl
@[simp] theorem State.setLaunch_ctxs (s : State) (p h : Nat) (l : Launch) : (s.setLaunch p h l).ctxs = s.ctxs := rfl
@[simp] theorem State.setLaunch_frqs (s : State) (p h : Nat) (l : Launch) : (s.setLaunch p h l).frqs = s.frqs := rfl
@[simp] theorem State.setLaunch_frqOver (s : State) (p h : Nat) (l : Launch) : (s.setLaunch p h l).frqOver = s.frqOver := rfl
@[simp] theorem State.setLaunch_streams (s : State) (p h : Nat) (l : Launch) : (s.setLaunch p h l).streams = s.streams := rfl
@[simp] theorem State.setLaunch_streamCaches (s : State) (p h : Nat) (l : Launch) : (s.setLaunch p h l).streamCaches = s.streamCaches := rfl
@[simp] theorem State.setLaunch_mem (s : State) (p h : Nat) (l : Launch) : (s.setLaunch p h l).mem = s.mem := rfl
@[simp] theorem State.setLaunch_fabric (s : State) (p h : Nat) (l : Launch) : (s.setLaunch p h l).fabric = s.fabric := rfl
@[simp] theorem State.setLaunch_coll (s : State) (p h : Nat) (l : Launch) : (s.setLaunch p h l).coll = s.coll := rfl
@[simp] theorem State.setLaunch_host (s : State) (p h : Nat) (l : Launch) : (s.setLaunch p h l).host = s.host := rfl
@[simp] theorem State.setLaunch_input (s : State) (p h : Nat) (l : Launch) : (s.setLaunch p h l).input = s.input := rfl
@[simp] theorem State.setLaunch_out (s : State) (p h : Nat) (l : Launch) : (s.setLaunch p h l).out = s.out := rfl
@[simp] theorem State.setLaunch_free (s : State) (p h : Nat) (l : Launch) : (s.setLaunch p h l).free = s.free := rfl

/-! ## `State.emit` -/

@[simp] theorem State.emit_pending (s : State) (o : Out) : (s.emit o).pending = s.pending := rfl
@[simp] theorem State.emit_mode (s : State) (o : Out) : (s.emit o).mode = s.mode := rfl
@[simp] theorem State.emit_regs (s : State) (o : Out) : (s.emit o).regs = s.regs := rfl
@[simp] theorem State.emit_clk (s : State) (o : Out) : (s.emit o).clk = s.clk := rfl
@[simp] theorem State.emit_pwr (s : State) (o : Out) : (s.emit o).pwr = s.pwr := rfl
@[simp] theorem State.emit_watch (s : State) (o : Out) : (s.emit o).watch = s.watch := rfl
@[simp] theorem State.emit_grotto (s : State) (o : Out) : (s.emit o).grotto = s.grotto := rfl
@[simp] theorem State.emit_dbg (s : State) (o : Out) : (s.emit o).dbg = s.dbg := rfl
@[simp] theorem State.emit_rills (s : State) (o : Out) : (s.emit o).rills = s.rills := rfl
@[simp] theorem State.emit_ctxs (s : State) (o : Out) : (s.emit o).ctxs = s.ctxs := rfl
@[simp] theorem State.emit_frqs (s : State) (o : Out) : (s.emit o).frqs = s.frqs := rfl
@[simp] theorem State.emit_frqOver (s : State) (o : Out) : (s.emit o).frqOver = s.frqOver := rfl
@[simp] theorem State.emit_streams (s : State) (o : Out) : (s.emit o).streams = s.streams := rfl
@[simp] theorem State.emit_streamCaches (s : State) (o : Out) : (s.emit o).streamCaches = s.streamCaches := rfl
@[simp] theorem State.emit_parts (s : State) (o : Out) : (s.emit o).parts = s.parts := rfl
@[simp] theorem State.emit_mem (s : State) (o : Out) : (s.emit o).mem = s.mem := rfl
@[simp] theorem State.emit_fabric (s : State) (o : Out) : (s.emit o).fabric = s.fabric := rfl
@[simp] theorem State.emit_coll (s : State) (o : Out) : (s.emit o).coll = s.coll := rfl
@[simp] theorem State.emit_host (s : State) (o : Out) : (s.emit o).host = s.host := rfl
@[simp] theorem State.emit_input (s : State) (o : Out) : (s.emit o).input = s.input := rfl
@[simp] theorem State.emit_free (s : State) (o : Out) : (s.emit o).free = s.free := rfl

/-! ## `State.fresh` -/

@[simp] theorem State.fresh_pending (s : State) : (s.fresh).pending = s.pending := rfl
@[simp] theorem State.fresh_mode (s : State) : (s.fresh).mode = s.mode := rfl
@[simp] theorem State.fresh_regs (s : State) : (s.fresh).regs = s.regs := rfl
@[simp] theorem State.fresh_clk (s : State) : (s.fresh).clk = s.clk := rfl
@[simp] theorem State.fresh_pwr (s : State) : (s.fresh).pwr = s.pwr := rfl
@[simp] theorem State.fresh_watch (s : State) : (s.fresh).watch = s.watch := rfl
@[simp] theorem State.fresh_grotto (s : State) : (s.fresh).grotto = s.grotto := rfl
@[simp] theorem State.fresh_dbg (s : State) : (s.fresh).dbg = s.dbg := rfl
@[simp] theorem State.fresh_rills (s : State) : (s.fresh).rills = s.rills := rfl
@[simp] theorem State.fresh_ctxs (s : State) : (s.fresh).ctxs = s.ctxs := rfl
@[simp] theorem State.fresh_frqs (s : State) : (s.fresh).frqs = s.frqs := rfl
@[simp] theorem State.fresh_frqOver (s : State) : (s.fresh).frqOver = s.frqOver := rfl
@[simp] theorem State.fresh_streams (s : State) : (s.fresh).streams = s.streams := rfl
@[simp] theorem State.fresh_streamCaches (s : State) : (s.fresh).streamCaches = s.streamCaches := rfl
@[simp] theorem State.fresh_parts (s : State) : (s.fresh).parts = s.parts := rfl
@[simp] theorem State.fresh_mem (s : State) : (s.fresh).mem = s.mem := rfl
@[simp] theorem State.fresh_fabric (s : State) : (s.fresh).fabric = s.fabric := rfl
@[simp] theorem State.fresh_coll (s : State) : (s.fresh).coll = s.coll := rfl
@[simp] theorem State.fresh_host (s : State) : (s.fresh).host = s.host := rfl
@[simp] theorem State.fresh_input (s : State) : (s.fresh).input = s.input := rfl
@[simp] theorem State.fresh_out (s : State) : (s.fresh).out = s.out := rfl

/-! ## `State.credit` -/

@[simp] theorem State.credit_pending (s : State) (p e n : Nat) : (s.credit p e n).pending = s.pending := rfl
@[simp] theorem State.credit_mode (s : State) (p e n : Nat) : (s.credit p e n).mode = s.mode := rfl
@[simp] theorem State.credit_regs (s : State) (p e n : Nat) : (s.credit p e n).regs = s.regs := rfl
@[simp] theorem State.credit_clk (s : State) (p e n : Nat) : (s.credit p e n).clk = s.clk := rfl
@[simp] theorem State.credit_pwr (s : State) (p e n : Nat) : (s.credit p e n).pwr = s.pwr := rfl
@[simp] theorem State.credit_watch (s : State) (p e n : Nat) : (s.credit p e n).watch = s.watch := rfl
@[simp] theorem State.credit_grotto (s : State) (p e n : Nat) : (s.credit p e n).grotto = s.grotto := rfl
@[simp] theorem State.credit_rills (s : State) (p e n : Nat) : (s.credit p e n).rills = s.rills := rfl
@[simp] theorem State.credit_ctxs (s : State) (p e n : Nat) : (s.credit p e n).ctxs = s.ctxs := rfl
@[simp] theorem State.credit_frqs (s : State) (p e n : Nat) : (s.credit p e n).frqs = s.frqs := rfl
@[simp] theorem State.credit_frqOver (s : State) (p e n : Nat) : (s.credit p e n).frqOver = s.frqOver := rfl
@[simp] theorem State.credit_streams (s : State) (p e n : Nat) : (s.credit p e n).streams = s.streams := rfl
@[simp] theorem State.credit_streamCaches (s : State) (p e n : Nat) : (s.credit p e n).streamCaches = s.streamCaches := rfl
@[simp] theorem State.credit_parts (s : State) (p e n : Nat) : (s.credit p e n).parts = s.parts := rfl
@[simp] theorem State.credit_mem (s : State) (p e n : Nat) : (s.credit p e n).mem = s.mem := rfl
@[simp] theorem State.credit_fabric (s : State) (p e n : Nat) : (s.credit p e n).fabric = s.fabric := rfl
@[simp] theorem State.credit_coll (s : State) (p e n : Nat) : (s.credit p e n).coll = s.coll := rfl
@[simp] theorem State.credit_host (s : State) (p e n : Nat) : (s.credit p e n).host = s.host := rfl
@[simp] theorem State.credit_input (s : State) (p e n : Nat) : (s.credit p e n).input = s.input := rfl
@[simp] theorem State.credit_out (s : State) (p e n : Nat) : (s.credit p e n).out = s.out := rfl
@[simp] theorem State.credit_free (s : State) (p e n : Nat) : (s.credit p e n).free = s.free := rfl

/-! ## `State.clearRecord` -/

@[simp] theorem State.clearRecord_pending (s : State) (k : Nat) : (s.clearRecord k).pending = s.pending := rfl
@[simp] theorem State.clearRecord_mode (s : State) (k : Nat) : (s.clearRecord k).mode = s.mode := rfl
@[simp] theorem State.clearRecord_regs (s : State) (k : Nat) : (s.clearRecord k).regs = s.regs := rfl
@[simp] theorem State.clearRecord_clk (s : State) (k : Nat) : (s.clearRecord k).clk = s.clk := rfl
@[simp] theorem State.clearRecord_pwr (s : State) (k : Nat) : (s.clearRecord k).pwr = s.pwr := rfl
@[simp] theorem State.clearRecord_watch (s : State) (k : Nat) : (s.clearRecord k).watch = s.watch := rfl
@[simp] theorem State.clearRecord_grotto (s : State) (k : Nat) : (s.clearRecord k).grotto = s.grotto := rfl
@[simp] theorem State.clearRecord_rills (s : State) (k : Nat) : (s.clearRecord k).rills = s.rills := rfl
@[simp] theorem State.clearRecord_ctxs (s : State) (k : Nat) : (s.clearRecord k).ctxs = s.ctxs := rfl
@[simp] theorem State.clearRecord_frqs (s : State) (k : Nat) : (s.clearRecord k).frqs = s.frqs := rfl
@[simp] theorem State.clearRecord_frqOver (s : State) (k : Nat) : (s.clearRecord k).frqOver = s.frqOver := rfl
@[simp] theorem State.clearRecord_streams (s : State) (k : Nat) : (s.clearRecord k).streams = s.streams := rfl
@[simp] theorem State.clearRecord_streamCaches (s : State) (k : Nat) : (s.clearRecord k).streamCaches = s.streamCaches := rfl
@[simp] theorem State.clearRecord_parts (s : State) (k : Nat) : (s.clearRecord k).parts = s.parts := rfl
@[simp] theorem State.clearRecord_mem (s : State) (k : Nat) : (s.clearRecord k).mem = s.mem := rfl
@[simp] theorem State.clearRecord_fabric (s : State) (k : Nat) : (s.clearRecord k).fabric = s.fabric := rfl
@[simp] theorem State.clearRecord_coll (s : State) (k : Nat) : (s.clearRecord k).coll = s.coll := rfl
@[simp] theorem State.clearRecord_host (s : State) (k : Nat) : (s.clearRecord k).host = s.host := rfl
@[simp] theorem State.clearRecord_input (s : State) (k : Nat) : (s.clearRecord k).input = s.input := rfl
@[simp] theorem State.clearRecord_out (s : State) (k : Nat) : (s.clearRecord k).out = s.out := rfl
@[simp] theorem State.clearRecord_free (s : State) (k : Nat) : (s.clearRecord k).free = s.free := rfl

/-! ## `State.setEntry` -/

@[simp] theorem State.setEntry_pending (s : State) (n : Nat) (e : BitVec 1024) : (s.setEntry n e).pending = s.pending := rfl
@[simp] theorem State.setEntry_mode (s : State) (n : Nat) (e : BitVec 1024) : (s.setEntry n e).mode = s.mode := rfl
@[simp] theorem State.setEntry_regs (s : State) (n : Nat) (e : BitVec 1024) : (s.setEntry n e).regs = s.regs := rfl
@[simp] theorem State.setEntry_clk (s : State) (n : Nat) (e : BitVec 1024) : (s.setEntry n e).clk = s.clk := rfl
@[simp] theorem State.setEntry_pwr (s : State) (n : Nat) (e : BitVec 1024) : (s.setEntry n e).pwr = s.pwr := rfl
@[simp] theorem State.setEntry_watch (s : State) (n : Nat) (e : BitVec 1024) : (s.setEntry n e).watch = s.watch := rfl
@[simp] theorem State.setEntry_grotto (s : State) (n : Nat) (e : BitVec 1024) : (s.setEntry n e).grotto = s.grotto := rfl
@[simp] theorem State.setEntry_dbg (s : State) (n : Nat) (e : BitVec 1024) : (s.setEntry n e).dbg = s.dbg := rfl
@[simp] theorem State.setEntry_rills (s : State) (n : Nat) (e : BitVec 1024) : (s.setEntry n e).rills = s.rills := rfl
@[simp] theorem State.setEntry_ctxs (s : State) (n : Nat) (e : BitVec 1024) : (s.setEntry n e).ctxs = s.ctxs := rfl
@[simp] theorem State.setEntry_frqs (s : State) (n : Nat) (e : BitVec 1024) : (s.setEntry n e).frqs = s.frqs := rfl
@[simp] theorem State.setEntry_frqOver (s : State) (n : Nat) (e : BitVec 1024) : (s.setEntry n e).frqOver = s.frqOver := rfl
@[simp] theorem State.setEntry_streamCaches (s : State) (n : Nat) (e : BitVec 1024) : (s.setEntry n e).streamCaches = s.streamCaches := rfl
@[simp] theorem State.setEntry_parts (s : State) (n : Nat) (e : BitVec 1024) : (s.setEntry n e).parts = s.parts := rfl
@[simp] theorem State.setEntry_mem (s : State) (n : Nat) (e : BitVec 1024) : (s.setEntry n e).mem = s.mem := rfl
@[simp] theorem State.setEntry_fabric (s : State) (n : Nat) (e : BitVec 1024) : (s.setEntry n e).fabric = s.fabric := rfl
@[simp] theorem State.setEntry_coll (s : State) (n : Nat) (e : BitVec 1024) : (s.setEntry n e).coll = s.coll := rfl
@[simp] theorem State.setEntry_host (s : State) (n : Nat) (e : BitVec 1024) : (s.setEntry n e).host = s.host := rfl
@[simp] theorem State.setEntry_input (s : State) (n : Nat) (e : BitVec 1024) : (s.setEntry n e).input = s.input := rfl
@[simp] theorem State.setEntry_out (s : State) (n : Nat) (e : BitVec 1024) : (s.setEntry n e).out = s.out := rfl
@[simp] theorem State.setEntry_free (s : State) (n : Nat) (e : BitVec 1024) : (s.setEntry n e).free = s.free := rfl

/-! ## `State.setCopies` -/

@[simp] theorem State.setCopies_pending (s : State) (c : Nat) (t : Tab StreamCopy) : (s.setCopies c t).pending = s.pending := rfl
@[simp] theorem State.setCopies_mode (s : State) (c : Nat) (t : Tab StreamCopy) : (s.setCopies c t).mode = s.mode := rfl
@[simp] theorem State.setCopies_regs (s : State) (c : Nat) (t : Tab StreamCopy) : (s.setCopies c t).regs = s.regs := rfl
@[simp] theorem State.setCopies_clk (s : State) (c : Nat) (t : Tab StreamCopy) : (s.setCopies c t).clk = s.clk := rfl
@[simp] theorem State.setCopies_pwr (s : State) (c : Nat) (t : Tab StreamCopy) : (s.setCopies c t).pwr = s.pwr := rfl
@[simp] theorem State.setCopies_watch (s : State) (c : Nat) (t : Tab StreamCopy) : (s.setCopies c t).watch = s.watch := rfl
@[simp] theorem State.setCopies_grotto (s : State) (c : Nat) (t : Tab StreamCopy) : (s.setCopies c t).grotto = s.grotto := rfl
@[simp] theorem State.setCopies_dbg (s : State) (c : Nat) (t : Tab StreamCopy) : (s.setCopies c t).dbg = s.dbg := rfl
@[simp] theorem State.setCopies_rills (s : State) (c : Nat) (t : Tab StreamCopy) : (s.setCopies c t).rills = s.rills := rfl
@[simp] theorem State.setCopies_ctxs (s : State) (c : Nat) (t : Tab StreamCopy) : (s.setCopies c t).ctxs = s.ctxs := rfl
@[simp] theorem State.setCopies_frqs (s : State) (c : Nat) (t : Tab StreamCopy) : (s.setCopies c t).frqs = s.frqs := rfl
@[simp] theorem State.setCopies_frqOver (s : State) (c : Nat) (t : Tab StreamCopy) : (s.setCopies c t).frqOver = s.frqOver := rfl
@[simp] theorem State.setCopies_streams (s : State) (c : Nat) (t : Tab StreamCopy) : (s.setCopies c t).streams = s.streams := rfl
@[simp] theorem State.setCopies_parts (s : State) (c : Nat) (t : Tab StreamCopy) : (s.setCopies c t).parts = s.parts := rfl
@[simp] theorem State.setCopies_mem (s : State) (c : Nat) (t : Tab StreamCopy) : (s.setCopies c t).mem = s.mem := rfl
@[simp] theorem State.setCopies_fabric (s : State) (c : Nat) (t : Tab StreamCopy) : (s.setCopies c t).fabric = s.fabric := rfl
@[simp] theorem State.setCopies_coll (s : State) (c : Nat) (t : Tab StreamCopy) : (s.setCopies c t).coll = s.coll := rfl
@[simp] theorem State.setCopies_host (s : State) (c : Nat) (t : Tab StreamCopy) : (s.setCopies c t).host = s.host := rfl
@[simp] theorem State.setCopies_input (s : State) (c : Nat) (t : Tab StreamCopy) : (s.setCopies c t).input = s.input := rfl
@[simp] theorem State.setCopies_out (s : State) (c : Nat) (t : Tab StreamCopy) : (s.setCopies c t).out = s.out := rfl
@[simp] theorem State.setCopies_free (s : State) (c : Nat) (t : Tab StreamCopy) : (s.setCopies c t).free = s.free := rfl

/-! ## `State.dropCmd` -/

@[simp] theorem State.dropCmd_pending (s : State) (n : Nat) : (s.dropCmd n).pending = s.pending := rfl
@[simp] theorem State.dropCmd_mode (s : State) (n : Nat) : (s.dropCmd n).mode = s.mode := rfl
@[simp] theorem State.dropCmd_regs (s : State) (n : Nat) : (s.dropCmd n).regs = s.regs := rfl
@[simp] theorem State.dropCmd_clk (s : State) (n : Nat) : (s.dropCmd n).clk = s.clk := rfl
@[simp] theorem State.dropCmd_pwr (s : State) (n : Nat) : (s.dropCmd n).pwr = s.pwr := rfl
@[simp] theorem State.dropCmd_watch (s : State) (n : Nat) : (s.dropCmd n).watch = s.watch := rfl
@[simp] theorem State.dropCmd_grotto (s : State) (n : Nat) : (s.dropCmd n).grotto = s.grotto := rfl
@[simp] theorem State.dropCmd_dbg (s : State) (n : Nat) : (s.dropCmd n).dbg = s.dbg := rfl
@[simp] theorem State.dropCmd_rills (s : State) (n : Nat) : (s.dropCmd n).rills = s.rills := rfl
@[simp] theorem State.dropCmd_ctxs (s : State) (n : Nat) : (s.dropCmd n).ctxs = s.ctxs := rfl
@[simp] theorem State.dropCmd_frqs (s : State) (n : Nat) : (s.dropCmd n).frqs = s.frqs := rfl
@[simp] theorem State.dropCmd_frqOver (s : State) (n : Nat) : (s.dropCmd n).frqOver = s.frqOver := rfl
@[simp] theorem State.dropCmd_streams (s : State) (n : Nat) : (s.dropCmd n).streams = s.streams := rfl
@[simp] theorem State.dropCmd_streamCaches (s : State) (n : Nat) : (s.dropCmd n).streamCaches = s.streamCaches := rfl
@[simp] theorem State.dropCmd_parts (s : State) (n : Nat) : (s.dropCmd n).parts = s.parts := rfl
@[simp] theorem State.dropCmd_mem (s : State) (n : Nat) : (s.dropCmd n).mem = s.mem := rfl
@[simp] theorem State.dropCmd_fabric (s : State) (n : Nat) : (s.dropCmd n).fabric = s.fabric := rfl
@[simp] theorem State.dropCmd_coll (s : State) (n : Nat) : (s.dropCmd n).coll = s.coll := rfl
@[simp] theorem State.dropCmd_input (s : State) (n : Nat) : (s.dropCmd n).input = s.input := rfl
@[simp] theorem State.dropCmd_out (s : State) (n : Nat) : (s.dropCmd n).out = s.out := rfl
@[simp] theorem State.dropCmd_free (s : State) (n : Nat) : (s.dropCmd n).free = s.free := rfl

/-! ## `State.updCmd` -/

@[simp] theorem State.updCmd_pending (s : State) (n : Nat) (f : Cmd → Cmd) : (s.updCmd n f).pending = s.pending := rfl
@[simp] theorem State.updCmd_mode (s : State) (n : Nat) (f : Cmd → Cmd) : (s.updCmd n f).mode = s.mode := rfl
@[simp] theorem State.updCmd_regs (s : State) (n : Nat) (f : Cmd → Cmd) : (s.updCmd n f).regs = s.regs := rfl
@[simp] theorem State.updCmd_clk (s : State) (n : Nat) (f : Cmd → Cmd) : (s.updCmd n f).clk = s.clk := rfl
@[simp] theorem State.updCmd_pwr (s : State) (n : Nat) (f : Cmd → Cmd) : (s.updCmd n f).pwr = s.pwr := rfl
@[simp] theorem State.updCmd_watch (s : State) (n : Nat) (f : Cmd → Cmd) : (s.updCmd n f).watch = s.watch := rfl
@[simp] theorem State.updCmd_grotto (s : State) (n : Nat) (f : Cmd → Cmd) : (s.updCmd n f).grotto = s.grotto := rfl
@[simp] theorem State.updCmd_dbg (s : State) (n : Nat) (f : Cmd → Cmd) : (s.updCmd n f).dbg = s.dbg := rfl
@[simp] theorem State.updCmd_rills (s : State) (n : Nat) (f : Cmd → Cmd) : (s.updCmd n f).rills = s.rills := rfl
@[simp] theorem State.updCmd_ctxs (s : State) (n : Nat) (f : Cmd → Cmd) : (s.updCmd n f).ctxs = s.ctxs := rfl
@[simp] theorem State.updCmd_frqs (s : State) (n : Nat) (f : Cmd → Cmd) : (s.updCmd n f).frqs = s.frqs := rfl
@[simp] theorem State.updCmd_frqOver (s : State) (n : Nat) (f : Cmd → Cmd) : (s.updCmd n f).frqOver = s.frqOver := rfl
@[simp] theorem State.updCmd_streams (s : State) (n : Nat) (f : Cmd → Cmd) : (s.updCmd n f).streams = s.streams := rfl
@[simp] theorem State.updCmd_streamCaches (s : State) (n : Nat) (f : Cmd → Cmd) : (s.updCmd n f).streamCaches = s.streamCaches := rfl
@[simp] theorem State.updCmd_parts (s : State) (n : Nat) (f : Cmd → Cmd) : (s.updCmd n f).parts = s.parts := rfl
@[simp] theorem State.updCmd_mem (s : State) (n : Nat) (f : Cmd → Cmd) : (s.updCmd n f).mem = s.mem := rfl
@[simp] theorem State.updCmd_fabric (s : State) (n : Nat) (f : Cmd → Cmd) : (s.updCmd n f).fabric = s.fabric := rfl
@[simp] theorem State.updCmd_coll (s : State) (n : Nat) (f : Cmd → Cmd) : (s.updCmd n f).coll = s.coll := rfl
@[simp] theorem State.updCmd_input (s : State) (n : Nat) (f : Cmd → Cmd) : (s.updCmd n f).input = s.input := rfl
@[simp] theorem State.updCmd_out (s : State) (n : Nat) (f : Cmd → Cmd) : (s.updCmd n f).out = s.out := rfl
@[simp] theorem State.updCmd_free (s : State) (n : Nat) (f : Cmd → Cmd) : (s.updCmd n f).free = s.free := rfl

/-! ## `State.hostWrite` -/

@[simp] theorem State.hostWrite_pending (s : State) (a : Nat) (bs : List Byte) : (s.hostWrite a bs).pending = s.pending := rfl
@[simp] theorem State.hostWrite_mode (s : State) (a : Nat) (bs : List Byte) : (s.hostWrite a bs).mode = s.mode := rfl
@[simp] theorem State.hostWrite_regs (s : State) (a : Nat) (bs : List Byte) : (s.hostWrite a bs).regs = s.regs := rfl
@[simp] theorem State.hostWrite_clk (s : State) (a : Nat) (bs : List Byte) : (s.hostWrite a bs).clk = s.clk := rfl
@[simp] theorem State.hostWrite_pwr (s : State) (a : Nat) (bs : List Byte) : (s.hostWrite a bs).pwr = s.pwr := rfl
@[simp] theorem State.hostWrite_watch (s : State) (a : Nat) (bs : List Byte) : (s.hostWrite a bs).watch = s.watch := rfl
@[simp] theorem State.hostWrite_grotto (s : State) (a : Nat) (bs : List Byte) : (s.hostWrite a bs).grotto = s.grotto := rfl
@[simp] theorem State.hostWrite_dbg (s : State) (a : Nat) (bs : List Byte) : (s.hostWrite a bs).dbg = s.dbg := rfl
@[simp] theorem State.hostWrite_rills (s : State) (a : Nat) (bs : List Byte) : (s.hostWrite a bs).rills = s.rills := rfl
@[simp] theorem State.hostWrite_ctxs (s : State) (a : Nat) (bs : List Byte) : (s.hostWrite a bs).ctxs = s.ctxs := rfl
@[simp] theorem State.hostWrite_frqs (s : State) (a : Nat) (bs : List Byte) : (s.hostWrite a bs).frqs = s.frqs := rfl
@[simp] theorem State.hostWrite_frqOver (s : State) (a : Nat) (bs : List Byte) : (s.hostWrite a bs).frqOver = s.frqOver := rfl
@[simp] theorem State.hostWrite_streams (s : State) (a : Nat) (bs : List Byte) : (s.hostWrite a bs).streams = s.streams := rfl
@[simp] theorem State.hostWrite_streamCaches (s : State) (a : Nat) (bs : List Byte) : (s.hostWrite a bs).streamCaches = s.streamCaches := rfl
@[simp] theorem State.hostWrite_parts (s : State) (a : Nat) (bs : List Byte) : (s.hostWrite a bs).parts = s.parts := rfl
@[simp] theorem State.hostWrite_fabric (s : State) (a : Nat) (bs : List Byte) : (s.hostWrite a bs).fabric = s.fabric := rfl
@[simp] theorem State.hostWrite_coll (s : State) (a : Nat) (bs : List Byte) : (s.hostWrite a bs).coll = s.coll := rfl
@[simp] theorem State.hostWrite_host (s : State) (a : Nat) (bs : List Byte) : (s.hostWrite a bs).host = s.host := rfl
@[simp] theorem State.hostWrite_input (s : State) (a : Nat) (bs : List Byte) : (s.hostWrite a bs).input = s.input := rfl
@[simp] theorem State.hostWrite_out (s : State) (a : Nat) (bs : List Byte) : (s.hostWrite a bs).out = s.out := rfl
@[simp] theorem State.hostWrite_free (s : State) (a : Nat) (bs : List Byte) : (s.hostWrite a bs).free = s.free := rfl

/-! ## Registers -/

@[simp] theorem State.setReg_pending (s : State) (a v : Nat) : (s.setReg a v).pending = s.pending := by
  unfold State.setReg; split <;> rfl
@[simp] theorem State.setReg_mode (s : State) (a v : Nat) : (s.setReg a v).mode = s.mode := by
  unfold State.setReg; split <;> rfl
@[simp] theorem State.setReg_clk (s : State) (a v : Nat) : (s.setReg a v).clk = s.clk := by
  unfold State.setReg; split <;> rfl
@[simp] theorem State.setReg_pwr (s : State) (a v : Nat) : (s.setReg a v).pwr = s.pwr := by
  unfold State.setReg; split <;> rfl
@[simp] theorem State.setReg_watch (s : State) (a v : Nat) : (s.setReg a v).watch = s.watch := by
  unfold State.setReg; split <;> rfl
@[simp] theorem State.setReg_grotto (s : State) (a v : Nat) : (s.setReg a v).grotto = s.grotto := by
  unfold State.setReg; split <;> rfl
@[simp] theorem State.setReg_dbg (s : State) (a v : Nat) : (s.setReg a v).dbg = s.dbg := by
  unfold State.setReg; split <;> rfl
@[simp] theorem State.setReg_rills (s : State) (a v : Nat) : (s.setReg a v).rills = s.rills := by
  unfold State.setReg; split <;> rfl
@[simp] theorem State.setReg_ctxs (s : State) (a v : Nat) : (s.setReg a v).ctxs = s.ctxs := by
  unfold State.setReg; split <;> rfl
@[simp] theorem State.setReg_frqs (s : State) (a v : Nat) : (s.setReg a v).frqs = s.frqs := by
  unfold State.setReg; split <;> rfl
@[simp] theorem State.setReg_frqOver (s : State) (a v : Nat) : (s.setReg a v).frqOver = s.frqOver := by
  unfold State.setReg; split <;> rfl
@[simp] theorem State.setReg_streams (s : State) (a v : Nat) : (s.setReg a v).streams = s.streams := by
  unfold State.setReg; split <;> rfl
@[simp] theorem State.setReg_streamCaches (s : State) (a v : Nat) : (s.setReg a v).streamCaches = s.streamCaches := by
  unfold State.setReg; split <;> rfl
@[simp] theorem State.setReg_parts (s : State) (a v : Nat) : (s.setReg a v).parts = s.parts := by
  unfold State.setReg; split <;> rfl
@[simp] theorem State.setReg_mem (s : State) (a v : Nat) : (s.setReg a v).mem = s.mem := by
  unfold State.setReg; split <;> rfl
@[simp] theorem State.setReg_fabric (s : State) (a v : Nat) : (s.setReg a v).fabric = s.fabric := by
  unfold State.setReg; split <;> rfl
@[simp] theorem State.setReg_coll (s : State) (a v : Nat) : (s.setReg a v).coll = s.coll := by
  unfold State.setReg; split <;> rfl
@[simp] theorem State.setReg_host (s : State) (a v : Nat) : (s.setReg a v).host = s.host := by
  unfold State.setReg; split <;> rfl
@[simp] theorem State.setReg_input (s : State) (a v : Nat) : (s.setReg a v).input = s.input := by
  unfold State.setReg; split <;> rfl
@[simp] theorem State.setReg_out (s : State) (a v : Nat) : (s.setReg a v).out = s.out := by
  unfold State.setReg; split <;> rfl
@[simp] theorem State.setReg_free (s : State) (a v : Nat) : (s.setReg a v).free = s.free := by
  unfold State.setReg; split <;> rfl
@[simp] theorem State.setF_pending (s : State) (f : Fld) (v : Nat) : (s.setF f v).pending = s.pending := by simp [State.setF]
@[simp] theorem State.setF_mode (s : State) (f : Fld) (v : Nat) : (s.setF f v).mode = s.mode := by simp [State.setF]
@[simp] theorem State.setF_clk (s : State) (f : Fld) (v : Nat) : (s.setF f v).clk = s.clk := by simp [State.setF]
@[simp] theorem State.setF_pwr (s : State) (f : Fld) (v : Nat) : (s.setF f v).pwr = s.pwr := by simp [State.setF]
@[simp] theorem State.setF_watch (s : State) (f : Fld) (v : Nat) : (s.setF f v).watch = s.watch := by simp [State.setF]
@[simp] theorem State.setF_grotto (s : State) (f : Fld) (v : Nat) : (s.setF f v).grotto = s.grotto := by simp [State.setF]
@[simp] theorem State.setF_dbg (s : State) (f : Fld) (v : Nat) : (s.setF f v).dbg = s.dbg := by simp [State.setF]
@[simp] theorem State.setF_rills (s : State) (f : Fld) (v : Nat) : (s.setF f v).rills = s.rills := by simp [State.setF]
@[simp] theorem State.setF_ctxs (s : State) (f : Fld) (v : Nat) : (s.setF f v).ctxs = s.ctxs := by simp [State.setF]
@[simp] theorem State.setF_frqs (s : State) (f : Fld) (v : Nat) : (s.setF f v).frqs = s.frqs := by simp [State.setF]
@[simp] theorem State.setF_frqOver (s : State) (f : Fld) (v : Nat) : (s.setF f v).frqOver = s.frqOver := by simp [State.setF]
@[simp] theorem State.setF_streams (s : State) (f : Fld) (v : Nat) : (s.setF f v).streams = s.streams := by simp [State.setF]
@[simp] theorem State.setF_streamCaches (s : State) (f : Fld) (v : Nat) : (s.setF f v).streamCaches = s.streamCaches := by simp [State.setF]
@[simp] theorem State.setF_parts (s : State) (f : Fld) (v : Nat) : (s.setF f v).parts = s.parts := by simp [State.setF]
@[simp] theorem State.setF_mem (s : State) (f : Fld) (v : Nat) : (s.setF f v).mem = s.mem := by simp [State.setF]
@[simp] theorem State.setF_fabric (s : State) (f : Fld) (v : Nat) : (s.setF f v).fabric = s.fabric := by simp [State.setF]
@[simp] theorem State.setF_coll (s : State) (f : Fld) (v : Nat) : (s.setF f v).coll = s.coll := by simp [State.setF]
@[simp] theorem State.setF_host (s : State) (f : Fld) (v : Nat) : (s.setF f v).host = s.host := by simp [State.setF]
@[simp] theorem State.setF_input (s : State) (f : Fld) (v : Nat) : (s.setF f v).input = s.input := by simp [State.setF]
@[simp] theorem State.setF_out (s : State) (f : Fld) (v : Nat) : (s.setF f v).out = s.out := by simp [State.setF]
@[simp] theorem State.setF_free (s : State) (f : Fld) (v : Nat) : (s.setF f v).free = s.free := by simp [State.setF]
@[simp] theorem State.addF_pending (s : State) (f : Fld) (n : Nat) : (s.addF f n).pending = s.pending := by simp [State.addF]
@[simp] theorem State.addF_mode (s : State) (f : Fld) (n : Nat) : (s.addF f n).mode = s.mode := by simp [State.addF]
@[simp] theorem State.addF_clk (s : State) (f : Fld) (n : Nat) : (s.addF f n).clk = s.clk := by simp [State.addF]
@[simp] theorem State.addF_pwr (s : State) (f : Fld) (n : Nat) : (s.addF f n).pwr = s.pwr := by simp [State.addF]
@[simp] theorem State.addF_watch (s : State) (f : Fld) (n : Nat) : (s.addF f n).watch = s.watch := by simp [State.addF]
@[simp] theorem State.addF_grotto (s : State) (f : Fld) (n : Nat) : (s.addF f n).grotto = s.grotto := by simp [State.addF]
@[simp] theorem State.addF_dbg (s : State) (f : Fld) (n : Nat) : (s.addF f n).dbg = s.dbg := by simp [State.addF]
@[simp] theorem State.addF_rills (s : State) (f : Fld) (n : Nat) : (s.addF f n).rills = s.rills := by simp [State.addF]
@[simp] theorem State.addF_ctxs (s : State) (f : Fld) (n : Nat) : (s.addF f n).ctxs = s.ctxs := by simp [State.addF]
@[simp] theorem State.addF_frqs (s : State) (f : Fld) (n : Nat) : (s.addF f n).frqs = s.frqs := by simp [State.addF]
@[simp] theorem State.addF_frqOver (s : State) (f : Fld) (n : Nat) : (s.addF f n).frqOver = s.frqOver := by simp [State.addF]
@[simp] theorem State.addF_streams (s : State) (f : Fld) (n : Nat) : (s.addF f n).streams = s.streams := by simp [State.addF]
@[simp] theorem State.addF_streamCaches (s : State) (f : Fld) (n : Nat) : (s.addF f n).streamCaches = s.streamCaches := by simp [State.addF]
@[simp] theorem State.addF_parts (s : State) (f : Fld) (n : Nat) : (s.addF f n).parts = s.parts := by simp [State.addF]
@[simp] theorem State.addF_mem (s : State) (f : Fld) (n : Nat) : (s.addF f n).mem = s.mem := by simp [State.addF]
@[simp] theorem State.addF_fabric (s : State) (f : Fld) (n : Nat) : (s.addF f n).fabric = s.fabric := by simp [State.addF]
@[simp] theorem State.addF_coll (s : State) (f : Fld) (n : Nat) : (s.addF f n).coll = s.coll := by simp [State.addF]
@[simp] theorem State.addF_host (s : State) (f : Fld) (n : Nat) : (s.addF f n).host = s.host := by simp [State.addF]
@[simp] theorem State.addF_input (s : State) (f : Fld) (n : Nat) : (s.addF f n).input = s.input := by simp [State.addF]
@[simp] theorem State.addF_out (s : State) (f : Fld) (n : Nat) : (s.addF f n).out = s.out := by simp [State.addF]
@[simp] theorem State.addF_free (s : State) (f : Fld) (n : Nat) : (s.addF f n).free = s.free := by simp [State.addF]
@[simp] theorem State.satF_pending (s : State) (f : Fld) (n : Nat) : (s.satF f n).pending = s.pending := by simp [State.satF]
@[simp] theorem State.satF_mode (s : State) (f : Fld) (n : Nat) : (s.satF f n).mode = s.mode := by simp [State.satF]
@[simp] theorem State.satF_clk (s : State) (f : Fld) (n : Nat) : (s.satF f n).clk = s.clk := by simp [State.satF]
@[simp] theorem State.satF_pwr (s : State) (f : Fld) (n : Nat) : (s.satF f n).pwr = s.pwr := by simp [State.satF]
@[simp] theorem State.satF_watch (s : State) (f : Fld) (n : Nat) : (s.satF f n).watch = s.watch := by simp [State.satF]
@[simp] theorem State.satF_grotto (s : State) (f : Fld) (n : Nat) : (s.satF f n).grotto = s.grotto := by simp [State.satF]
@[simp] theorem State.satF_dbg (s : State) (f : Fld) (n : Nat) : (s.satF f n).dbg = s.dbg := by simp [State.satF]
@[simp] theorem State.satF_rills (s : State) (f : Fld) (n : Nat) : (s.satF f n).rills = s.rills := by simp [State.satF]
@[simp] theorem State.satF_ctxs (s : State) (f : Fld) (n : Nat) : (s.satF f n).ctxs = s.ctxs := by simp [State.satF]
@[simp] theorem State.satF_frqs (s : State) (f : Fld) (n : Nat) : (s.satF f n).frqs = s.frqs := by simp [State.satF]
@[simp] theorem State.satF_frqOver (s : State) (f : Fld) (n : Nat) : (s.satF f n).frqOver = s.frqOver := by simp [State.satF]
@[simp] theorem State.satF_streams (s : State) (f : Fld) (n : Nat) : (s.satF f n).streams = s.streams := by simp [State.satF]
@[simp] theorem State.satF_streamCaches (s : State) (f : Fld) (n : Nat) : (s.satF f n).streamCaches = s.streamCaches := by simp [State.satF]
@[simp] theorem State.satF_parts (s : State) (f : Fld) (n : Nat) : (s.satF f n).parts = s.parts := by simp [State.satF]
@[simp] theorem State.satF_mem (s : State) (f : Fld) (n : Nat) : (s.satF f n).mem = s.mem := by simp [State.satF]
@[simp] theorem State.satF_fabric (s : State) (f : Fld) (n : Nat) : (s.satF f n).fabric = s.fabric := by simp [State.satF]
@[simp] theorem State.satF_coll (s : State) (f : Fld) (n : Nat) : (s.satF f n).coll = s.coll := by simp [State.satF]
@[simp] theorem State.satF_host (s : State) (f : Fld) (n : Nat) : (s.satF f n).host = s.host := by simp [State.satF]
@[simp] theorem State.satF_input (s : State) (f : Fld) (n : Nat) : (s.satF f n).input = s.input := by simp [State.satF]
@[simp] theorem State.satF_out (s : State) (f : Fld) (n : Nat) : (s.satF f n).out = s.out := by simp [State.satF]
@[simp] theorem State.satF_free (s : State) (f : Fld) (n : Nat) : (s.satF f n).free = s.free := by simp [State.satF]
@[simp] theorem State.orFlags_pending (s : State) (a : Nat) (x : Flags) : (s.orFlags a x).pending = s.pending := by simp [State.orFlags]
@[simp] theorem State.orFlags_mode (s : State) (a : Nat) (x : Flags) : (s.orFlags a x).mode = s.mode := by simp [State.orFlags]
@[simp] theorem State.orFlags_clk (s : State) (a : Nat) (x : Flags) : (s.orFlags a x).clk = s.clk := by simp [State.orFlags]
@[simp] theorem State.orFlags_pwr (s : State) (a : Nat) (x : Flags) : (s.orFlags a x).pwr = s.pwr := by simp [State.orFlags]
@[simp] theorem State.orFlags_watch (s : State) (a : Nat) (x : Flags) : (s.orFlags a x).watch = s.watch := by simp [State.orFlags]
@[simp] theorem State.orFlags_grotto (s : State) (a : Nat) (x : Flags) : (s.orFlags a x).grotto = s.grotto := by simp [State.orFlags]
@[simp] theorem State.orFlags_dbg (s : State) (a : Nat) (x : Flags) : (s.orFlags a x).dbg = s.dbg := by simp [State.orFlags]
@[simp] theorem State.orFlags_rills (s : State) (a : Nat) (x : Flags) : (s.orFlags a x).rills = s.rills := by simp [State.orFlags]
@[simp] theorem State.orFlags_ctxs (s : State) (a : Nat) (x : Flags) : (s.orFlags a x).ctxs = s.ctxs := by simp [State.orFlags]
@[simp] theorem State.orFlags_frqs (s : State) (a : Nat) (x : Flags) : (s.orFlags a x).frqs = s.frqs := by simp [State.orFlags]
@[simp] theorem State.orFlags_frqOver (s : State) (a : Nat) (x : Flags) : (s.orFlags a x).frqOver = s.frqOver := by simp [State.orFlags]
@[simp] theorem State.orFlags_streams (s : State) (a : Nat) (x : Flags) : (s.orFlags a x).streams = s.streams := by simp [State.orFlags]
@[simp] theorem State.orFlags_streamCaches (s : State) (a : Nat) (x : Flags) : (s.orFlags a x).streamCaches = s.streamCaches := by simp [State.orFlags]
@[simp] theorem State.orFlags_parts (s : State) (a : Nat) (x : Flags) : (s.orFlags a x).parts = s.parts := by simp [State.orFlags]
@[simp] theorem State.orFlags_mem (s : State) (a : Nat) (x : Flags) : (s.orFlags a x).mem = s.mem := by simp [State.orFlags]
@[simp] theorem State.orFlags_fabric (s : State) (a : Nat) (x : Flags) : (s.orFlags a x).fabric = s.fabric := by simp [State.orFlags]
@[simp] theorem State.orFlags_coll (s : State) (a : Nat) (x : Flags) : (s.orFlags a x).coll = s.coll := by simp [State.orFlags]
@[simp] theorem State.orFlags_host (s : State) (a : Nat) (x : Flags) : (s.orFlags a x).host = s.host := by simp [State.orFlags]
@[simp] theorem State.orFlags_input (s : State) (a : Nat) (x : Flags) : (s.orFlags a x).input = s.input := by simp [State.orFlags]
@[simp] theorem State.orFlags_out (s : State) (a : Nat) (x : Flags) : (s.orFlags a x).out = s.out := by simp [State.orFlags]
@[simp] theorem State.orFlags_free (s : State) (a : Nat) (x : Flags) : (s.orFlags a x).free = s.free := by simp [State.orFlags]

/-! ## The updates read back -/

@[simp] theorem Tab.at?_put {α : Type} (t : Tab α) (n m : Nat) (v : α) :
    (Tab.put t n v).at? m = if m = n then some v else t.at? m := by
  induction t with
  | nil => simp [Tab.put, Tab.at?]
  | cons x t ih =>
    obtain ⟨k, w⟩ := x
    simp only [Tab.put]
    split
    · simp [Tab.at?]
    · split
      · subst_vars; by_cases h : m = k <;> simp [Tab.at?, h]
      · by_cases h : m = k
        · subst h; simp [Tab.at?]; omega
        · simp [Tab.at?, h, ih]

@[simp] theorem Tab.at?_del {α : Type} (t : Tab α) (n m : Nat) :
    (Tab.del t n).at? m = if m = n then none else t.at? m := by
  induction t with
  | nil => simp [Tab.del, Tab.at?]
  | cons x t ih =>
    obtain ⟨k, w⟩ := x
    simp only [Tab.del, List.filter] at ih ⊢
    by_cases hk : k = n
    · subst hk; by_cases h : m = k <;> simp_all [Tab.at?]
    · by_cases h : m = k
      · subst h; simp [Tab.at?, hk]
      · simp_all [Tab.at?]

@[simp] theorem Tab.getD_put {α : Type} (t : Tab α) (n m : Nat) (v d : α) :
    (Tab.put t n v).getD m d = if m = n then v else t.getD m d := by
  unfold Tab.getD; rw [Tab.at?_put]; split <;> rfl

@[simp] theorem Tab.at?_nil {α : Type} (n : Nat) : (Tab.at? ([] : Tab α) n) = none := rfl

@[simp] theorem State.rill_setRill (s : State) (r r' : Nat) (v : Rill) :
    (s.setRill r v).rill r' = if r' = r then v else s.rill r' := by simp [State.rill, State.setRill]

@[simp] theorem State.part_setPart (s : State) (p p' : Nat) (v : Part) :
    (s.setPart p v).part p' = if p' = p then v else s.part p' := by simp [State.part, State.setPart]

@[simp] theorem State.ctx?_setCtx (s : State) (k k' : Nat) (c : Context) :
    (s.setCtx k c).ctx? k' = if k' = k then some c else s.ctx? k' := by simp [State.ctx?, State.setCtx]

@[simp] theorem State.mailbox_setMailbox (s : State) (f f' : Nat) (m : Mailbox) :
    (s.setMailbox f m).mailbox f' = if f' = f then m else s.mailbox f' := by simp [State.mailbox, State.setMailbox]

@[simp] theorem State.port_setPort (s : State) (p p' : Nat) (v : Port) :
    (s.setPort p v).port p' = if p' = p then v else s.port p' := by simp [State.port, State.setPort]

@[simp] theorem State.ipl_setIpl (s : State) (i i' : Nat) (v : Ipl) :
    (s.setIpl i v).ipl i' = if i' = i then v else s.ipl i' := by simp [State.ipl, State.setIpl]

@[simp] theorem State.launch?_setLaunch (s : State) (p h h' : Nat) (l : Launch) :
    (s.setLaunch p h l).launch? p h' = if h' = h then some l else s.launch? p h' := by
  simp [State.launch?, State.setLaunch]

@[simp] theorem State.entry_setEntry (s : State) (n m : Nat) (e : BitVec 1024) :
    (s.setEntry n e).entry m = if m = n then e else s.entry m := by
  simp only [State.entry, State.setEntry]
  split
  · next h => simp [Tab.getD, h]; split <;> rfl
  · simp

theorem Four.get_set {α : Type} (f : Four α) (d e : Nat) (v : α) (hd : d < 4) (he : e < 4) :
    (f.set d v).get e = if e = d then v else f.get e := by
  interval_cases d <;> interval_cases e <;> rfl

/-! ## Views of the parts under the other updates -/

@[simp] theorem State.part_setRill (s : State) (r : Nat) (v : Rill) (n : Nat) : (s.setRill r v).part n = s.part n := by
  simp [State.part]
@[simp] theorem State.ctx?_setRill (s : State) (r : Nat) (v : Rill) (n : Nat) : (s.setRill r v).ctx? n = s.ctx? n := by
  simp [State.ctx?]
@[simp] theorem State.mailbox_setRill (s : State) (r : Nat) (v : Rill) (n : Nat) : (s.setRill r v).mailbox n = s.mailbox n := by
  simp [State.mailbox]
@[simp] theorem State.port_setRill (s : State) (r : Nat) (v : Rill) (n : Nat) : (s.setRill r v).port n = s.port n := by
  simp [State.port]
@[simp] theorem State.ipl_setRill (s : State) (r : Nat) (v : Rill) (n : Nat) : (s.setRill r v).ipl n = s.ipl n := by
  simp [State.ipl]
@[simp] theorem State.terrace_setRill (s : State) (r : Nat) (v : Rill) (n : Nat) : (s.setRill r v).terrace n = s.terrace n := by
  simp [State.terrace]
@[simp] theorem State.launch?_setRill (s : State) (r : Nat) (v : Rill) (m n : Nat) : (s.setRill r v).launch? m n = s.launch? m n := by
  simp [State.launch?, State.part]
@[simp] theorem State.entry_setRill (s : State) (r : Nat) (v : Rill) (n : Nat) : (s.setRill r v).entry n = s.entry n := by
  simp [State.entry]
@[simp] theorem State.copies_setRill (s : State) (r : Nat) (v : Rill) (n : Nat) : (s.setRill r v).copies n = s.copies n := by
  simp [State.copies]
@[simp] theorem State.now_setRill (s : State) (r : Nat) (v : Rill) : (s.setRill r v).now = s.now := by
  simp [State.now]
@[simp] theorem State.tbNs_setRill (s : State) (r : Nat) (v : Rill) : (s.setRill r v).tbNs = s.tbNs := by
  simp [State.tbNs]
@[simp] theorem State.reg_setRill (s : State) (r : Nat) (v : Rill) (i : Nat) : (s.setRill r v).reg i = s.reg i := by
  simp [State.reg]
@[simp] theorem State.getF_setRill (s : State) (r : Nat) (v : Rill) (y : Fld) : (s.setRill r v).getF y = s.getF y := by
  simp [State.getF, State.reg]
@[simp] theorem State.rill_setPart (s : State) (p : Nat) (v : Part) (n : Nat) : (s.setPart p v).rill n = s.rill n := by
  simp [State.rill]
@[simp] theorem State.ctx?_setPart (s : State) (p : Nat) (v : Part) (n : Nat) : (s.setPart p v).ctx? n = s.ctx? n := by
  simp [State.ctx?]
@[simp] theorem State.mailbox_setPart (s : State) (p : Nat) (v : Part) (n : Nat) : (s.setPart p v).mailbox n = s.mailbox n := by
  simp [State.mailbox]
@[simp] theorem State.port_setPart (s : State) (p : Nat) (v : Part) (n : Nat) : (s.setPart p v).port n = s.port n := by
  simp [State.port]
@[simp] theorem State.ipl_setPart (s : State) (p : Nat) (v : Part) (n : Nat) : (s.setPart p v).ipl n = s.ipl n := by
  simp [State.ipl]
@[simp] theorem State.terrace_setPart (s : State) (p : Nat) (v : Part) (n : Nat) : (s.setPart p v).terrace n = s.terrace n := by
  simp [State.terrace]
@[simp] theorem State.entry_setPart (s : State) (p : Nat) (v : Part) (n : Nat) : (s.setPart p v).entry n = s.entry n := by
  simp [State.entry]
@[simp] theorem State.copies_setPart (s : State) (p : Nat) (v : Part) (n : Nat) : (s.setPart p v).copies n = s.copies n := by
  simp [State.copies]
@[simp] theorem State.now_setPart (s : State) (p : Nat) (v : Part) : (s.setPart p v).now = s.now := by
  simp [State.now]
@[simp] theorem State.tbNs_setPart (s : State) (p : Nat) (v : Part) : (s.setPart p v).tbNs = s.tbNs := by
  simp [State.tbNs]
@[simp] theorem State.reg_setPart (s : State) (p : Nat) (v : Part) (i : Nat) : (s.setPart p v).reg i = s.reg i := by
  simp [State.reg]
@[simp] theorem State.getF_setPart (s : State) (p : Nat) (v : Part) (y : Fld) : (s.setPart p v).getF y = s.getF y := by
  simp [State.getF, State.reg]
@[simp] theorem State.rill_setCtx (s : State) (k : Nat) (c : Context) (n : Nat) : (s.setCtx k c).rill n = s.rill n := by
  simp [State.rill]
@[simp] theorem State.part_setCtx (s : State) (k : Nat) (c : Context) (n : Nat) : (s.setCtx k c).part n = s.part n := by
  simp [State.part]
@[simp] theorem State.mailbox_setCtx (s : State) (k : Nat) (c : Context) (n : Nat) : (s.setCtx k c).mailbox n = s.mailbox n := by
  simp [State.mailbox]
@[simp] theorem State.port_setCtx (s : State) (k : Nat) (c : Context) (n : Nat) : (s.setCtx k c).port n = s.port n := by
  simp [State.port]
@[simp] theorem State.ipl_setCtx (s : State) (k : Nat) (c : Context) (n : Nat) : (s.setCtx k c).ipl n = s.ipl n := by
  simp [State.ipl]
@[simp] theorem State.terrace_setCtx (s : State) (k : Nat) (c : Context) (n : Nat) : (s.setCtx k c).terrace n = s.terrace n := by
  simp [State.terrace]
@[simp] theorem State.launch?_setCtx (s : State) (k : Nat) (c : Context) (m n : Nat) : (s.setCtx k c).launch? m n = s.launch? m n := by
  simp [State.launch?, State.part]
@[simp] theorem State.entry_setCtx (s : State) (k : Nat) (c : Context) (n : Nat) : (s.setCtx k c).entry n = s.entry n := by
  simp [State.entry]
@[simp] theorem State.copies_setCtx (s : State) (k : Nat) (c : Context) (n : Nat) : (s.setCtx k c).copies n = s.copies n := by
  simp [State.copies]
@[simp] theorem State.now_setCtx (s : State) (k : Nat) (c : Context) : (s.setCtx k c).now = s.now := by
  simp [State.now]
@[simp] theorem State.tbNs_setCtx (s : State) (k : Nat) (c : Context) : (s.setCtx k c).tbNs = s.tbNs := by
  simp [State.tbNs]
@[simp] theorem State.reg_setCtx (s : State) (k : Nat) (c : Context) (i : Nat) : (s.setCtx k c).reg i = s.reg i := by
  simp [State.reg]
@[simp] theorem State.getF_setCtx (s : State) (k : Nat) (c : Context) (y : Fld) : (s.setCtx k c).getF y = s.getF y := by
  simp [State.getF, State.reg]
@[simp] theorem State.rill_setMailbox (s : State) (f : Nat) (w : Mailbox) (n : Nat) : (s.setMailbox f w).rill n = s.rill n := by
  simp [State.rill]
@[simp] theorem State.part_setMailbox (s : State) (f : Nat) (w : Mailbox) (n : Nat) : (s.setMailbox f w).part n = s.part n := by
  simp [State.part]
@[simp] theorem State.ctx?_setMailbox (s : State) (f : Nat) (w : Mailbox) (n : Nat) : (s.setMailbox f w).ctx? n = s.ctx? n := by
  simp [State.ctx?]
@[simp] theorem State.port_setMailbox (s : State) (f : Nat) (w : Mailbox) (n : Nat) : (s.setMailbox f w).port n = s.port n := by
  simp [State.port]
@[simp] theorem State.ipl_setMailbox (s : State) (f : Nat) (w : Mailbox) (n : Nat) : (s.setMailbox f w).ipl n = s.ipl n := by
  simp [State.ipl]
@[simp] theorem State.terrace_setMailbox (s : State) (f : Nat) (w : Mailbox) (n : Nat) : (s.setMailbox f w).terrace n = s.terrace n := by
  simp [State.terrace]
@[simp] theorem State.launch?_setMailbox (s : State) (f : Nat) (w : Mailbox) (m n : Nat) : (s.setMailbox f w).launch? m n = s.launch? m n := by
  simp [State.launch?, State.part]
@[simp] theorem State.entry_setMailbox (s : State) (f : Nat) (w : Mailbox) (n : Nat) : (s.setMailbox f w).entry n = s.entry n := by
  simp [State.entry]
@[simp] theorem State.copies_setMailbox (s : State) (f : Nat) (w : Mailbox) (n : Nat) : (s.setMailbox f w).copies n = s.copies n := by
  simp [State.copies]
@[simp] theorem State.now_setMailbox (s : State) (f : Nat) (w : Mailbox) : (s.setMailbox f w).now = s.now := by
  simp [State.now]
@[simp] theorem State.tbNs_setMailbox (s : State) (f : Nat) (w : Mailbox) : (s.setMailbox f w).tbNs = s.tbNs := by
  simp [State.tbNs]
@[simp] theorem State.reg_setMailbox (s : State) (f : Nat) (w : Mailbox) (i : Nat) : (s.setMailbox f w).reg i = s.reg i := by
  simp [State.reg]
@[simp] theorem State.getF_setMailbox (s : State) (f : Nat) (w : Mailbox) (y : Fld) : (s.setMailbox f w).getF y = s.getF y := by
  simp [State.getF, State.reg]
@[simp] theorem State.rill_setPort (s : State) (p : Nat) (v : Port) (n : Nat) : (s.setPort p v).rill n = s.rill n := by
  simp [State.rill]
@[simp] theorem State.part_setPort (s : State) (p : Nat) (v : Port) (n : Nat) : (s.setPort p v).part n = s.part n := by
  simp [State.part]
@[simp] theorem State.ctx?_setPort (s : State) (p : Nat) (v : Port) (n : Nat) : (s.setPort p v).ctx? n = s.ctx? n := by
  simp [State.ctx?]
@[simp] theorem State.mailbox_setPort (s : State) (p : Nat) (v : Port) (n : Nat) : (s.setPort p v).mailbox n = s.mailbox n := by
  simp [State.mailbox]
@[simp] theorem State.terrace_setPort (s : State) (p : Nat) (v : Port) (n : Nat) : (s.setPort p v).terrace n = s.terrace n := by
  simp [State.terrace]
@[simp] theorem State.launch?_setPort (s : State) (p : Nat) (v : Port) (m n : Nat) : (s.setPort p v).launch? m n = s.launch? m n := by
  simp [State.launch?, State.part]
@[simp] theorem State.entry_setPort (s : State) (p : Nat) (v : Port) (n : Nat) : (s.setPort p v).entry n = s.entry n := by
  simp [State.entry]
@[simp] theorem State.copies_setPort (s : State) (p : Nat) (v : Port) (n : Nat) : (s.setPort p v).copies n = s.copies n := by
  simp [State.copies]
@[simp] theorem State.now_setPort (s : State) (p : Nat) (v : Port) : (s.setPort p v).now = s.now := by
  simp [State.now]
@[simp] theorem State.tbNs_setPort (s : State) (p : Nat) (v : Port) : (s.setPort p v).tbNs = s.tbNs := by
  simp [State.tbNs]
@[simp] theorem State.reg_setPort (s : State) (p : Nat) (v : Port) (i : Nat) : (s.setPort p v).reg i = s.reg i := by
  simp [State.reg]
@[simp] theorem State.getF_setPort (s : State) (p : Nat) (v : Port) (y : Fld) : (s.setPort p v).getF y = s.getF y := by
  simp [State.getF, State.reg]
@[simp] theorem State.rill_setIpl (s : State) (i : Nat) (v : Ipl) (n : Nat) : (s.setIpl i v).rill n = s.rill n := by
  simp [State.rill]
@[simp] theorem State.part_setIpl (s : State) (i : Nat) (v : Ipl) (n : Nat) : (s.setIpl i v).part n = s.part n := by
  simp [State.part]
@[simp] theorem State.ctx?_setIpl (s : State) (i : Nat) (v : Ipl) (n : Nat) : (s.setIpl i v).ctx? n = s.ctx? n := by
  simp [State.ctx?]
@[simp] theorem State.mailbox_setIpl (s : State) (i : Nat) (v : Ipl) (n : Nat) : (s.setIpl i v).mailbox n = s.mailbox n := by
  simp [State.mailbox]
@[simp] theorem State.terrace_setIpl (s : State) (i : Nat) (v : Ipl) (n : Nat) : (s.setIpl i v).terrace n = s.terrace n := by
  simp [State.terrace]
@[simp] theorem State.launch?_setIpl (s : State) (i : Nat) (v : Ipl) (m n : Nat) : (s.setIpl i v).launch? m n = s.launch? m n := by
  simp [State.launch?, State.part]
@[simp] theorem State.entry_setIpl (s : State) (i : Nat) (v : Ipl) (n : Nat) : (s.setIpl i v).entry n = s.entry n := by
  simp [State.entry]
@[simp] theorem State.copies_setIpl (s : State) (i : Nat) (v : Ipl) (n : Nat) : (s.setIpl i v).copies n = s.copies n := by
  simp [State.copies]
@[simp] theorem State.now_setIpl (s : State) (i : Nat) (v : Ipl) : (s.setIpl i v).now = s.now := by
  simp [State.now]
@[simp] theorem State.tbNs_setIpl (s : State) (i : Nat) (v : Ipl) : (s.setIpl i v).tbNs = s.tbNs := by
  simp [State.tbNs]
@[simp] theorem State.reg_setIpl (s : State) (i : Nat) (v : Ipl) (i : Nat) : (s.setIpl i v).reg i = s.reg i := by
  simp [State.reg]
@[simp] theorem State.getF_setIpl (s : State) (i : Nat) (v : Ipl) (y : Fld) : (s.setIpl i v).getF y = s.getF y := by
  simp [State.getF, State.reg]
@[simp] theorem State.rill_setTerrace (s : State) (d : Nat) (t : Terrace) (n : Nat) : (s.setTerrace d t).rill n = s.rill n := by
  simp [State.rill]
@[simp] theorem State.part_setTerrace (s : State) (d : Nat) (t : Terrace) (n : Nat) : (s.setTerrace d t).part n = s.part n := by
  simp [State.part]
@[simp] theorem State.ctx?_setTerrace (s : State) (d : Nat) (t : Terrace) (n : Nat) : (s.setTerrace d t).ctx? n = s.ctx? n := by
  simp [State.ctx?]
@[simp] theorem State.mailbox_setTerrace (s : State) (d : Nat) (t : Terrace) (n : Nat) : (s.setTerrace d t).mailbox n = s.mailbox n := by
  simp [State.mailbox]
@[simp] theorem State.port_setTerrace (s : State) (d : Nat) (t : Terrace) (n : Nat) : (s.setTerrace d t).port n = s.port n := by
  simp [State.port]
@[simp] theorem State.ipl_setTerrace (s : State) (d : Nat) (t : Terrace) (n : Nat) : (s.setTerrace d t).ipl n = s.ipl n := by
  simp [State.ipl]
@[simp] theorem State.launch?_setTerrace (s : State) (d : Nat) (t : Terrace) (m n : Nat) : (s.setTerrace d t).launch? m n = s.launch? m n := by
  simp [State.launch?, State.part]
@[simp] theorem State.entry_setTerrace (s : State) (d : Nat) (t : Terrace) (n : Nat) : (s.setTerrace d t).entry n = s.entry n := by
  simp [State.entry]
@[simp] theorem State.copies_setTerrace (s : State) (d : Nat) (t : Terrace) (n : Nat) : (s.setTerrace d t).copies n = s.copies n := by
  simp [State.copies]
@[simp] theorem State.reg_setTerrace (s : State) (d : Nat) (t : Terrace) (i : Nat) : (s.setTerrace d t).reg i = s.reg i := by
  simp [State.reg]
@[simp] theorem State.getF_setTerrace (s : State) (d : Nat) (t : Terrace) (y : Fld) : (s.setTerrace d t).getF y = s.getF y := by
  simp [State.getF, State.reg]
@[simp] theorem State.rill_setLaunch (s : State) (p h : Nat) (l : Launch) (n : Nat) : (s.setLaunch p h l).rill n = s.rill n := by
  simp [State.rill]
@[simp] theorem State.ctx?_setLaunch (s : State) (p h : Nat) (l : Launch) (n : Nat) : (s.setLaunch p h l).ctx? n = s.ctx? n := by
  simp [State.ctx?]
@[simp] theorem State.mailbox_setLaunch (s : State) (p h : Nat) (l : Launch) (n : Nat) : (s.setLaunch p h l).mailbox n = s.mailbox n := by
  simp [State.mailbox]
@[simp] theorem State.port_setLaunch (s : State) (p h : Nat) (l : Launch) (n : Nat) : (s.setLaunch p h l).port n = s.port n := by
  simp [State.port]
@[simp] theorem State.ipl_setLaunch (s : State) (p h : Nat) (l : Launch) (n : Nat) : (s.setLaunch p h l).ipl n = s.ipl n := by
  simp [State.ipl]
@[simp] theorem State.terrace_setLaunch (s : State) (p h : Nat) (l : Launch) (n : Nat) : (s.setLaunch p h l).terrace n = s.terrace n := by
  simp [State.terrace]
@[simp] theorem State.entry_setLaunch (s : State) (p h : Nat) (l : Launch) (n : Nat) : (s.setLaunch p h l).entry n = s.entry n := by
  simp [State.entry]
@[simp] theorem State.copies_setLaunch (s : State) (p h : Nat) (l : Launch) (n : Nat) : (s.setLaunch p h l).copies n = s.copies n := by
  simp [State.copies]
@[simp] theorem State.now_setLaunch (s : State) (p h : Nat) (l : Launch) : (s.setLaunch p h l).now = s.now := by
  simp [State.now]
@[simp] theorem State.tbNs_setLaunch (s : State) (p h : Nat) (l : Launch) : (s.setLaunch p h l).tbNs = s.tbNs := by
  simp [State.tbNs]
@[simp] theorem State.reg_setLaunch (s : State) (p h : Nat) (l : Launch) (i : Nat) : (s.setLaunch p h l).reg i = s.reg i := by
  simp [State.reg]
@[simp] theorem State.getF_setLaunch (s : State) (p h : Nat) (l : Launch) (y : Fld) : (s.setLaunch p h l).getF y = s.getF y := by
  simp [State.getF, State.reg]
@[simp] theorem State.rill_emit (s : State) (o : Out) (n : Nat) : (s.emit o).rill n = s.rill n := by
  simp [State.rill]
@[simp] theorem State.part_emit (s : State) (o : Out) (n : Nat) : (s.emit o).part n = s.part n := by
  simp [State.part]
@[simp] theorem State.ctx?_emit (s : State) (o : Out) (n : Nat) : (s.emit o).ctx? n = s.ctx? n := by
  simp [State.ctx?]
@[simp] theorem State.mailbox_emit (s : State) (o : Out) (n : Nat) : (s.emit o).mailbox n = s.mailbox n := by
  simp [State.mailbox]
@[simp] theorem State.port_emit (s : State) (o : Out) (n : Nat) : (s.emit o).port n = s.port n := by
  simp [State.port]
@[simp] theorem State.ipl_emit (s : State) (o : Out) (n : Nat) : (s.emit o).ipl n = s.ipl n := by
  simp [State.ipl]
@[simp] theorem State.terrace_emit (s : State) (o : Out) (n : Nat) : (s.emit o).terrace n = s.terrace n := by
  simp [State.terrace]
@[simp] theorem State.launch?_emit (s : State) (o : Out) (m n : Nat) : (s.emit o).launch? m n = s.launch? m n := by
  simp [State.launch?, State.part]
@[simp] theorem State.entry_emit (s : State) (o : Out) (n : Nat) : (s.emit o).entry n = s.entry n := by
  simp [State.entry]
@[simp] theorem State.copies_emit (s : State) (o : Out) (n : Nat) : (s.emit o).copies n = s.copies n := by
  simp [State.copies]
@[simp] theorem State.now_emit (s : State) (o : Out) : (s.emit o).now = s.now := by
  simp [State.now]
@[simp] theorem State.tbNs_emit (s : State) (o : Out) : (s.emit o).tbNs = s.tbNs := by
  simp [State.tbNs]
@[simp] theorem State.reg_emit (s : State) (o : Out) (i : Nat) : (s.emit o).reg i = s.reg i := by
  simp [State.reg]
@[simp] theorem State.getF_emit (s : State) (o : Out) (y : Fld) : (s.emit o).getF y = s.getF y := by
  simp [State.getF, State.reg]
@[simp] theorem State.rill_fresh (s : State) (n : Nat) : (s.fresh).rill n = s.rill n := by
  simp [State.rill]
@[simp] theorem State.part_fresh (s : State) (n : Nat) : (s.fresh).part n = s.part n := by
  simp [State.part]
@[simp] theorem State.ctx?_fresh (s : State) (n : Nat) : (s.fresh).ctx? n = s.ctx? n := by
  simp [State.ctx?]
@[simp] theorem State.mailbox_fresh (s : State) (n : Nat) : (s.fresh).mailbox n = s.mailbox n := by
  simp [State.mailbox]
@[simp] theorem State.port_fresh (s : State) (n : Nat) : (s.fresh).port n = s.port n := by
  simp [State.port]
@[simp] theorem State.ipl_fresh (s : State) (n : Nat) : (s.fresh).ipl n = s.ipl n := by
  simp [State.ipl]
@[simp] theorem State.terrace_fresh (s : State) (n : Nat) : (s.fresh).terrace n = s.terrace n := by
  simp [State.terrace]
@[simp] theorem State.launch?_fresh (s : State) (m n : Nat) : (s.fresh).launch? m n = s.launch? m n := by
  simp [State.launch?, State.part]
@[simp] theorem State.entry_fresh (s : State) (n : Nat) : (s.fresh).entry n = s.entry n := by
  simp [State.entry]
@[simp] theorem State.copies_fresh (s : State) (n : Nat) : (s.fresh).copies n = s.copies n := by
  simp [State.copies]
@[simp] theorem State.now_fresh (s : State)  : (s.fresh).now = s.now := by
  simp [State.now]
@[simp] theorem State.tbNs_fresh (s : State)  : (s.fresh).tbNs = s.tbNs := by
  simp [State.tbNs]
@[simp] theorem State.reg_fresh (s : State) (i : Nat) : (s.fresh).reg i = s.reg i := by
  simp [State.reg]
@[simp] theorem State.getF_fresh (s : State) (y : Fld) : (s.fresh).getF y = s.getF y := by
  simp [State.getF, State.reg]
@[simp] theorem State.rill_credit (s : State) (p e b : Nat) (n : Nat) : (s.credit p e b).rill n = s.rill n := by
  simp [State.rill]
@[simp] theorem State.part_credit (s : State) (p e b : Nat) (n : Nat) : (s.credit p e b).part n = s.part n := by
  simp [State.part]
@[simp] theorem State.ctx?_credit (s : State) (p e b : Nat) (n : Nat) : (s.credit p e b).ctx? n = s.ctx? n := by
  simp [State.ctx?]
@[simp] theorem State.mailbox_credit (s : State) (p e b : Nat) (n : Nat) : (s.credit p e b).mailbox n = s.mailbox n := by
  simp [State.mailbox]
@[simp] theorem State.port_credit (s : State) (p e b : Nat) (n : Nat) : (s.credit p e b).port n = s.port n := by
  simp [State.port]
@[simp] theorem State.ipl_credit (s : State) (p e b : Nat) (n : Nat) : (s.credit p e b).ipl n = s.ipl n := by
  simp [State.ipl]
@[simp] theorem State.terrace_credit (s : State) (p e b : Nat) (n : Nat) : (s.credit p e b).terrace n = s.terrace n := by
  simp [State.terrace]
@[simp] theorem State.launch?_credit (s : State) (p e b : Nat) (m n : Nat) : (s.credit p e b).launch? m n = s.launch? m n := by
  simp [State.launch?, State.part]
@[simp] theorem State.entry_credit (s : State) (p e b : Nat) (n : Nat) : (s.credit p e b).entry n = s.entry n := by
  simp [State.entry]
@[simp] theorem State.copies_credit (s : State) (p e b : Nat) (n : Nat) : (s.credit p e b).copies n = s.copies n := by
  simp [State.copies]
@[simp] theorem State.now_credit (s : State) (p e b : Nat) : (s.credit p e b).now = s.now := by
  simp [State.now]
@[simp] theorem State.tbNs_credit (s : State) (p e b : Nat) : (s.credit p e b).tbNs = s.tbNs := by
  simp [State.tbNs]
@[simp] theorem State.reg_credit (s : State) (p e b : Nat) (i : Nat) : (s.credit p e b).reg i = s.reg i := by
  simp [State.reg]
@[simp] theorem State.getF_credit (s : State) (p e b : Nat) (y : Fld) : (s.credit p e b).getF y = s.getF y := by
  simp [State.getF, State.reg]
@[simp] theorem State.rill_clearRecord (s : State) (k : Nat) (n : Nat) : (s.clearRecord k).rill n = s.rill n := by
  simp [State.rill]
@[simp] theorem State.part_clearRecord (s : State) (k : Nat) (n : Nat) : (s.clearRecord k).part n = s.part n := by
  simp [State.part]
@[simp] theorem State.ctx?_clearRecord (s : State) (k : Nat) (n : Nat) : (s.clearRecord k).ctx? n = s.ctx? n := by
  simp [State.ctx?]
@[simp] theorem State.mailbox_clearRecord (s : State) (k : Nat) (n : Nat) : (s.clearRecord k).mailbox n = s.mailbox n := by
  simp [State.mailbox]
@[simp] theorem State.port_clearRecord (s : State) (k : Nat) (n : Nat) : (s.clearRecord k).port n = s.port n := by
  simp [State.port]
@[simp] theorem State.ipl_clearRecord (s : State) (k : Nat) (n : Nat) : (s.clearRecord k).ipl n = s.ipl n := by
  simp [State.ipl]
@[simp] theorem State.terrace_clearRecord (s : State) (k : Nat) (n : Nat) : (s.clearRecord k).terrace n = s.terrace n := by
  simp [State.terrace]
@[simp] theorem State.launch?_clearRecord (s : State) (k : Nat) (m n : Nat) : (s.clearRecord k).launch? m n = s.launch? m n := by
  simp [State.launch?, State.part]
@[simp] theorem State.entry_clearRecord (s : State) (k : Nat) (n : Nat) : (s.clearRecord k).entry n = s.entry n := by
  simp [State.entry]
@[simp] theorem State.copies_clearRecord (s : State) (k : Nat) (n : Nat) : (s.clearRecord k).copies n = s.copies n := by
  simp [State.copies]
@[simp] theorem State.now_clearRecord (s : State) (k : Nat) : (s.clearRecord k).now = s.now := by
  simp [State.now]
@[simp] theorem State.tbNs_clearRecord (s : State) (k : Nat) : (s.clearRecord k).tbNs = s.tbNs := by
  simp [State.tbNs]
@[simp] theorem State.reg_clearRecord (s : State) (k : Nat) (i : Nat) : (s.clearRecord k).reg i = s.reg i := by
  simp [State.reg]
@[simp] theorem State.getF_clearRecord (s : State) (k : Nat) (y : Fld) : (s.clearRecord k).getF y = s.getF y := by
  simp [State.getF, State.reg]
@[simp] theorem State.rill_setEntry (s : State) (b : Nat) (e : BitVec 1024) (n : Nat) : (s.setEntry b e).rill n = s.rill n := by
  simp [State.rill]
@[simp] theorem State.part_setEntry (s : State) (b : Nat) (e : BitVec 1024) (n : Nat) : (s.setEntry b e).part n = s.part n := by
  simp [State.part]
@[simp] theorem State.ctx?_setEntry (s : State) (b : Nat) (e : BitVec 1024) (n : Nat) : (s.setEntry b e).ctx? n = s.ctx? n := by
  simp [State.ctx?]
@[simp] theorem State.mailbox_setEntry (s : State) (b : Nat) (e : BitVec 1024) (n : Nat) : (s.setEntry b e).mailbox n = s.mailbox n := by
  simp [State.mailbox]
@[simp] theorem State.port_setEntry (s : State) (b : Nat) (e : BitVec 1024) (n : Nat) : (s.setEntry b e).port n = s.port n := by
  simp [State.port]
@[simp] theorem State.ipl_setEntry (s : State) (b : Nat) (e : BitVec 1024) (n : Nat) : (s.setEntry b e).ipl n = s.ipl n := by
  simp [State.ipl]
@[simp] theorem State.terrace_setEntry (s : State) (b : Nat) (e : BitVec 1024) (n : Nat) : (s.setEntry b e).terrace n = s.terrace n := by
  simp [State.terrace]
@[simp] theorem State.launch?_setEntry (s : State) (b : Nat) (e : BitVec 1024) (m n : Nat) : (s.setEntry b e).launch? m n = s.launch? m n := by
  simp [State.launch?, State.part]
@[simp] theorem State.copies_setEntry (s : State) (b : Nat) (e : BitVec 1024) (n : Nat) : (s.setEntry b e).copies n = s.copies n := by
  simp [State.copies]
@[simp] theorem State.now_setEntry (s : State) (b : Nat) (e : BitVec 1024) : (s.setEntry b e).now = s.now := by
  simp [State.now]
@[simp] theorem State.tbNs_setEntry (s : State) (b : Nat) (e : BitVec 1024) : (s.setEntry b e).tbNs = s.tbNs := by
  simp [State.tbNs]
@[simp] theorem State.reg_setEntry (s : State) (b : Nat) (e : BitVec 1024) (i : Nat) : (s.setEntry b e).reg i = s.reg i := by
  simp [State.reg]
@[simp] theorem State.getF_setEntry (s : State) (b : Nat) (e : BitVec 1024) (y : Fld) : (s.setEntry b e).getF y = s.getF y := by
  simp [State.getF, State.reg]
@[simp] theorem State.rill_setCopies (s : State) (c : Nat) (t : Tab StreamCopy) (n : Nat) : (s.setCopies c t).rill n = s.rill n := by
  simp [State.rill]
@[simp] theorem State.part_setCopies (s : State) (c : Nat) (t : Tab StreamCopy) (n : Nat) : (s.setCopies c t).part n = s.part n := by
  simp [State.part]
@[simp] theorem State.ctx?_setCopies (s : State) (c : Nat) (t : Tab StreamCopy) (n : Nat) : (s.setCopies c t).ctx? n = s.ctx? n := by
  simp [State.ctx?]
@[simp] theorem State.mailbox_setCopies (s : State) (c : Nat) (t : Tab StreamCopy) (n : Nat) : (s.setCopies c t).mailbox n = s.mailbox n := by
  simp [State.mailbox]
@[simp] theorem State.port_setCopies (s : State) (c : Nat) (t : Tab StreamCopy) (n : Nat) : (s.setCopies c t).port n = s.port n := by
  simp [State.port]
@[simp] theorem State.ipl_setCopies (s : State) (c : Nat) (t : Tab StreamCopy) (n : Nat) : (s.setCopies c t).ipl n = s.ipl n := by
  simp [State.ipl]
@[simp] theorem State.terrace_setCopies (s : State) (c : Nat) (t : Tab StreamCopy) (n : Nat) : (s.setCopies c t).terrace n = s.terrace n := by
  simp [State.terrace]
@[simp] theorem State.launch?_setCopies (s : State) (c : Nat) (t : Tab StreamCopy) (m n : Nat) : (s.setCopies c t).launch? m n = s.launch? m n := by
  simp [State.launch?, State.part]
@[simp] theorem State.entry_setCopies (s : State) (c : Nat) (t : Tab StreamCopy) (n : Nat) : (s.setCopies c t).entry n = s.entry n := by
  simp [State.entry]
@[simp] theorem State.now_setCopies (s : State) (c : Nat) (t : Tab StreamCopy) : (s.setCopies c t).now = s.now := by
  simp [State.now]
@[simp] theorem State.tbNs_setCopies (s : State) (c : Nat) (t : Tab StreamCopy) : (s.setCopies c t).tbNs = s.tbNs := by
  simp [State.tbNs]
@[simp] theorem State.reg_setCopies (s : State) (c : Nat) (t : Tab StreamCopy) (i : Nat) : (s.setCopies c t).reg i = s.reg i := by
  simp [State.reg]
@[simp] theorem State.getF_setCopies (s : State) (c : Nat) (t : Tab StreamCopy) (y : Fld) : (s.setCopies c t).getF y = s.getF y := by
  simp [State.getF, State.reg]
@[simp] theorem State.rill_dropCmd (s : State) (b : Nat) (n : Nat) : (s.dropCmd b).rill n = s.rill n := by
  simp [State.rill]
@[simp] theorem State.part_dropCmd (s : State) (b : Nat) (n : Nat) : (s.dropCmd b).part n = s.part n := by
  simp [State.part]
@[simp] theorem State.ctx?_dropCmd (s : State) (b : Nat) (n : Nat) : (s.dropCmd b).ctx? n = s.ctx? n := by
  simp [State.ctx?]
@[simp] theorem State.port_dropCmd (s : State) (b : Nat) (n : Nat) : (s.dropCmd b).port n = s.port n := by
  simp [State.port]
@[simp] theorem State.ipl_dropCmd (s : State) (b : Nat) (n : Nat) : (s.dropCmd b).ipl n = s.ipl n := by
  simp [State.ipl]
@[simp] theorem State.terrace_dropCmd (s : State) (b : Nat) (n : Nat) : (s.dropCmd b).terrace n = s.terrace n := by
  simp [State.terrace]
@[simp] theorem State.launch?_dropCmd (s : State) (b : Nat) (m n : Nat) : (s.dropCmd b).launch? m n = s.launch? m n := by
  simp [State.launch?, State.part]
@[simp] theorem State.entry_dropCmd (s : State) (b : Nat) (n : Nat) : (s.dropCmd b).entry n = s.entry n := by
  simp [State.entry]
@[simp] theorem State.copies_dropCmd (s : State) (b : Nat) (n : Nat) : (s.dropCmd b).copies n = s.copies n := by
  simp [State.copies]
@[simp] theorem State.now_dropCmd (s : State) (b : Nat) : (s.dropCmd b).now = s.now := by
  simp [State.now]
@[simp] theorem State.tbNs_dropCmd (s : State) (b : Nat) : (s.dropCmd b).tbNs = s.tbNs := by
  simp [State.tbNs]
@[simp] theorem State.reg_dropCmd (s : State) (b : Nat) (i : Nat) : (s.dropCmd b).reg i = s.reg i := by
  simp [State.reg]
@[simp] theorem State.getF_dropCmd (s : State) (b : Nat) (y : Fld) : (s.dropCmd b).getF y = s.getF y := by
  simp [State.getF, State.reg]
@[simp] theorem State.rill_updCmd (s : State) (b : Nat) (f : Cmd → Cmd) (n : Nat) : (s.updCmd b f).rill n = s.rill n := by
  simp [State.rill]
@[simp] theorem State.part_updCmd (s : State) (b : Nat) (f : Cmd → Cmd) (n : Nat) : (s.updCmd b f).part n = s.part n := by
  simp [State.part]
@[simp] theorem State.ctx?_updCmd (s : State) (b : Nat) (f : Cmd → Cmd) (n : Nat) : (s.updCmd b f).ctx? n = s.ctx? n := by
  simp [State.ctx?]
@[simp] theorem State.port_updCmd (s : State) (b : Nat) (f : Cmd → Cmd) (n : Nat) : (s.updCmd b f).port n = s.port n := by
  simp [State.port]
@[simp] theorem State.ipl_updCmd (s : State) (b : Nat) (f : Cmd → Cmd) (n : Nat) : (s.updCmd b f).ipl n = s.ipl n := by
  simp [State.ipl]
@[simp] theorem State.terrace_updCmd (s : State) (b : Nat) (f : Cmd → Cmd) (n : Nat) : (s.updCmd b f).terrace n = s.terrace n := by
  simp [State.terrace]
@[simp] theorem State.launch?_updCmd (s : State) (b : Nat) (f : Cmd → Cmd) (m n : Nat) : (s.updCmd b f).launch? m n = s.launch? m n := by
  simp [State.launch?, State.part]
@[simp] theorem State.entry_updCmd (s : State) (b : Nat) (f : Cmd → Cmd) (n : Nat) : (s.updCmd b f).entry n = s.entry n := by
  simp [State.entry]
@[simp] theorem State.copies_updCmd (s : State) (b : Nat) (f : Cmd → Cmd) (n : Nat) : (s.updCmd b f).copies n = s.copies n := by
  simp [State.copies]
@[simp] theorem State.now_updCmd (s : State) (b : Nat) (f : Cmd → Cmd) : (s.updCmd b f).now = s.now := by
  simp [State.now]
@[simp] theorem State.tbNs_updCmd (s : State) (b : Nat) (f : Cmd → Cmd) : (s.updCmd b f).tbNs = s.tbNs := by
  simp [State.tbNs]
@[simp] theorem State.reg_updCmd (s : State) (b : Nat) (f : Cmd → Cmd) (i : Nat) : (s.updCmd b f).reg i = s.reg i := by
  simp [State.reg]
@[simp] theorem State.getF_updCmd (s : State) (b : Nat) (f : Cmd → Cmd) (y : Fld) : (s.updCmd b f).getF y = s.getF y := by
  simp [State.getF, State.reg]
@[simp] theorem State.rill_hostWrite (s : State) (a : Nat) (bs : List Byte) (n : Nat) : (s.hostWrite a bs).rill n = s.rill n := by
  simp [State.rill]
@[simp] theorem State.part_hostWrite (s : State) (a : Nat) (bs : List Byte) (n : Nat) : (s.hostWrite a bs).part n = s.part n := by
  simp [State.part]
@[simp] theorem State.ctx?_hostWrite (s : State) (a : Nat) (bs : List Byte) (n : Nat) : (s.hostWrite a bs).ctx? n = s.ctx? n := by
  simp [State.ctx?]
@[simp] theorem State.mailbox_hostWrite (s : State) (a : Nat) (bs : List Byte) (n : Nat) : (s.hostWrite a bs).mailbox n = s.mailbox n := by
  simp [State.mailbox]
@[simp] theorem State.port_hostWrite (s : State) (a : Nat) (bs : List Byte) (n : Nat) : (s.hostWrite a bs).port n = s.port n := by
  simp [State.port]
@[simp] theorem State.ipl_hostWrite (s : State) (a : Nat) (bs : List Byte) (n : Nat) : (s.hostWrite a bs).ipl n = s.ipl n := by
  simp [State.ipl]
@[simp] theorem State.terrace_hostWrite (s : State) (a : Nat) (bs : List Byte) (n : Nat) : (s.hostWrite a bs).terrace n = s.terrace n := by
  simp [State.terrace]
@[simp] theorem State.launch?_hostWrite (s : State) (a : Nat) (bs : List Byte) (m n : Nat) : (s.hostWrite a bs).launch? m n = s.launch? m n := by
  simp [State.launch?, State.part]
@[simp] theorem State.entry_hostWrite (s : State) (a : Nat) (bs : List Byte) (n : Nat) : (s.hostWrite a bs).entry n = s.entry n := by
  simp [State.entry]
@[simp] theorem State.copies_hostWrite (s : State) (a : Nat) (bs : List Byte) (n : Nat) : (s.hostWrite a bs).copies n = s.copies n := by
  simp [State.copies]
@[simp] theorem State.now_hostWrite (s : State) (a : Nat) (bs : List Byte) : (s.hostWrite a bs).now = s.now := by
  simp [State.now]
@[simp] theorem State.tbNs_hostWrite (s : State) (a : Nat) (bs : List Byte) : (s.hostWrite a bs).tbNs = s.tbNs := by
  simp [State.tbNs]
@[simp] theorem State.reg_hostWrite (s : State) (a : Nat) (bs : List Byte) (i : Nat) : (s.hostWrite a bs).reg i = s.reg i := by
  simp [State.reg]
@[simp] theorem State.getF_hostWrite (s : State) (a : Nat) (bs : List Byte) (y : Fld) : (s.hostWrite a bs).getF y = s.getF y := by
  simp [State.getF, State.reg]
@[simp] theorem State.rill_setReg (s : State) (a v : Nat) (n : Nat) : (s.setReg a v).rill n = s.rill n := by
  simp [State.rill]
@[simp] theorem State.part_setReg (s : State) (a v : Nat) (n : Nat) : (s.setReg a v).part n = s.part n := by
  simp [State.part]
@[simp] theorem State.ctx?_setReg (s : State) (a v : Nat) (n : Nat) : (s.setReg a v).ctx? n = s.ctx? n := by
  simp [State.ctx?]
@[simp] theorem State.mailbox_setReg (s : State) (a v : Nat) (n : Nat) : (s.setReg a v).mailbox n = s.mailbox n := by
  simp [State.mailbox]
@[simp] theorem State.port_setReg (s : State) (a v : Nat) (n : Nat) : (s.setReg a v).port n = s.port n := by
  simp [State.port]
@[simp] theorem State.ipl_setReg (s : State) (a v : Nat) (n : Nat) : (s.setReg a v).ipl n = s.ipl n := by
  simp [State.ipl]
@[simp] theorem State.terrace_setReg (s : State) (a v : Nat) (n : Nat) : (s.setReg a v).terrace n = s.terrace n := by
  simp [State.terrace]
@[simp] theorem State.launch?_setReg (s : State) (a v : Nat) (m n : Nat) : (s.setReg a v).launch? m n = s.launch? m n := by
  simp [State.launch?, State.part]
@[simp] theorem State.entry_setReg (s : State) (a v : Nat) (n : Nat) : (s.setReg a v).entry n = s.entry n := by
  simp [State.entry]
@[simp] theorem State.copies_setReg (s : State) (a v : Nat) (n : Nat) : (s.setReg a v).copies n = s.copies n := by
  simp [State.copies]
@[simp] theorem State.now_setReg (s : State) (a v : Nat) : (s.setReg a v).now = s.now := by
  simp [State.now]
@[simp] theorem State.tbNs_setReg (s : State) (a v : Nat) : (s.setReg a v).tbNs = s.tbNs := by
  simp [State.tbNs]
@[simp] theorem State.rill_setF (s : State) (g : Fld) (v : Nat) (n : Nat) : (s.setF g v).rill n = s.rill n := by
  simp [State.rill]
@[simp] theorem State.part_setF (s : State) (g : Fld) (v : Nat) (n : Nat) : (s.setF g v).part n = s.part n := by
  simp [State.part]
@[simp] theorem State.ctx?_setF (s : State) (g : Fld) (v : Nat) (n : Nat) : (s.setF g v).ctx? n = s.ctx? n := by
  simp [State.ctx?]
@[simp] theorem State.mailbox_setF (s : State) (g : Fld) (v : Nat) (n : Nat) : (s.setF g v).mailbox n = s.mailbox n := by
  simp [State.mailbox]
@[simp] theorem State.port_setF (s : State) (g : Fld) (v : Nat) (n : Nat) : (s.setF g v).port n = s.port n := by
  simp [State.port]
@[simp] theorem State.ipl_setF (s : State) (g : Fld) (v : Nat) (n : Nat) : (s.setF g v).ipl n = s.ipl n := by
  simp [State.ipl]
@[simp] theorem State.terrace_setF (s : State) (g : Fld) (v : Nat) (n : Nat) : (s.setF g v).terrace n = s.terrace n := by
  simp [State.terrace]
@[simp] theorem State.launch?_setF (s : State) (g : Fld) (v : Nat) (m n : Nat) : (s.setF g v).launch? m n = s.launch? m n := by
  simp [State.launch?, State.part]
@[simp] theorem State.entry_setF (s : State) (g : Fld) (v : Nat) (n : Nat) : (s.setF g v).entry n = s.entry n := by
  simp [State.entry]
@[simp] theorem State.copies_setF (s : State) (g : Fld) (v : Nat) (n : Nat) : (s.setF g v).copies n = s.copies n := by
  simp [State.copies]
@[simp] theorem State.now_setF (s : State) (g : Fld) (v : Nat) : (s.setF g v).now = s.now := by
  simp [State.now]
@[simp] theorem State.tbNs_setF (s : State) (g : Fld) (v : Nat) : (s.setF g v).tbNs = s.tbNs := by
  simp [State.tbNs]
@[simp] theorem State.rill_addF (s : State) (g : Fld) (v : Nat) (n : Nat) : (s.addF g v).rill n = s.rill n := by
  simp [State.rill]
@[simp] theorem State.part_addF (s : State) (g : Fld) (v : Nat) (n : Nat) : (s.addF g v).part n = s.part n := by
  simp [State.part]
@[simp] theorem State.ctx?_addF (s : State) (g : Fld) (v : Nat) (n : Nat) : (s.addF g v).ctx? n = s.ctx? n := by
  simp [State.ctx?]
@[simp] theorem State.mailbox_addF (s : State) (g : Fld) (v : Nat) (n : Nat) : (s.addF g v).mailbox n = s.mailbox n := by
  simp [State.mailbox]
@[simp] theorem State.port_addF (s : State) (g : Fld) (v : Nat) (n : Nat) : (s.addF g v).port n = s.port n := by
  simp [State.port]
@[simp] theorem State.ipl_addF (s : State) (g : Fld) (v : Nat) (n : Nat) : (s.addF g v).ipl n = s.ipl n := by
  simp [State.ipl]
@[simp] theorem State.terrace_addF (s : State) (g : Fld) (v : Nat) (n : Nat) : (s.addF g v).terrace n = s.terrace n := by
  simp [State.terrace]
@[simp] theorem State.launch?_addF (s : State) (g : Fld) (v : Nat) (m n : Nat) : (s.addF g v).launch? m n = s.launch? m n := by
  simp [State.launch?, State.part]
@[simp] theorem State.entry_addF (s : State) (g : Fld) (v : Nat) (n : Nat) : (s.addF g v).entry n = s.entry n := by
  simp [State.entry]
@[simp] theorem State.copies_addF (s : State) (g : Fld) (v : Nat) (n : Nat) : (s.addF g v).copies n = s.copies n := by
  simp [State.copies]
@[simp] theorem State.now_addF (s : State) (g : Fld) (v : Nat) : (s.addF g v).now = s.now := by
  simp [State.now]
@[simp] theorem State.tbNs_addF (s : State) (g : Fld) (v : Nat) : (s.addF g v).tbNs = s.tbNs := by
  simp [State.tbNs]
@[simp] theorem State.rill_satF (s : State) (g : Fld) (v : Nat) (n : Nat) : (s.satF g v).rill n = s.rill n := by
  simp [State.rill]
@[simp] theorem State.part_satF (s : State) (g : Fld) (v : Nat) (n : Nat) : (s.satF g v).part n = s.part n := by
  simp [State.part]
@[simp] theorem State.ctx?_satF (s : State) (g : Fld) (v : Nat) (n : Nat) : (s.satF g v).ctx? n = s.ctx? n := by
  simp [State.ctx?]
@[simp] theorem State.mailbox_satF (s : State) (g : Fld) (v : Nat) (n : Nat) : (s.satF g v).mailbox n = s.mailbox n := by
  simp [State.mailbox]
@[simp] theorem State.port_satF (s : State) (g : Fld) (v : Nat) (n : Nat) : (s.satF g v).port n = s.port n := by
  simp [State.port]
@[simp] theorem State.ipl_satF (s : State) (g : Fld) (v : Nat) (n : Nat) : (s.satF g v).ipl n = s.ipl n := by
  simp [State.ipl]
@[simp] theorem State.terrace_satF (s : State) (g : Fld) (v : Nat) (n : Nat) : (s.satF g v).terrace n = s.terrace n := by
  simp [State.terrace]
@[simp] theorem State.launch?_satF (s : State) (g : Fld) (v : Nat) (m n : Nat) : (s.satF g v).launch? m n = s.launch? m n := by
  simp [State.launch?, State.part]
@[simp] theorem State.entry_satF (s : State) (g : Fld) (v : Nat) (n : Nat) : (s.satF g v).entry n = s.entry n := by
  simp [State.entry]
@[simp] theorem State.copies_satF (s : State) (g : Fld) (v : Nat) (n : Nat) : (s.satF g v).copies n = s.copies n := by
  simp [State.copies]
@[simp] theorem State.now_satF (s : State) (g : Fld) (v : Nat) : (s.satF g v).now = s.now := by
  simp [State.now]
@[simp] theorem State.tbNs_satF (s : State) (g : Fld) (v : Nat) : (s.satF g v).tbNs = s.tbNs := by
  simp [State.tbNs]
@[simp] theorem State.rill_orFlags (s : State) (a : Nat) (x : Flags) (n : Nat) : (s.orFlags a x).rill n = s.rill n := by
  simp [State.rill]
@[simp] theorem State.part_orFlags (s : State) (a : Nat) (x : Flags) (n : Nat) : (s.orFlags a x).part n = s.part n := by
  simp [State.part]
@[simp] theorem State.ctx?_orFlags (s : State) (a : Nat) (x : Flags) (n : Nat) : (s.orFlags a x).ctx? n = s.ctx? n := by
  simp [State.ctx?]
@[simp] theorem State.mailbox_orFlags (s : State) (a : Nat) (x : Flags) (n : Nat) : (s.orFlags a x).mailbox n = s.mailbox n := by
  simp [State.mailbox]
@[simp] theorem State.port_orFlags (s : State) (a : Nat) (x : Flags) (n : Nat) : (s.orFlags a x).port n = s.port n := by
  simp [State.port]
@[simp] theorem State.ipl_orFlags (s : State) (a : Nat) (x : Flags) (n : Nat) : (s.orFlags a x).ipl n = s.ipl n := by
  simp [State.ipl]
@[simp] theorem State.terrace_orFlags (s : State) (a : Nat) (x : Flags) (n : Nat) : (s.orFlags a x).terrace n = s.terrace n := by
  simp [State.terrace]
@[simp] theorem State.launch?_orFlags (s : State) (a : Nat) (x : Flags) (m n : Nat) : (s.orFlags a x).launch? m n = s.launch? m n := by
  simp [State.launch?, State.part]
@[simp] theorem State.entry_orFlags (s : State) (a : Nat) (x : Flags) (n : Nat) : (s.orFlags a x).entry n = s.entry n := by
  simp [State.entry]
@[simp] theorem State.copies_orFlags (s : State) (a : Nat) (x : Flags) (n : Nat) : (s.orFlags a x).copies n = s.copies n := by
  simp [State.copies]
@[simp] theorem State.now_orFlags (s : State) (a : Nat) (x : Flags) : (s.orFlags a x).now = s.now := by
  simp [State.now]
@[simp] theorem State.tbNs_orFlags (s : State) (a : Nat) (x : Flags) : (s.orFlags a x).tbNs = s.tbNs := by
  simp [State.tbNs]

end Sys2Proof.Machine
end

