-- ==== Sys2Proof/Laws/Raise.lean ====
section
/-! SUPPORT. Raising a flint code: what it changes and what it leaves unchanged, and that the event log holds the code
afterwards (R579, R678). -/

namespace Sys2Proof.Machine

open Sys2Proof

/-! ## MSI-X -/

theorem State.msix_eq (s : State) (f v : Nat) :
    s.msix f v = { s with host := (s.msix f v).host, out := (s.msix f v).out } := by
  unfold State.msix State.setMailbox State.emit; simp only; split <;> rfl

theorem State.msix_host (s : State) (f v : Nat) :
    (s.msix f v).host = { s.host with mailboxes := (s.msix f v).host.mailboxes } := by
  unfold State.msix State.setMailbox State.emit; simp only; split <;> rfl

theorem State.msix_mailbox (s : State) (f v g : Nat) :
    (s.msix f v).mailbox g = { s.mailbox g with msixPending := ((s.msix f v).mailbox g).msixPending } := by
  unfold State.msix
  simp only
  split
  · rw [State.mailbox_setMailbox]; split
    · next h => subst h; rfl
    · rfl
  · rfl
@[simp] theorem State.msix_pending (s : State) (f v : Nat) : (s.msix f v).pending = s.pending := by rw [State.msix_eq]
@[simp] theorem State.msix_mode (s : State) (f v : Nat) : (s.msix f v).mode = s.mode := by rw [State.msix_eq]
@[simp] theorem State.msix_regs (s : State) (f v : Nat) : (s.msix f v).regs = s.regs := by rw [State.msix_eq]
@[simp] theorem State.msix_clk (s : State) (f v : Nat) : (s.msix f v).clk = s.clk := by rw [State.msix_eq]
@[simp] theorem State.msix_pwr (s : State) (f v : Nat) : (s.msix f v).pwr = s.pwr := by rw [State.msix_eq]
@[simp] theorem State.msix_watch (s : State) (f v : Nat) : (s.msix f v).watch = s.watch := by rw [State.msix_eq]
@[simp] theorem State.msix_grotto (s : State) (f v : Nat) : (s.msix f v).grotto = s.grotto := by rw [State.msix_eq]
@[simp] theorem State.msix_dbg (s : State) (f v : Nat) : (s.msix f v).dbg = s.dbg := by rw [State.msix_eq]
@[simp] theorem State.msix_rills (s : State) (f v : Nat) : (s.msix f v).rills = s.rills := by rw [State.msix_eq]
@[simp] theorem State.msix_ctxs (s : State) (f v : Nat) : (s.msix f v).ctxs = s.ctxs := by rw [State.msix_eq]
@[simp] theorem State.msix_frqs (s : State) (f v : Nat) : (s.msix f v).frqs = s.frqs := by rw [State.msix_eq]
@[simp] theorem State.msix_frqOver (s : State) (f v : Nat) : (s.msix f v).frqOver = s.frqOver := by rw [State.msix_eq]
@[simp] theorem State.msix_streams (s : State) (f v : Nat) : (s.msix f v).streams = s.streams := by rw [State.msix_eq]
@[simp] theorem State.msix_streamCaches (s : State) (f v : Nat) : (s.msix f v).streamCaches = s.streamCaches := by rw [State.msix_eq]
@[simp] theorem State.msix_parts (s : State) (f v : Nat) : (s.msix f v).parts = s.parts := by rw [State.msix_eq]
@[simp] theorem State.msix_mem (s : State) (f v : Nat) : (s.msix f v).mem = s.mem := by rw [State.msix_eq]
@[simp] theorem State.msix_fabric (s : State) (f v : Nat) : (s.msix f v).fabric = s.fabric := by rw [State.msix_eq]
@[simp] theorem State.msix_coll (s : State) (f v : Nat) : (s.msix f v).coll = s.coll := by rw [State.msix_eq]
@[simp] theorem State.msix_input (s : State) (f v : Nat) : (s.msix f v).input = s.input := by rw [State.msix_eq]
@[simp] theorem State.msix_free (s : State) (f v : Nat) : (s.msix f v).free = s.free := by rw [State.msix_eq]
@[simp] theorem State.msix_host_inProgress (s : State) (f v : Nat) : (s.msix f v).host.inProgress = s.host.inProgress := by rw [State.msix_host]
@[simp] theorem State.msix_host_order (s : State) (f v : Nat) : (s.msix f v).host.order = s.host.order := by rw [State.msix_host]
@[simp] theorem State.msix_host_rotor (s : State) (f v : Nat) : (s.msix f v).host.rotor = s.host.rotor := by rw [State.msix_host]
@[simp] theorem State.msix_host_heartbeat (s : State) (f v : Nat) : (s.msix f v).host.heartbeat = s.host.heartbeat := by rw [State.msix_host]
@[simp] theorem State.msix_host_cmdsDropped (s : State) (f v : Nat) : (s.msix f v).host.cmdsDropped = s.host.cmdsDropped := by rw [State.msix_host]
@[simp] theorem State.msix_host_completed (s : State) (f v : Nat) : (s.msix f v).host.completed = s.host.completed := by rw [State.msix_host]
@[simp] theorem State.msix_host_numVfs (s : State) (f v : Nat) : (s.msix f v).host.numVfs = s.host.numVfs := by rw [State.msix_host]
@[simp] theorem State.msix_host_speed (s : State) (f v : Nat) : (s.msix f v).host.speed = s.host.speed := by rw [State.msix_host]
@[simp] theorem State.msix_host_width (s : State) (f v : Nat) : (s.msix f v).host.width = s.host.width := by rw [State.msix_host]
@[simp] theorem State.msix_host_flit (s : State) (f v : Nat) : (s.msix f v).host.flit = s.host.flit := by rw [State.msix_host]
@[simp] theorem State.msix_host_l0p (s : State) (f v : Nat) : (s.msix f v).host.l0p = s.host.l0p := by rw [State.msix_host]
@[simp] theorem State.msix_host_perst (s : State) (f v : Nat) : (s.msix f v).host.perst = s.host.perst := by rw [State.msix_host]
@[simp] theorem State.msix_host_urReads (s : State) (f v : Nat) : (s.msix f v).host.urReads = s.host.urReads := by rw [State.msix_host]
@[simp] theorem State.msix_host_droppedWrites (s : State) (f v : Nat) : (s.msix f v).host.droppedWrites = s.host.droppedWrites := by rw [State.msix_host]
@[simp] theorem State.msix_host_repliesDropped (s : State) (f v : Nat) : (s.msix f v).host.repliesDropped = s.host.repliesDropped := by rw [State.msix_host]
@[simp] theorem State.msix_host_limitsTold (s : State) (f v : Nat) : (s.msix f v).host.limitsTold = s.host.limitsTold := by rw [State.msix_host]

/-! ## The log -/

theorem State.logCode_eq (s : State) (sev : Nat) (code : W32) (w : About) :
    s.logCode sev code w = { s with
      grotto := { s.grotto with log := (s.logCode sev code w).grotto.log, nextSeq := (s.logCode sev code w).grotto.nextSeq },
      regs := (s.logCode sev code w).regs, host := (s.logCode sev code w).host, out := (s.logCode sev code w).out } := by
  unfold State.logCode
  simp only
  split
  · unfold State.satF State.setF State.setReg; split <;> rfl
  · split
    · rw [State.msix_eq]
    · rw [State.msix_eq _ (State.vfOf _ _), State.msix_eq _ 0]

theorem State.logCode_host (s : State) (sev : Nat) (code : W32) (w : About) :
    (s.logCode sev code w).host = { s.host with mailboxes := (s.logCode sev code w).host.mailboxes } := by
  unfold State.logCode
  simp only
  split
  · simp
  · split
    · rw [State.msix_host]
    · rw [State.msix_host _ (State.vfOf _ _), State.msix_host _ 0]

/-- A mailbox of `t` is that of `s` but for the pending bits of its MSI-X vectors. -/
def State.sameBox (s t : State) (g : Nat) : Prop := t.mailbox g = { s.mailbox g with msixPending := (t.mailbox g).msixPending }

theorem State.sameBox_of_host (s t : State) (g : Nat) (h : t.host = s.host) : s.sameBox t g := by
  unfold State.sameBox State.mailbox; rw [h]

theorem State.sameBox_msix (s t : State) (f v g : Nat) (h : s.sameBox t g) : s.sameBox (t.msix f v) g := by
  unfold State.sameBox at h ⊢
  rw [State.msix_mailbox, h]

theorem State.logCode_mailbox (s : State) (sev : Nat) (code : W32) (w : About) (g : Nat) :
    s.sameBox (s.logCode sev code w) g := by
  unfold State.logCode
  simp only
  split
  · exact State.sameBox_of_host _ _ _ (by simp)
  · split
    · exact State.sameBox_msix _ _ _ _ _ (State.sameBox_of_host _ _ _ rfl)
    · exact State.sameBox_msix _ _ _ _ _ (State.sameBox_msix _ _ _ _ _ (State.sameBox_of_host _ _ _ rfl))

theorem mem_keepNewest {α : Type} (n : Nat) (hn : 0 < n) (l : List α) (x : α) : x ∈ keepNewest n (l ++ [x]) := by
  unfold keepNewest
  rw [List.drop_append_of_le_length (by simp; omega)]
  simp

theorem folds_flint (log : List LogEntry) (code : W32) (t : Nat) (e : LogEntry) (h : folds log code t = some e) :
    e ∈ log ∧ e.flint = code := by
  unfold folds at h
  have h1 := List.mem_of_find?_eq_some h
  have h2 := List.find?_some h
  simp only [decide_eq_true_eq] at h2
  exact ⟨List.mem_reverse.1 h1, h2.1⟩

theorem bumpEntry_flint (log : List LogEntry) (n : Nat) (code : W32) :
    (∃ e ∈ bumpEntry log n, e.flint = code) ↔ ∃ e ∈ log, e.flint = code := by
  unfold bumpEntry
  constructor
  · rintro ⟨e, he, h⟩
    obtain ⟨x, hx, rfl⟩ := List.mem_map.1 he
    exact ⟨x, hx, by split at h <;> exact h⟩
  · rintro ⟨e, he, h⟩
    exact ⟨_, List.mem_map.2 ⟨e, he, rfl⟩, by split <;> exact h⟩

theorem State.logCode_tells (s : State) (sev : Nat) (code : W32) (w : About) :
    ∃ e ∈ (s.logCode sev code w).grotto.log, e.flint = code := by
  unfold State.logCode
  simp only
  split
  · next e he =>
    split at he
    · simp only [State.satF_grotto]
      obtain ⟨h1, h2⟩ := folds_flint _ _ _ _ he
      exact (bumpEntry_flint _ _ _).2 ⟨e, h1, h2⟩
    · exact absurd he (by simp)
  · split
    · simp only [State.msix_grotto]
      exact ⟨_, mem_keepNewest 4096 (by decide) _ _, rfl⟩
    · simp only [State.msix_grotto]
      exact ⟨_, mem_keepNewest 4096 (by decide) _ _, rfl⟩

/-! ## Raising -/

theorem State.recordFault_eq (s : State) (a : Nat) (code : W32) :
    s.recordFault a code = { s with regs := (s.recordFault a code).regs } := by
  unfold State.recordFault State.setReg; split <;> split <;> rfl

theorem State.raiseCode_eq (s : State) (sev unit inst : Nat) (code : W32) (w : About) :
    s.raiseCode sev unit inst code w = { s with
      grotto := { s.grotto with log := (s.raiseCode sev unit inst code w).grotto.log,
                                nextSeq := (s.raiseCode sev unit inst code w).grotto.nextSeq,
                                lastFatal := (s.raiseCode sev unit inst code w).grotto.lastFatal },
      regs := (s.raiseCode sev unit inst code w).regs, host := (s.raiseCode sev unit inst code w).host,
      out := (s.raiseCode sev unit inst code w).out,
      pwr := { s.pwr with wellheadLast := (s.raiseCode sev unit inst code w).pwr.wellheadLast } } := by
  unfold State.raiseCode
  simp only
  split
  · rw [State.logCode_eq]
  · split <;> split <;> split <;> first
      | rw [State.recordFault_eq, State.logCode_eq]
      | rw [State.logCode_eq]

theorem State.raise_eq (s : State) (c : Cause) (inst : Nat) (w : About) :
    s.raise c inst w = { s with
      grotto := { s.grotto with log := (s.raise c inst w).grotto.log, nextSeq := (s.raise c inst w).grotto.nextSeq,
                                lastFatal := (s.raise c inst w).grotto.lastFatal },
      regs := (s.raise c inst w).regs, host := (s.raise c inst w).host, out := (s.raise c inst w).out,
      pwr := { s.pwr with wellheadLast := (s.raise c inst w).pwr.wellheadLast } } :=
  State.raiseCode_eq s _ _ _ _ _

theorem State.raiseCode_host_log (s : State) (sev unit inst : Nat) (code : W32) (w : About) :
    (s.raiseCode sev unit inst code w).host = (s.logCode sev code w).host ∧
    (s.raiseCode sev unit inst code w).grotto.log = (s.logCode sev code w).grotto.log := by
  unfold State.raiseCode
  simp only
  generalize s.logCode sev code w = u
  split
  · exact ⟨rfl, rfl⟩
  · split <;> split <;> split <;> first
      | exact ⟨rfl, rfl⟩
      | (rw [State.recordFault_eq]; exact ⟨rfl, rfl⟩)

theorem State.raiseCode_host (s : State) (sev unit inst : Nat) (code : W32) (w : About) :
    (s.raiseCode sev unit inst code w).host =
      { s.host with mailboxes := (s.raiseCode sev unit inst code w).host.mailboxes } := by
  rw [(State.raiseCode_host_log s sev unit inst code w).1]
  exact State.logCode_host s sev code w

theorem State.raise_host (s : State) (c : Cause) (inst : Nat) (w : About) :
    (s.raise c inst w).host = { s.host with mailboxes := (s.raise c inst w).host.mailboxes } :=
  State.raiseCode_host s _ _ _ _ _

theorem State.raise_mailbox (s : State) (c : Cause) (inst : Nat) (w : About) (g : Nat) :
    s.sameBox (s.raise c inst w) g := by
  have h := State.logCode_mailbox s c.sev (c.flint inst) w g
  unfold State.sameBox State.mailbox at h ⊢
  unfold State.raise
  rw [(State.raiseCode_host_log s c.sev c.unit inst (c.flint inst) w).1]
  exact h

/-- The event log holds the code that was raised (R579). -/
theorem State.raise_tells (s : State) (c : Cause) (inst : Nat) (w : About) :
    ∃ e ∈ (s.raise c inst w).grotto.log, e.flint = c.flint inst := by
  unfold State.raise
  rw [(State.raiseCode_host_log s c.sev c.unit inst (c.flint inst) w).2]
  exact State.logCode_tells s _ _ _

@[simp] theorem State.raise_pending (s : State) (c : Cause) (i : Nat) (w : About) : (s.raise c i w).pending = s.pending := by
  rw [State.raise_eq]
@[simp] theorem State.raise_mode (s : State) (c : Cause) (i : Nat) (w : About) : (s.raise c i w).mode = s.mode := by
  rw [State.raise_eq]
@[simp] theorem State.raise_clk (s : State) (c : Cause) (i : Nat) (w : About) : (s.raise c i w).clk = s.clk := by
  rw [State.raise_eq]
@[simp] theorem State.raise_watch (s : State) (c : Cause) (i : Nat) (w : About) : (s.raise c i w).watch = s.watch := by
  rw [State.raise_eq]
@[simp] theorem State.raise_dbg (s : State) (c : Cause) (i : Nat) (w : About) : (s.raise c i w).dbg = s.dbg := by
  rw [State.raise_eq]
@[simp] theorem State.raise_rills (s : State) (c : Cause) (i : Nat) (w : About) : (s.raise c i w).rills = s.rills := by
  rw [State.raise_eq]
@[simp] theorem State.raise_ctxs (s : State) (c : Cause) (i : Nat) (w : About) : (s.raise c i w).ctxs = s.ctxs := by
  rw [State.raise_eq]
@[simp] theorem State.raise_frqs (s : State) (c : Cause) (i : Nat) (w : About) : (s.raise c i w).frqs = s.frqs := by
  rw [State.raise_eq]
@[simp] theorem State.raise_frqOver (s : State) (c : Cause) (i : Nat) (w : About) : (s.raise c i w).frqOver = s.frqOver := by
  rw [State.raise_eq]
@[simp] theorem State.raise_streams (s : State) (c : Cause) (i : Nat) (w : About) : (s.raise c i w).streams = s.streams := by
  rw [State.raise_eq]
@[simp] theorem State.raise_streamCaches (s : State) (c : Cause) (i : Nat) (w : About) : (s.raise c i w).streamCaches = s.streamCaches := by
  rw [State.raise_eq]
@[simp] theorem State.raise_parts (s : State) (c : Cause) (i : Nat) (w : About) : (s.raise c i w).parts = s.parts := by
  rw [State.raise_eq]
@[simp] theorem State.raise_mem (s : State) (c : Cause) (i : Nat) (w : About) : (s.raise c i w).mem = s.mem := by
  rw [State.raise_eq]
@[simp] theorem State.raise_fabric (s : State) (c : Cause) (i : Nat) (w : About) : (s.raise c i w).fabric = s.fabric := by
  rw [State.raise_eq]
@[simp] theorem State.raise_coll (s : State) (c : Cause) (i : Nat) (w : About) : (s.raise c i w).coll = s.coll := by
  rw [State.raise_eq]
@[simp] theorem State.raise_input (s : State) (c : Cause) (i : Nat) (w : About) : (s.raise c i w).input = s.input := by
  rw [State.raise_eq]
@[simp] theorem State.raise_free (s : State) (c : Cause) (i : Nat) (w : About) : (s.raise c i w).free = s.free := by
  rw [State.raise_eq]
@[simp] theorem State.raise_host_inProgress (s : State) (c : Cause) (i : Nat) (w : About) :
    (s.raise c i w).host.inProgress = s.host.inProgress := by rw [State.raise_host]
@[simp] theorem State.raise_host_order (s : State) (c : Cause) (i : Nat) (w : About) :
    (s.raise c i w).host.order = s.host.order := by rw [State.raise_host]
@[simp] theorem State.raise_host_rotor (s : State) (c : Cause) (i : Nat) (w : About) :
    (s.raise c i w).host.rotor = s.host.rotor := by rw [State.raise_host]
@[simp] theorem State.raise_host_heartbeat (s : State) (c : Cause) (i : Nat) (w : About) :
    (s.raise c i w).host.heartbeat = s.host.heartbeat := by rw [State.raise_host]
@[simp] theorem State.raise_host_cmdsDropped (s : State) (c : Cause) (i : Nat) (w : About) :
    (s.raise c i w).host.cmdsDropped = s.host.cmdsDropped := by rw [State.raise_host]
@[simp] theorem State.raise_host_completed (s : State) (c : Cause) (i : Nat) (w : About) :
    (s.raise c i w).host.completed = s.host.completed := by rw [State.raise_host]
@[simp] theorem State.raise_host_numVfs (s : State) (c : Cause) (i : Nat) (w : About) :
    (s.raise c i w).host.numVfs = s.host.numVfs := by rw [State.raise_host]
@[simp] theorem State.raise_host_speed (s : State) (c : Cause) (i : Nat) (w : About) :
    (s.raise c i w).host.speed = s.host.speed := by rw [State.raise_host]
@[simp] theorem State.raise_host_width (s : State) (c : Cause) (i : Nat) (w : About) :
    (s.raise c i w).host.width = s.host.width := by rw [State.raise_host]
@[simp] theorem State.raise_host_flit (s : State) (c : Cause) (i : Nat) (w : About) :
    (s.raise c i w).host.flit = s.host.flit := by rw [State.raise_host]
@[simp] theorem State.raise_host_l0p (s : State) (c : Cause) (i : Nat) (w : About) :
    (s.raise c i w).host.l0p = s.host.l0p := by rw [State.raise_host]
@[simp] theorem State.raise_host_perst (s : State) (c : Cause) (i : Nat) (w : About) :
    (s.raise c i w).host.perst = s.host.perst := by rw [State.raise_host]
@[simp] theorem State.raise_host_urReads (s : State) (c : Cause) (i : Nat) (w : About) :
    (s.raise c i w).host.urReads = s.host.urReads := by rw [State.raise_host]
@[simp] theorem State.raise_host_droppedWrites (s : State) (c : Cause) (i : Nat) (w : About) :
    (s.raise c i w).host.droppedWrites = s.host.droppedWrites := by rw [State.raise_host]
@[simp] theorem State.raise_host_repliesDropped (s : State) (c : Cause) (i : Nat) (w : About) :
    (s.raise c i w).host.repliesDropped = s.host.repliesDropped := by rw [State.raise_host]
@[simp] theorem State.raise_host_limitsTold (s : State) (c : Cause) (i : Nat) (w : About) :
    (s.raise c i w).host.limitsTold = s.host.limitsTold := by rw [State.raise_host]
@[simp] theorem State.raise_grotto_stage (s : State) (c : Cause) (i : Nat) (w : About) :
    (s.raise c i w).grotto.stage = s.grotto.stage := by rw [State.raise_eq]
@[simp] theorem State.raise_grotto_powerStage (s : State) (c : Cause) (i : Nat) (w : About) :
    (s.raise c i w).grotto.powerStage = s.grotto.powerStage := by rw [State.raise_eq]
@[simp] theorem State.raise_grotto_slateSel (s : State) (c : Cause) (i : Nat) (w : About) :
    (s.raise c i w).grotto.slateSel = s.grotto.slateSel := by rw [State.raise_eq]
@[simp] theorem State.raise_grotto_slateSeq (s : State) (c : Cause) (i : Nat) (w : About) :
    (s.raise c i w).grotto.slateSeq = s.grotto.slateSeq := by rw [State.raise_eq]
@[simp] theorem State.raise_grotto_slate (s : State) (c : Cause) (i : Nat) (w : About) :
    (s.raise c i w).grotto.slate = s.grotto.slate := by rw [State.raise_eq]
@[simp] theorem State.raise_grotto_recordA (s : State) (c : Cause) (i : Nat) (w : About) :
    (s.raise c i w).grotto.recordA = s.grotto.recordA := by rw [State.raise_eq]
@[simp] theorem State.raise_grotto_recordB (s : State) (c : Cause) (i : Nat) (w : About) :
    (s.raise c i w).grotto.recordB = s.grotto.recordB := by rw [State.raise_eq]
@[simp] theorem State.raise_grotto_rpmc (s : State) (c : Cause) (i : Nat) (w : About) :
    (s.raise c i w).grotto.rpmc = s.grotto.rpmc := by rw [State.raise_eq]
@[simp] theorem State.raise_grotto_grottoSlot (s : State) (c : Cause) (i : Nat) (w : About) :
    (s.raise c i w).grotto.grottoSlot = s.grotto.grottoSlot := by rw [State.raise_eq]
@[simp] theorem State.raise_grotto_wellheadSlot (s : State) (c : Cause) (i : Nat) (w : About) :
    (s.raise c i w).grotto.wellheadSlot = s.grotto.wellheadSlot := by rw [State.raise_eq]
@[simp] theorem State.raise_grotto_stagedG (s : State) (c : Cause) (i : Nat) (w : About) :
    (s.raise c i w).grotto.stagedG = s.grotto.stagedG := by rw [State.raise_eq]
@[simp] theorem State.raise_grotto_stagedW (s : State) (c : Cause) (i : Nat) (w : About) :
    (s.raise c i w).grotto.stagedW = s.grotto.stagedW := by rw [State.raise_eq]
@[simp] theorem State.raise_grotto_factory (s : State) (c : Cause) (i : Nat) (w : About) :
    (s.raise c i w).grotto.factory = s.grotto.factory := by rw [State.raise_eq]
@[simp] theorem State.raise_grotto_nor (s : State) (c : Cause) (i : Nat) (w : About) :
    (s.raise c i w).grotto.nor = s.grotto.nor := by rw [State.raise_eq]
@[simp] theorem State.raise_grotto_norLog (s : State) (c : Cause) (i : Nat) (w : About) :
    (s.raise c i w).grotto.norLog = s.grotto.norLog := by rw [State.raise_eq]
@[simp] theorem State.raise_grotto_limits (s : State) (c : Cause) (i : Nat) (w : About) :
    (s.raise c i w).grotto.limits = s.grotto.limits := by rw [State.raise_eq]
@[simp] theorem State.raise_grotto_sensors (s : State) (c : Cause) (i : Nat) (w : About) :
    (s.raise c i w).grotto.sensors = s.grotto.sensors := by rw [State.raise_eq]
@[simp] theorem State.raise_grotto_identify (s : State) (c : Cause) (i : Nat) (w : About) :
    (s.raise c i w).grotto.identify = s.grotto.identify := by rw [State.raise_eq]
@[simp] theorem State.raise_grotto_handshakes (s : State) (c : Cause) (i : Nat) (w : About) :
    (s.raise c i w).grotto.handshakes = s.grotto.handshakes := by rw [State.raise_eq]
@[simp] theorem State.raise_grotto_sessions (s : State) (c : Cause) (i : Nat) (w : About) :
    (s.raise c i w).grotto.sessions = s.grotto.sessions := by rw [State.raise_eq]
@[simp] theorem State.raise_grotto_plcaLost (s : State) (c : Cause) (i : Nat) (w : About) :
    (s.raise c i w).grotto.plcaLost = s.grotto.plcaLost := by rw [State.raise_eq]
@[simp] theorem State.raise_grotto_plcaHeard (s : State) (c : Cause) (i : Nat) (w : About) :
    (s.raise c i w).grotto.plcaHeard = s.grotto.plcaHeard := by rw [State.raise_eq]
@[simp] theorem State.raise_grotto_lastAnswer (s : State) (c : Cause) (i : Nat) (w : About) :
    (s.raise c i w).grotto.lastAnswer = s.grotto.lastAnswer := by rw [State.raise_eq]
@[simp] theorem State.raise_grotto_stageSince (s : State) (c : Cause) (i : Nat) (w : About) :
    (s.raise c i w).grotto.stageSince = s.grotto.stageSince := by rw [State.raise_eq]
@[simp] theorem State.raise_grotto_waitTold (s : State) (c : Cause) (i : Nat) (w : About) :
    (s.raise c i w).grotto.waitTold = s.grotto.waitTold := by rw [State.raise_eq]
@[simp] theorem State.raise_grotto_ledUntil (s : State) (c : Cause) (i : Nat) (w : About) :
    (s.raise c i w).grotto.ledUntil = s.grotto.ledUntil := by rw [State.raise_eq]
@[simp] theorem State.raise_grotto_restart (s : State) (c : Cause) (i : Nat) (w : About) :
    (s.raise c i w).grotto.restart = s.grotto.restart := by rw [State.raise_eq]
@[simp] theorem State.raise_pwr_cap (s : State) (c : Cause) (i : Nat) (w : About) :
    (s.raise c i w).pwr.cap = s.pwr.cap := by rw [State.raise_eq]
@[simp] theorem State.raise_pwr_capNext (s : State) (c : Cause) (i : Nat) (w : About) :
    (s.raise c i w).pwr.capNext = s.pwr.capNext := by rw [State.raise_eq]
@[simp] theorem State.raise_pwr_held (s : State) (c : Cause) (i : Nat) (w : About) :
    (s.raise c i w).pwr.held = s.pwr.held := by rw [State.raise_eq]
@[simp] theorem State.raise_pwr_withdrawCause (s : State) (c : Cause) (i : Nat) (w : About) :
    (s.raise c i w).pwr.withdrawCause = s.pwr.withdrawCause := by rw [State.raise_eq]
@[simp] theorem State.raise_pwr_kept (s : State) (c : Cause) (i : Nat) (w : About) :
    (s.raise c i w).pwr.kept = s.pwr.kept := by rw [State.raise_eq]
@[simp] theorem State.raise_pwr_esc (s : State) (c : Cause) (i : Nat) (w : About) :
    (s.raise c i w).pwr.esc = s.pwr.esc := by rw [State.raise_eq]
@[simp] theorem State.raise_pwr_recovery (s : State) (c : Cause) (i : Nat) (w : About) :
    (s.raise c i w).pwr.recovery = s.pwr.recovery := by rw [State.raise_eq]
@[simp] theorem State.raise_pwr_resetting (s : State) (c : Cause) (i : Nat) (w : About) :
    (s.raise c i w).pwr.resetting = s.pwr.resetting := by rw [State.raise_eq]
@[simp] theorem State.raise_pwr_cleared (s : State) (c : Cause) (i : Nat) (w : About) :
    (s.raise c i w).pwr.cleared = s.pwr.cleared := by rw [State.raise_eq]
@[simp] theorem State.raise_pwr_reload (s : State) (c : Cause) (i : Nat) (w : About) :
    (s.raise c i w).pwr.reload = s.pwr.reload := by rw [State.raise_eq]
@[simp] theorem State.raise_pwr_withdrawing (s : State) (c : Cause) (i : Nat) (w : About) :
    (s.raise c i w).pwr.withdrawing = s.pwr.withdrawing := by rw [State.raise_eq]
@[simp] theorem State.raise_pwr_withdrawn (s : State) (c : Cause) (i : Nat) (w : About) :
    (s.raise c i w).pwr.withdrawn = s.pwr.withdrawn := by rw [State.raise_eq]
@[simp] theorem State.rill_raise (s : State) (c : Cause) (i : Nat) (w : About) (n : Nat) : (s.raise c i w).rill n = s.rill n := by
  simp [State.rill]
@[simp] theorem State.part_raise (s : State) (c : Cause) (i : Nat) (w : About) (n : Nat) : (s.raise c i w).part n = s.part n := by
  simp [State.part]
@[simp] theorem State.ctx?_raise (s : State) (c : Cause) (i : Nat) (w : About) (n : Nat) : (s.raise c i w).ctx? n = s.ctx? n := by
  simp [State.ctx?]
@[simp] theorem State.port_raise (s : State) (c : Cause) (i : Nat) (w : About) (n : Nat) : (s.raise c i w).port n = s.port n := by
  simp [State.port]
@[simp] theorem State.ipl_raise (s : State) (c : Cause) (i : Nat) (w : About) (n : Nat) : (s.raise c i w).ipl n = s.ipl n := by
  simp [State.ipl]
@[simp] theorem State.terrace_raise (s : State) (c : Cause) (i : Nat) (w : About) (n : Nat) : (s.raise c i w).terrace n = s.terrace n := by
  simp [State.terrace]
@[simp] theorem State.entry_raise (s : State) (c : Cause) (i : Nat) (w : About) (n : Nat) : (s.raise c i w).entry n = s.entry n := by
  simp [State.entry]
@[simp] theorem State.copies_raise (s : State) (c : Cause) (i : Nat) (w : About) (n : Nat) : (s.raise c i w).copies n = s.copies n := by
  simp [State.copies]
@[simp] theorem State.launch?_raise (s : State) (c : Cause) (i : Nat) (w : About) (m n : Nat) : (s.raise c i w).launch? m n = s.launch? m n := by
  simp [State.launch?, State.part]
@[simp] theorem State.now_raise (s : State) (c : Cause) (i : Nat) (w : About) : (s.raise c i w).now = s.now := by simp [State.now]

end Sys2Proof.Machine
end

