-- ==== Sys2Proof/Laws/Told.lean ====
section
/-! SUPPORT. Stored registers, and all that raising a cause does: the log, its fault register, and who is told
(R579, R678). -/

namespace Sys2Proof.Machine

open Sys2Proof

/-! ## Stored registers -/

theorem State.reg_setReg (s : State) (a b v : Nat) : (s.setReg a v).reg b = if b = a then v % 2 ^ 64 else s.reg b := by
  unfold State.setReg State.reg
  by_cases h : b = a
  · subst h
    by_cases hv : v % 2 ^ 64 = regReset b
    · rw [if_pos hv]; simp only [Tab.at?_del, if_true]; exact hv.symm
    · rw [if_neg hv]; simp only [Tab.at?_put, if_true, BitVec.toNat_ofNat]
  · rw [if_neg h]
    by_cases hv : v % 2 ^ 64 = regReset a
    · rw [if_pos hv]; simp only [Tab.at?_del, if_neg h]
    · rw [if_neg hv]; simp only [Tab.at?_put, if_neg h]

theorem State.reg_of_regs (s t : State) (b : Nat) (h : t.regs = s.regs) : t.reg b = s.reg b := by
  unfold State.reg; rw [h]

theorem regReset_lt (a : Nat) : regReset a < 2 ^ 64 := by
  have h : ∀ (c : Prop) [Decidable c] (x y : Nat), x < 2 ^ 64 → y < 2 ^ 64 → (if c then x else y) < 2 ^ 64 := by
    intro c _ x y hx hy; split <;> assumption
  unfold regReset
  simp only
  repeat' (apply h)
  all_goals norm_num

theorem State.reg_lt (s : State) (a : Nat) : s.reg a < 2 ^ 64 := by
  unfold State.reg
  split
  · exact BitVec.isLt _
  · exact regReset_lt a

theorem setBits_lt (v lo w x n : Nat) (h : v < 2 ^ n) (hn : lo + w ≤ n) : setBits v lo w x < 2 ^ n := by
  unfold setBits
  have h1 : v % 2 ^ lo + x % 2 ^ w * 2 ^ lo < 2 ^ (lo + w) := by
    have a := Nat.mod_lt v (Nat.two_pow_pos lo)
    have b : x % 2 ^ w + 1 ≤ 2 ^ w := Nat.mod_lt x (Nat.two_pow_pos w)
    rw [pow_add]
    nlinarith [Nat.two_pow_pos lo]
  have h2 : v / 2 ^ (lo + w) + 1 ≤ 2 ^ (n - (lo + w)) := by
    rw [Nat.succ_le_iff, Nat.div_lt_iff_lt_mul (Nat.two_pow_pos _), ← pow_add]
    rwa [Nat.sub_add_cancel hn]
  have h3 : 2 ^ n = 2 ^ (n - (lo + w)) * 2 ^ (lo + w) := by rw [← pow_add, Nat.sub_add_cancel hn]
  rw [h3]
  nlinarith [Nat.two_pow_pos (lo + w)]

/-- A field set reads as the value set, within its width. -/
theorem State.reg_setF (s : State) (f : Fld) (v b : Nat) (hf : f.lo + f.wd ≤ 64) :
    (s.setF f v).reg b = if b = f.addr then setBits (s.reg f.addr) f.lo f.wd v else s.reg b := by
  unfold State.setF
  rw [State.reg_setReg]
  split
  · exact Nat.mod_eq_of_lt (setBits_lt _ _ _ _ _ (s.reg_lt _) hf)
  · rfl

/-! ## Raising -/

theorem State.logCode_reg (s : State) (sev : Nat) (code : W32) (w : About) (a : Nat) (h : a ≠ grFolded.addr) :
    (s.logCode sev code w).reg a = s.reg a := by
  unfold State.logCode
  simp only
  split
  · unfold State.satF State.setF
    rw [State.reg_setReg, if_neg h]; rfl
  · split
    · unfold State.reg; rw [State.msix_regs]
    · unfold State.reg; rw [State.msix_regs, State.msix_regs]

theorem faultReg_ne_grFolded (unit inst : Nat) : faultReg unit inst ≠ some grFolded.addr := by
  have e : grFolded.addr = 0x080000000000 + 0x03 * 0x1000000 + 0x18 := by
    simp only [grFolded, grReg, blockBase]
  rw [e]
  intro h
  unfold faultReg at h
  split at h <;> (try split at h) <;> (try split at h) <;> (try split at h) <;> (try split at h) <;>
    first
    | (rw [Option.some.injEq] at h
       simp only [rlFault, rlReg, arFault, arReg, vxFault, vxReg, spFault, spReg, swFault, swReg, slFault, slReg, hbFault,
         hbReg, pcFault, pcReg, ddFault, ddReg, fsFault, fsReg, glPortFault, glPort, glIplFault, glIpl, glRtFault, glRt,
         ceFault, ceReg, pxFault, pxReg, whFault, whReg, mbFault, mbReg, grFault, grReg, ckFault, ckReg, pwFault, pwReg,
         stFault, stReg, blockBase] at h
       omega)
    | exact absurd h (by simp)

theorem State.recordFault_reg (s : State) (a b : Nat) (code : W32) :
    (s.recordFault a code).reg b = if b = a then (if bit (s.reg a) 32 then setBits (s.reg a) 33 1 1
      else setBits (setBits (s.reg a) 0 32 code.toNat) 32 1 1) else s.reg b := by
  unfold State.recordFault
  split <;> rw [State.reg_setReg] <;> split <;> try rfl
  · exact Nat.mod_eq_of_lt (setBits_lt _ _ _ _ _ (s.reg_lt _) (by omega))
  · exact Nat.mod_eq_of_lt (setBits_lt _ _ _ _ _ (setBits_lt _ _ _ _ _ (s.reg_lt _) (by omega)) (by omega))

theorem State.raise_reg (s : State) (c : Cause) (inst : Nat) (w : About) (b : Nat) (h : b ≠ grFolded.addr) :
    (s.raise c inst w).reg b = if 2 ≤ c.sev ∧ faultReg c.unit inst = some b then
      (if bit (s.reg b) 32 then setBits (s.reg b) 33 1 1 else setBits (setBits (s.reg b) 0 32 (c.flint inst).toNat) 32 1 1)
      else s.reg b := by
  have hl := s.logCode_reg c.sev (c.flint inst) w b h
  unfold State.raise State.raiseCode
  simp only
  generalize s.logCode c.sev (c.flint inst) w = u at hl
  split
  · rw [if_neg (by omega)]; exact hl
  · have e : ∀ v : State, v.reg b = (match faultReg c.unit inst with
        | some a => u.recordFault a (c.flint inst)
        | none => u).reg b → v.reg b = if 2 ≤ c.sev ∧ faultReg c.unit inst = some b then
      (if bit (s.reg b) 32 then setBits (s.reg b) 33 1 1 else setBits (setBits (s.reg b) 0 32 (c.flint inst).toNat) 32 1 1)
      else s.reg b := by
      intro v hv
      rw [hv]
      cases hf : faultReg c.unit inst with
      | none => simp [hl]
      | some a =>
        simp only [State.recordFault_reg, Option.some.injEq]
        by_cases hb : b = a
        · have hc : 2 ≤ c.sev ∧ a = b := ⟨by omega, hb.symm⟩
          rw [if_pos hb, if_pos hc, ← hb, hl]
        · have hc : ¬ (2 ≤ c.sev ∧ a = b) := fun q => hb q.2.symm
          rw [if_neg hb, if_neg hc, hl]
    apply e
    apply State.reg_of_regs
    split <;> split <;> rfl

/-- All that raising a cause does. -/
theorem State.told_raise (s : State) (c : Cause) (inst : Nat) (w : About) : s.told (s.raise c inst w) c inst := by
  refine ⟨s.raise_tells c inst w, fun a h1 h2 => ?_, fun a h1 h2 => ?_, ?_⟩
  · rw [s.raise_reg c inst w a h1, if_neg (fun q => h2 q.1 q.2)]
  · have : a ≠ grFolded.addr := fun e => faultReg_ne_grFolded _ _ (e ▸ h2)
    rw [s.raise_reg c inst w a this, if_pos ⟨h1, h2⟩]
  · rw [s.raise_eq, s.raise_host]

end Sys2Proof.Machine
end

