-- ==== Sys2Proof/Laws/Bits.lean ====
section
/-! SUPPORT. Bit fields: each bit of a field read or replaced, and the fields of a stored register after one of them is
set (R12, R13). -/

namespace Sys2Proof.Machine

open Sys2Proof

theorem testBit_setBits (v lo w x i : Nat) :
    (setBits v lo w x).testBit i = if lo ≤ i ∧ i < lo + w then x.testBit (i - lo) else v.testBit i := by
  have e : setBits v lo w x = v % 2 ^ lo + 2 ^ lo * (x % 2 ^ w + 2 ^ w * (v / 2 ^ (lo + w))) := by
    unfold setBits; rw [pow_add]; ring
  rw [e, Nat.add_comm, Nat.testBit_two_pow_mul_add _ (Nat.mod_lt _ (Nat.two_pow_pos _))]
  by_cases h1 : i < lo
  · rw [if_pos h1, if_neg (by omega), Nat.testBit_mod_two_pow]; simp [h1]
  · rw [if_neg h1, Nat.add_comm (x % 2 ^ w), Nat.testBit_two_pow_mul_add _ (Nat.mod_lt _ (Nat.two_pow_pos _))]
    by_cases h2 : i - lo < w
    · rw [if_pos h2, if_pos (by omega), Nat.testBit_mod_two_pow]; simp [h2]
    · rw [if_neg h2, if_neg (by omega), Nat.testBit_div_two_pow]
      congr 1; omega

theorem testBit_bits (v lo w i : Nat) : (bits v lo w).testBit i = (decide (i < w) && v.testBit (lo + i)) := by
  unfold bits
  rw [Nat.testBit_mod_two_pow, Nat.testBit_div_two_pow, Nat.add_comm]

theorem bit_eq_testBit (v n : Nat) : bit v n = v.testBit n := by
  unfold bit
  rw [Nat.testBit_eq_decide_div_mod_eq]

theorem bits_lt (v lo w : Nat) : bits v lo w < 2 ^ w := Nat.mod_lt _ (Nat.two_pow_pos _)

theorem bits_setBits (v lo w x : Nat) : bits (setBits v lo w x) lo w = x % 2 ^ w := by
  apply Nat.eq_of_testBit_eq
  intro i
  rw [testBit_bits, testBit_setBits, Nat.testBit_mod_two_pow]
  by_cases h : i < w
  · rw [if_pos (by omega)]; simp [h]
  · simp [h]

/-- A field that a written one does not overlap is as it was. -/
theorem bits_setBits_of_disjoint (v lo w x lo' w' : Nat) (h : lo' + w' ≤ lo ∨ lo + w ≤ lo') :
    bits (setBits v lo w x) lo' w' = bits v lo' w' := by
  apply Nat.eq_of_testBit_eq
  intro i
  rw [testBit_bits, testBit_setBits, testBit_bits]
  by_cases hi : i < w'
  · rw [if_neg (by omega)]
  · simp [hi]

theorem setBits_setBits (v lo w x y : Nat) : setBits (setBits v lo w x) lo w y = setBits v lo w y := by
  apply Nat.eq_of_testBit_eq
  intro i
  simp only [testBit_setBits]
  split <;> rfl

theorem State.getF_setF (s : State) (f : Fld) (v : Nat) (hf : f.lo + f.wd ≤ 64) : (s.setF f v).getF f = v % 2 ^ f.wd := by
  unfold State.getF
  rw [State.reg_setF _ _ _ _ hf, if_pos rfl, bits_setBits]

theorem State.getF_setF_ne (s : State) (f g : Fld) (v : Nat) (hf : f.lo + f.wd ≤ 64)
    (h : g.addr ≠ f.addr ∨ g.lo + g.wd ≤ f.lo ∨ f.lo + f.wd ≤ g.lo) : (s.setF f v).getF g = s.getF g := by
  unfold State.getF
  rw [State.reg_setF _ _ _ _ hf]
  by_cases ha : g.addr = f.addr
  · rw [if_pos ha, ha]
    rcases h with h | h
    · exact absurd ha h
    · exact bits_setBits_of_disjoint _ _ _ _ _ _ h
  · rw [if_neg ha]

theorem State.getF_lt (s : State) (f : Fld) : s.getF f < 2 ^ f.wd := bits_lt _ _ _

/-- p0 reads 1 and discards (R86). -/
theorem Thread.pred_setPred (h : Thread) (n m : Nat) (v : Bool) (hn : n < 8) (hm : m < 8) :
    (h.setPred n v).pred m = if m = n ∧ m ≠ 0 then v else h.pred m := by
  unfold Thread.setPred Thread.pred
  rw [Nat.mod_eq_of_lt hn, Nat.mod_eq_of_lt hm]
  by_cases h0 : n = 0
  · rw [if_pos h0, if_neg (c := m = n ∧ m ≠ 0) (fun q => q.2 (q.1.trans h0))]
  · rw [if_neg h0]
    by_cases hm0 : m = 0
    · rw [if_pos hm0, if_neg (c := m = n ∧ m ≠ 0) (fun q => q.2 hm0), if_pos hm0]
    · rw [if_neg hm0, if_neg hm0]
      simp only [bit_eq_testBit, BitVec.toNat_ofNat, Nat.testBit_mod_two_pow, hm, decide_true, Bool.true_and,
        testBit_setBits]
      by_cases hmn : m = n
      · rw [if_pos (by omega), if_pos ⟨hmn, hm0⟩, hmn, Nat.sub_self]
        cases v <;> rfl
      · rw [if_neg (by omega), if_neg (fun q => hmn q.1)]

/-! ## Bytes (R7) -/

theorem leBytes_length (n v : Nat) : (leBytes n v).length = n := by
  induction n generalizing v with
  | zero => rfl
  | succ n ih => simp [leBytes, ih]

theorem leNat_leBytes (n v : Nat) : leNat (leBytes n v) = v % 256 ^ n := by
  induction n generalizing v with
  | zero => simp [leBytes, leNat, Nat.mod_one]
  | succ n ih =>
    have h : v % 256 ^ (n + 1) = v % 256 + 256 * (v / 256 % 256 ^ n) := by
      rw [Nat.pow_succ, Nat.mul_comm, Nat.mod_mul]
    simp [leBytes, leNat, ih, h]

end Sys2Proof.Machine
end

