-- ==== Sys2Proof/Laws/Issue.lean ====
section
/-! SUPPORT. The issue of a rill instruction: what taking a port leaves unchanged, and where an instruction that issues
runs (R86, R89, R92 to R94, R97). -/

namespace Sys2Proof.Machine

open Sys2Proof

/-! ## Contexts that differ in yielding bits only (R89) -/

/-- `c'` is `c` but for the yielding bits of threads that yield. -/
def Context.yieldsTo (c c' : Context) : Prop :=
  c' = { c with threads := c'.threads } ∧
  ∀ n, match c.thread? n, c'.thread? n with
    | some h, some h' => h' = { h with yielding := h'.yielding } ∧ (h.yielding = 0 → h'.yielding = 0)
    | none, none => True
    | _, _ => False

theorem Context.yieldsTo_refl (c : Context) : c.yieldsTo c := by
  refine ⟨rfl, fun n => ?_⟩
  cases c.thread? n with
  | none => trivial
  | some h => exact ⟨rfl, fun h => h⟩

theorem Context.yieldsTo_trans {a b c : Context} (h1 : a.yieldsTo b) (h2 : b.yieldsTo c) : a.yieldsTo c := by
  obtain ⟨e1, t1⟩ := h1
  obtain ⟨e2, t2⟩ := h2
  refine ⟨by rw [e2, e1], fun n => ?_⟩
  have u1 := t1 n
  have u2 := t2 n
  cases ha : a.thread? n <;> cases hb : b.thread? n <;> cases hc : c.thread? n <;> simp only [ha, hb, hc] at u1 u2 ⊢
  obtain ⟨p1, q1⟩ := u1
  obtain ⟨p2, q2⟩ := u2
  exact ⟨by rw [p2, p1], fun h => q2 (q1 h)⟩

/-- `t` is `s` but for yielding bits, in the contexts. -/
def State.yieldsTo (s t : State) : Prop :=
  t = { s with ctxs := t.ctxs } ∧
  ∀ k, match s.ctx? k, t.ctx? k with
    | some c, some c' => c.yieldsTo c'
    | none, none => True
    | _, _ => False

theorem State.yieldsTo_refl (s : State) : s.yieldsTo s := by
  refine ⟨rfl, fun k => ?_⟩
  cases s.ctx? k with
  | none => trivial
  | some c => exact c.yieldsTo_refl

theorem State.yieldsTo_trans {a b c : State} (h1 : a.yieldsTo b) (h2 : b.yieldsTo c) : a.yieldsTo c := by
  obtain ⟨e1, t1⟩ := h1
  obtain ⟨e2, t2⟩ := h2
  refine ⟨by rw [e2, e1], fun k => ?_⟩
  have u1 := t1 k
  have u2 := t2 k
  cases ha : a.ctx? k <;> cases hb : b.ctx? k <;> cases hc : c.ctx? k <;> simp only [ha, hb, hc] at u1 u2 ⊢
  exact Context.yieldsTo_trans u1 u2

theorem State.yieldsTo_setCtx (s : State) (k : Nat) (c c' : Context) (h : s.ctx? k = some c) (hc : c.yieldsTo c') :
    s.yieldsTo (s.setCtx k c') := by
  refine ⟨rfl, fun k' => ?_⟩
  rw [State.ctx?_setCtx]
  by_cases hk : k' = k
  · subst hk; simpa [h] using hc
  · simp only [hk, if_false]
    cases s.ctx? k' with
    | none => trivial
    | some c => exact c.yieldsTo_refl

theorem State.yieldsTo_foldl {α : Type} (l : List α) (f : State → α → State) (hf : ∀ (s : State) (x : α), s.yieldsTo (f s x)) (s : State) :
    s.yieldsTo (l.foldl f s) := by
  induction l generalizing s with
  | nil => exact s.yieldsTo_refl
  | cons x l ih => exact State.yieldsTo_trans (hf s x) (ih _)

theorem setBits_zero (port : Nat) : BitVec.ofNat 2 (setBits 0 port 1 0) = 0 := by simp [setBits]

theorem State.yieldsTo_passYield (s : State) (r port : Nat) (f : Nat → Bool) : s.yieldsTo (s.passYield r port f) := by
  unfold State.passYield
  apply State.yieldsTo_foldl
  intro s x
  cases hx : s.ctx? x.1 with
  | none => exact s.yieldsTo_refl
  | some c =>
    refine State.yieldsTo_setCtx s x.1 c { c with threads := c.threads.map (fun h =>
        if f h.hw then { h with yielding := BitVec.ofNat 2 (setBits h.yielding.toNat port 1 0) } else h) } hx ⟨rfl, fun n => ?_⟩
    simp only [Context.thread?, List.getElem?_map]
    cases c.threads[n]? with
    | none => trivial
    | some h =>
      simp only [Option.map_some]
      split
      · refine ⟨rfl, fun h0 => ?_⟩
        simp only [h0]
        exact setBits_zero port
      · exact ⟨rfl, fun h => h⟩

/-- Taking a port moves one of its pointers and passes yielding threads; nothing else changes. -/
theorem State.takePort_eq (s : State) (r h : Nat) :
    ∃ p0 p1, (s.setRill r { s.rill r with port0 := p0, port1 := p1 }).yieldsTo (s.takePort r h) := by
  unfold State.takePort
  simp only
  split
  · exact ⟨(h + 1) % 32, (s.rill r).port1, State.yieldsTo_passYield _ _ _ _⟩
  · exact ⟨(s.rill r).port0, (h + 1) % 32, State.yieldsTo_passYield _ _ _ _⟩

/-! ## The effect of an instruction that issues -/

theorem State.countIssue_eq (s : State) (k t : Nat) : s.countIssue k t = { s with dbg := (s.countIssue k t).dbg } := by
  unfold State.countIssue State.credit
  split
  · split <;> rfl
  · rfl

theorem State.noteBlocked_eq (s : State) (k : Nat) : s.noteBlocked k = { s with ctxs := (s.noteBlocked k).ctxs } := by
  unfold State.noteBlocked State.setCtx
  split
  · rfl
  · simp only; split <;> rfl

theorem State.noteBlocked_ctx? (s : State) (k j : Nat) :
    (s.noteBlocked k).ctx? j = (s.ctx? j).map (fun c =>
      { c with blockedSince := ((((s.noteBlocked k).ctx? j).map (fun c => c.blockedSince)).getD none) }) := by
  unfold State.noteBlocked
  cases hk : s.ctx? k with
  | none => simp only; cases s.ctx? j <;> rfl
  | some c =>
    simp only
    split
    · cases s.ctx? j <;> rfl
    · rw [State.ctx?_setCtx]
      by_cases hj : j = k
      · subst hj; simp [hk]
      · simp only [hj, if_false]
        cases s.ctx? j <;> rfl

/-- Threads are as they were after the block mark of a context. -/
theorem State.noteBlocked_thread (s : State) (k j n : Nat) :
    ((s.noteBlocked k).ctx? j).bind (fun c => c.thread? n) = (s.ctx? j).bind (fun c => c.thread? n) := by
  rw [State.noteBlocked_ctx?]
  cases s.ctx? j <;> rfl

/-- An instruction that issues: what it does, it does to the state in which a port has taken the thread. -/
theorem State.issue_eq (s : State) (x : Issue) (r : Nat) (c : Context) (h : Thread) (f : Shape) (eff : Effect)
    (hi : s.canIssue x r c h) :
    ∃ s1 c1, s1 = s.takePort r h.hw ∧ s1.ctx? (ctxKey x.part x.ctx) = some c1 ∧ c.yieldsTo c1 ∧ c1.thread? x.thr = some h ∧
      s.issue x f eff = if f.illegal then s1.threadFault (ctxKey x.part x.ctx) x.thr r kRlIllegalInstr
        else if x.guard h then
          ((eff s1 (ctxKey x.part x.ctx) x.thr r c1 h).countIssue (ctxKey x.part x.ctx) x.thr).noteBlocked (ctxKey x.part x.ctx)
        else (s1.credit x.part 2 1).setCtx (ctxKey x.part x.ctx) (c1.setThread x.thr h.advance) := by
  obtain ⟨h1, h2, h3, h4, h5⟩ := hi
  have hctx : s.ctx? (ctxKey x.part x.ctx) = some c ∧ c.thread? x.thr = some h := by
    unfold State.issuer? at h1
    cases hk : s.ctx? (ctxKey x.part x.ctx) with
    | none => simp [hk] at h1
    | some c0 =>
      simp only [hk] at h1
      split at h1
      · split at h1
        · next hh _ => simp only [Option.some.injEq, Prod.mk.injEq] at h1; obtain ⟨_, rfl, rfl⟩ := h1; exact ⟨rfl, hh⟩
        · exact absurd h1 (by simp)
      · exact absurd h1 (by simp)
  obtain ⟨p0, p1, e1, e2⟩ := State.takePort_eq s r h.hw
  have hk := e2 (ctxKey x.part x.ctx)
  simp only [State.ctx?_setRill, hctx.1] at hk
  cases hc1 : (s.takePort r h.hw).ctx? (ctxKey x.part x.ctx) with
  | none => simp [hc1] at hk
  | some c1 =>
    simp only [hc1] at hk
    have ht := hk.2 x.thr
    cases hh1 : c1.thread? x.thr with
    | none => simp [hctx.2, hh1] at ht
    | some h' =>
      simp only [hctx.2, hh1] at ht
      have hy := ht.2 h2
      have heq : h' = h := by
        rw [ht.1, hy, ← h2]
      subst heq
      refine ⟨_, c1, rfl, hc1, hk, hh1, ?_⟩
      unfold State.issue
      simp only [h1, h2, if_true, hctx.1, hctx.2, hc1, hh1]
      have hl : c1.launch = c.launch := by rw [hk.1]
      have hfo : (s.takePort r h'.hw).fetchOk x.part c1.launch h'.pc.toNat = true := by
        have : ∀ p l n, (s.takePort r h'.hw).fetchOk p l n = s.fetchOk p l n := by
          intro p l n; unfold State.fetchOk State.launch? State.part; rw [e1]; rfl
        rw [this, hl]; exact h3
      have hrill : (s.takePort r h'.hw).rill r = { s.rill r with port0 := p0, port1 := p1 } := by
        unfold State.rill; rw [e1]; simp [State.setRill, State.rill]
      have hls : (s.takePort r h'.hw).lsHolds (ctxKey x.part x.ctx) x.thr r f = false := by
        unfold State.lsHolds
        rw [hrill, List.any_eq_false]
        intro q hq
        have := h5 q hq
        simp only [Bool.and_eq_true, decide_eq_true_eq, not_and]
        exact fun hc => absurd hc this
      simp only [hfo, hrill, h4, hls]
      simp [h2]

/-- An instruction that executes: its effect runs on the state in which a port has taken the thread. -/
theorem State.issue_runs (s : State) (x : Issue) (r : Nat) (c : Context) (h : Thread) (f : Shape) (eff : Effect)
    (hi : s.canIssue x r c h) (hf : f.illegal = false) (hg : x.guard h = true) :
    ∃ s1 c1, s1 = s.takePort r h.hw ∧ s1.ctx? (ctxKey x.part x.ctx) = some c1 ∧ c.yieldsTo c1 ∧ c1.thread? x.thr = some h ∧
      s.issue x f eff =
        ((eff s1 (ctxKey x.part x.ctx) x.thr r c1 h).countIssue (ctxKey x.part x.ctx) x.thr).noteBlocked (ctxKey x.part x.ctx) := by
  obtain ⟨s1, c1, e1, e2, e3, e4, e5⟩ := s.issue_eq x r c h f eff hi
  rw [hf, hg] at e5
  exact ⟨s1, c1, e1, e2, e3, e4, e5⟩

/-- What a port's taking leaves unchanged. -/
theorem State.takePort_frame (s : State) (r h : Nat) :
    (s.takePort r h) = { s with rills := (s.takePort r h).rills, ctxs := (s.takePort r h).ctxs } := by
  obtain ⟨p0, p1, e, -⟩ := State.takePort_eq s r h
  rw [e]; rfl

theorem State.takePort_keeps (s : State) (r h k n : Nat) :
    (((s.takePort r h).ctx? k).bind (fun c => c.thread? n)).map Thread.arch =
      ((s.ctx? k).bind (fun c => c.thread? n)).map Thread.arch := by
  obtain ⟨p0, p1, -, e⟩ := State.takePort_eq s r h
  have hk := e k
  simp only [State.ctx?_setRill] at hk
  cases ha : s.ctx? k <;> cases hb : (s.takePort r h).ctx? k <;> simp only [ha, hb] at hk
  · rfl
  · have ht := hk.2 n
    simp only [Option.bind_some]
    rename_i c c'
    cases hc : c.thread? n <;> cases hd : c'.thread? n <;> simp only [hc, hd] at ht
    · rfl
    · simp only [Option.map_some, Thread.arch]
      rw [ht.1]

/-! ## Instructions whose effect is on their thread -/

theorem Context.thread?_setThread (c : Context) (n m : Nat) (h h' : Thread) (hn : c.thread? n = some h) :
    (c.setThread n h').thread? m = if m = n then some h' else c.thread? m := by
  unfold Context.thread? Context.setThread at *
  simp only
  rw [List.getElem?_set]
  by_cases hm : m = n
  · subst hm
    have : m < c.threads.length := by
      by_contra hc
      rw [List.getElem?_eq_none (by omega)] at hn; exact absurd hn (by simp)
    simp [this]
  · have hm' : ¬ n = m := fun e => hm e.symm
    simp [hm, hm']

/-- What programs see of every thread but one is as it was after a port's taking and a change of that one. -/
theorem State.keeps_step (s s1 : State) (k n : Nat) (c1 : Context) (h h' : Thread)
    (hc : s1.ctx? k = some c1) (hh : c1.thread? n = some h) : s1.keepsThreads (s1.setCtx k (c1.setThread n h')) k n := by
  intro k' n' hne
  rw [State.ctx?_setCtx]
  by_cases hk : k' = k
  · subst hk
    rcases hne with hne | hne
    · exact absurd rfl hne
    · simp [hc, Context.thread?_setThread c1 n n' h h' hh, hne]
  · simp [hk]

theorem State.keepsThreads_trans {a b c : State} {k n : Nat} (h1 : a.keepsThreads b k n) (h2 : b.keepsThreads c k n) :
    a.keepsThreads c k n := fun k' n' h => (h2 k' n' h).trans (h1 k' n' h)

theorem State.keepsThreads_takePort (s : State) (r h k n : Nat) : s.keepsThreads (s.takePort r h) k n :=
  fun k' n' _ => s.takePort_keeps r h k' n'

theorem State.keepsThreads_noteBlocked (s : State) (j k n : Nat) : s.keepsThreads (s.noteBlocked j) k n :=
  fun k' n' _ => by rw [State.noteBlocked_thread]

theorem State.keepsThreads_of_ctxs (s t : State) (k n : Nat) (h : t.ctxs = s.ctxs) : s.keepsThreads t k n :=
  fun k' n' _ => by unfold State.ctx?; rw [h]

theorem State.keepsRills_trans {a b c : State} (h1 : a.keepsRills b) (h2 : b.keepsRills c) : a.keepsRills c := by
  refine ⟨fun r => ?_, fun k => (h2.2 k).trans (h1.2 k)⟩
  have e1 := h1.1 r
  have e2 := h2.1 r
  rw [e2, e1]

theorem State.keepsRills_takePort (s : State) (r h : Nat) : s.keepsRills (s.takePort r h) := by
  obtain ⟨p0, p1, e1, e2⟩ := State.takePort_eq s r h
  refine ⟨fun q => ?_, fun k => ?_⟩
  · have : (s.takePort r h).rill q = (s.setRill r { s.rill r with port0 := p0, port1 := p1 }).rill q := by
      show (s.takePort r h).rills.getD q Rill.reset = _
      rw [e1]; rfl
    rw [this, State.rill_setRill]
    split
    · next hq => subst hq; rfl
    · rfl
  · have hk := e2 k
    simp only [State.ctx?_setRill] at hk
    cases ha : s.ctx? k <;> cases hb : (s.takePort r h).ctx? k <;> simp only [ha, hb] at hk
    · rfl
    · simp only [Option.map_some]; rw [hk.1]

theorem State.keepsRills_setThread (s : State) (k n : Nat) (c : Context) (h' : Thread) (hc : s.ctx? k = some c) :
    s.keepsRills (s.setCtx k (c.setThread n h')) := by
  refine ⟨fun r => rfl, fun j => ?_⟩
  rw [State.ctx?_setCtx]
  by_cases hj : j = k
  · subst hj; simp [hc, Context.setThread]
  · simp [hj]

theorem State.keepsRills_noteBlocked (s : State) (k : Nat) : s.keepsRills (s.noteBlocked k) := by
  refine ⟨fun r => ?_, fun j => ?_⟩
  · rw [State.noteBlocked_eq]; rfl
  · rw [State.noteBlocked_ctx?]; cases s.ctx? j <;> rfl

/-- Nothing but rills, contexts and counts differs. -/
def State.threadsOnly (s t : State) : Prop := t = { s with rills := t.rills, ctxs := t.ctxs, dbg := t.dbg }

theorem State.threadsOnly_trans {a b c : State} (h1 : a.threadsOnly b) (h2 : b.threadsOnly c) : a.threadsOnly c := by
  unfold State.threadsOnly at *; rw [h2, h1]

/-- An instruction whose effect is to give its thread a new state runs as `ranAs` says. -/
theorem State.issue_ranAs_of (s : State) (x : Issue) (r : Nat) (c : Context) (h : Thread) (f : Shape) (eff : Effect)
    (g : State → Context → Thread)
    (hi : s.canIssue x r c h) (hf : f.illegal = false) (hg : x.guard h = true)
    (he : ∀ s1 c1, eff s1 (ctxKey x.part x.ctx) x.thr r c1 h =
      s1.setCtx (ctxKey x.part x.ctx) (c1.setThread x.thr (g s1 c1))) :
    ∃ s1 c1, s1 = s.takePort r h.hw ∧ c.yieldsTo c1 ∧ s.ranAs (s.issue x f eff) x (fun h' => h' = g s1 c1) := by
  obtain ⟨s1, c1, e1, e2, e3, e4, e5⟩ := s.issue_runs x r c h f _ hi hf hg
  refine ⟨s1, c1, e1, e3, ?_⟩
  rw [e5, he]
  set k := ctxKey x.part x.ctx
  set h' := g s1 c1
  set s2 := s1.setCtx k (c1.setThread x.thr h')
  have hd : (s2.countIssue k x.thr).ctxs = s2.ctxs := by rw [State.countIssue_eq]
  have hctx : ∀ j, (s2.countIssue k x.thr).ctx? j = s2.ctx? j := fun j => by unfold State.ctx?; rw [hd]
  refine ⟨⟨h', ?_, rfl⟩, ?_, ?_, ?_⟩
  · unfold State.thread?
    rw [State.noteBlocked_thread, hctx, State.ctx?_setCtx, if_pos rfl, Option.bind_some,
      Context.thread?_setThread c1 x.thr x.thr h h' e4, if_pos rfl]
  · refine State.keepsThreads_trans (s.keepsThreads_takePort r h.hw k x.thr) ?_
    rw [← e1]
    refine State.keepsThreads_trans (State.keeps_step s s1 k x.thr c1 h h' e2 e4) ?_
    exact State.keepsThreads_trans (State.keepsThreads_of_ctxs _ _ _ _ hd) (State.keepsThreads_noteBlocked _ _ _ _)
  · refine State.keepsRills_trans (s.keepsRills_takePort r h.hw) ?_
    rw [← e1]
    refine State.keepsRills_trans (s1.keepsRills_setThread k x.thr c1 h' e2) ?_
    refine State.keepsRills_trans ⟨fun r => ?_, fun j => ?_⟩ (State.keepsRills_noteBlocked _ k)
    · rw [State.countIssue_eq]; rfl
    · rw [hctx]
  · have h1 : s.threadsOnly s1 := by rw [e1]; unfold State.threadsOnly; rw [State.takePort_frame]
    have h2 : s1.threadsOnly s2 := rfl
    have h3 : s2.threadsOnly (s2.countIssue k x.thr) := by unfold State.threadsOnly; rw [State.countIssue_eq]
    have h4 : (s2.countIssue k x.thr).threadsOnly ((s2.countIssue k x.thr).noteBlocked k) := by
      unfold State.threadsOnly; rw [State.noteBlocked_eq]
    exact State.threadsOnly_trans h1 (State.threadsOnly_trans h2 (State.threadsOnly_trans h3 h4))

theorem State.issue_ranAs (s : State) (x : Issue) (r : Nat) (c : Context) (h : Thread) (f : Shape)
    (g : State → Nat → Nat → Nat → Context → Thread → Thread)
    (hi : s.canIssue x r c h) (hf : f.illegal = false) (hg : x.guard h = true) :
    ∃ s1 c1, s1 = s.takePort r h.hw ∧ c.yieldsTo c1 ∧
      s.ranAs (s.issue x f (fun s k t r c h => s.setCtx k (c.setThread t (g s k t r c h)))) x
        (fun h' => h' = g s1 (ctxKey x.part x.ctx) x.thr r c1 h) :=
  s.issue_ranAs_of x r c h f _ (fun s1 c1 => g s1 (ctxKey x.part x.ctx) x.thr r c1 h) hi hf hg (fun _ _ => rfl)

theorem State.credit_eq (s : State) (p e n : Nat) : s.credit p e n = { s with dbg := (s.credit p e n).dbg } := by
  unfold State.credit; split <;> rfl

/-- An instruction whose guard is false goes by (R93). -/
theorem State.issue_guarded (s : State) (x : Issue) (r : Nat) (c : Context) (h : Thread) (f : Shape) (eff : Effect)
    (hi : s.canIssue x r c h) (hf : f.illegal = false) (hg : x.guard h = false) :
    s.ranAs (s.issue x f eff) x (fun h' => h' = h.advance) := by
  obtain ⟨s1, c1, e1, e2, e3, e4, e5⟩ := s.issue_eq x r c h f eff hi
  rw [hf, hg] at e5
  simp only [Bool.false_eq_true, if_false] at e5
  rw [e5]
  set k := ctxKey x.part x.ctx
  set s2 := s1.credit x.part 2 1
  have h2 : s2 = { s1 with dbg := s2.dbg } := State.credit_eq _ _ _ _
  have hc2 : s2.ctx? k = some c1 := by
    have : s2.ctxs = s1.ctxs := by rw [h2]
    unfold State.ctx?; rw [this]; exact e2
  refine ⟨⟨h.advance, ?_, rfl⟩, ?_, ?_, ?_⟩
  · unfold State.thread?
    rw [State.ctx?_setCtx, if_pos rfl, Option.bind_some, Context.thread?_setThread c1 x.thr x.thr h _ e4, if_pos rfl]
  · refine State.keepsThreads_trans (s.keepsThreads_takePort r h.hw k x.thr) ?_
    rw [← e1]
    refine State.keepsThreads_trans (State.keepsThreads_of_ctxs s1 s2 _ _ (by rw [h2])) ?_
    exact State.keeps_step s s2 k x.thr c1 h _ hc2 e4
  · refine State.keepsRills_trans (s.keepsRills_takePort r h.hw) ?_
    rw [← e1]
    refine State.keepsRills_trans (b := s2) ⟨fun r => ?_, fun j => ?_⟩ (State.keepsRills_setThread _ k x.thr c1 _ hc2)
    · rw [h2]; rfl
    · rw [h2]; rfl
  · have h1 : s.threadsOnly s1 := by rw [e1]; unfold State.threadsOnly; rw [State.takePort_frame]
    have h3 : s1.threadsOnly s2 := by unfold State.threadsOnly; rw [h2]
    have h4 : s2.threadsOnly (s2.setCtx k (c1.setThread x.thr h.advance)) := rfl
    exact State.threadsOnly_trans h1 (State.threadsOnly_trans h3 h4)

/-! ## Threads and their registers -/

theorem State.ranAs_mono {s t : State} {x : Issue} {p q : Thread → Prop} (h : s.ranAs t x p) (hpq : ∀ a, p a → q a) :
    s.ranAs t x q := by
  obtain ⟨⟨h', h1, h2⟩, h3⟩ := h
  exact ⟨⟨h', h1, hpq _ h2⟩, h3⟩

theorem Context.yieldsTo_length {c c' : Context} (h : c.yieldsTo c') : c'.threads.length = c.threads.length := by
  have h2 := h.2
  apply Nat.le_antisymm
  · by_contra hn
    have := h2 c.threads.length
    simp only [Context.thread?] at this
    rw [List.getElem?_eq_none (Nat.le_refl _), List.getElem?_eq_getElem (by omega)] at this
    exact this
  · by_contra hn
    have := h2 c'.threads.length
    simp only [Context.thread?] at this
    rw [List.getElem?_eq_none (l := c'.threads) (Nat.le_refl _), List.getElem?_eq_getElem (by omega)] at this
    exact this

/-- s0 discards (R86). -/
theorem Thread.reg_setReg (h : Thread) (rd n : BitVec 5) (v : W64) :
    (h.setReg rd v).reg n = if n = rd ∧ n ≠ 0 then v else h.reg n := by
  unfold Thread.setReg Thread.reg
  by_cases h0 : rd = 0
  · rw [if_pos h0]
    by_cases hn : n = 0
    · rw [if_pos hn, if_neg (fun h => h.2 hn)]
    · rw [if_neg hn, if_neg (fun h => hn (h.1.trans h0))]
  · rw [if_neg h0]
    by_cases hn : n = 0
    · rw [if_pos hn, if_neg (fun h => h.2 hn), if_pos hn]
    · rw [if_neg hn, if_neg hn]
      by_cases hv : v = 0
      · rw [if_pos hv]
        by_cases hr : n = rd
        · rw [if_pos ⟨hr, hn⟩, hr, hv]; simp [Tab.getD]
        · have hm : n.toNat ≠ rd.toNat := fun e => hr (BitVec.eq_of_toNat_eq e)
          rw [if_neg (fun h => hr h.1)]; simp [Tab.getD, hm]
      · rw [if_neg hv]
        by_cases hr : n = rd
        · rw [if_pos ⟨hr, hn⟩, hr]; simp [Tab.getD]
        · have hm : n.toNat ≠ rd.toNat := fun e => hr (BitVec.eq_of_toNat_eq e)
          rw [if_neg (fun h => hr h.1)]; simp [Tab.getD, hm]

@[simp] theorem Thread.setReg_preds (h : Thread) (rd : BitVec 5) (v : W64) : (h.setReg rd v).preds = h.preds := by
  unfold Thread.setReg; split <;> [rfl; split <;> rfl]
@[simp] theorem Thread.setReg_pc (h : Thread) (rd : BitVec 5) (v : W64) : (h.setReg rd v).pc = h.pc := by
  unfold Thread.setReg; split <;> [rfl; split <;> rfl]
@[simp] theorem Thread.setReg_tile (h : Thread) (rd : BitVec 5) (v : W64) : (h.setReg rd v).tile = h.tile := by
  unfold Thread.setReg; split <;> [rfl; split <;> rfl]
@[simp] theorem Thread.setReg_st (h : Thread) (rd : BitVec 5) (v : W64) : (h.setReg rd v).st = h.st := by
  unfold Thread.setReg; split <;> [rfl; split <;> rfl]
@[simp] theorem Thread.setReg_wait (h : Thread) (rd : BitVec 5) (v : W64) : (h.setReg rd v).wait = h.wait := by
  unfold Thread.setReg; split <;> [rfl; split <;> rfl]
@[simp] theorem Thread.setReg_hw (h : Thread) (rd : BitVec 5) (v : W64) : (h.setReg rd v).hw = h.hw := by
  unfold Thread.setReg; split <;> [rfl; split <;> rfl]
@[simp] theorem Thread.setReg_yielding (h : Thread) (rd : BitVec 5) (v : W64) : (h.setReg rd v).yielding = h.yielding := by
  unfold Thread.setReg; split <;> [rfl; split <;> rfl]
@[simp] theorem Thread.advance_reg (h : Thread) (n : BitVec 5) : h.advance.reg n = h.reg n := rfl
@[simp] theorem Thread.advance_preds (h : Thread) : h.advance.preds = h.preds := rfl
@[simp] theorem Thread.advance_pc (h : Thread) : h.advance.pc = h.pc + 8 := rfl
@[simp] theorem Thread.advance_tile (h : Thread) : h.advance.tile = h.tile := rfl
@[simp] theorem Thread.setPred_regs (h : Thread) (n : Nat) (v : Bool) : (h.setPred n v).regs = h.regs := by
  unfold Thread.setPred; split <;> rfl
@[simp] theorem Thread.setPred_reg (h : Thread) (n : Nat) (v : Bool) (m : BitVec 5) : (h.setPred n v).reg m = h.reg m := by
  unfold Thread.reg; rw [Thread.setPred_regs]
@[simp] theorem Thread.setPred_pc (h : Thread) (n : Nat) (v : Bool) : (h.setPred n v).pc = h.pc := by
  unfold Thread.setPred; split <;> rfl
@[simp] theorem Thread.setPred_tile (h : Thread) (n : Nat) (v : Bool) : (h.setPred n v).tile = h.tile := by
  unfold Thread.setPred; split <;> rfl

end Sys2Proof.Machine
end

