-- ==== Sys2Proof/Laws/Memory.lean ====
section
/-! SUPPORT. The memories: what a byte reads as after each operation, and that every operation keeps the canonical
form (addresses strictly rising, no byte 0). -/

namespace Sys2Proof

/-! ## Tables -/

theorem Tab.sorted_cons {α : Type} (x : Nat × α) (t : Tab α) :
    Tab.sorted (x :: t) = true ↔ (∀ y ∈ t, x.1 < y.1) ∧ Tab.sorted t = true := by
  induction t generalizing x with
  | nil => simp [Tab.sorted]
  | cons y t ih =>
    simp only [Tab.sorted, Bool.and_eq_true, decide_eq_true_eq, List.mem_cons, forall_eq_or_imp]
    constructor
    · rintro ⟨h, hs⟩
      exact ⟨⟨h, fun z hz => Nat.lt_trans h (((ih y).1 hs).1 z hz)⟩, hs⟩
    · rintro ⟨⟨h, -⟩, hs⟩
      exact ⟨h, hs⟩

theorem Tab.sorted_filter {α : Type} (t : Tab α) (f : Nat × α → Bool) (h : Tab.sorted t = true) :
    Tab.sorted (t.filter f : Tab α) = true := by
  induction t with
  | nil => simp [Tab.sorted]
  | cons x t ih =>
    obtain ⟨hx, ht⟩ := (Tab.sorted_cons x t).1 h
    by_cases hf : f x
    · rw [List.filter_cons_of_pos hf]
      exact (Tab.sorted_cons _ _).2 ⟨fun y hy => hx y (List.mem_filter.1 hy).1, ih ht⟩
    · rw [List.filter_cons_of_neg hf]
      exact ih ht

theorem Tab.mem_put {α : Type} (t : Tab α) (n : Nat) (v : α) (y : Nat × α) (h : y ∈ Tab.put t n v) :
    y = (n, v) ∨ y ∈ t := by
  induction t with
  | nil => simpa [Tab.put] using h
  | cons x t ih =>
    simp only [Tab.put] at h
    split at h
    · rcases List.mem_cons.1 h with h | h
      · exact .inl h
      · exact .inr h
    · split at h
      · rcases List.mem_cons.1 h with h | h
        · exact .inl h
        · exact .inr (List.mem_cons_of_mem _ h)
      · rcases List.mem_cons.1 h with h | h
        · exact .inr (by rw [h]; exact List.mem_cons_self)
        · rcases ih h with h | h
          · exact .inl h
          · exact .inr (List.mem_cons_of_mem _ h)

theorem Tab.sorted_put {α : Type} (t : Tab α) (n : Nat) (v : α) (h : Tab.sorted t = true) :
    Tab.sorted (Tab.put t n v) = true := by
  induction t with
  | nil => simp [Tab.put, Tab.sorted]
  | cons x t ih =>
    obtain ⟨hx, ht⟩ := (Tab.sorted_cons x t).1 h
    simp only [Tab.put]
    split
    · next hn =>
      refine (Tab.sorted_cons _ _).2 ⟨fun y hy => ?_, h⟩
      rcases List.mem_cons.1 hy with hy | hy
      · rw [hy]; exact hn
      · exact Nat.lt_trans hn (hx y hy)
    · split
      · next hn => exact (Tab.sorted_cons _ _).2 ⟨fun y hy => by rw [hn]; exact hx y hy, ht⟩
      · refine (Tab.sorted_cons _ _).2 ⟨fun y hy => ?_, ih ht⟩
        rcases Tab.mem_put t n v y hy with hy | hy
        · rw [hy]; simp only; omega
        · exact hx y hy

namespace Machine

/-! ## One byte -/

@[simp] theorem Memory.read_nil (a : Nat) : Memory.read [] a = 0 := rfl

@[simp] theorem Memory.read_write (m : List Host.Cell) (a c : Nat) (b : Byte) :
    Memory.read (Memory.write m a b) c = if c = a then b else Memory.read m c := by
  simp only [Memory.read, Memory.write]
  split
  · next h => rw [Tab.at?_del]; split <;> simp [h]
  · rw [Tab.at?_put]; split <;> rfl

theorem Memory.wf_iff (m : List Host.Cell) :
    Memory.wf m = true ↔ Tab.sorted m = true ∧ ∀ p ∈ m, p.2 ≠ 0 := by
  simp [Memory.wf]

theorem Memory.wf_nil : Memory.wf [] = true := rfl

theorem Memory.wf_filter (m : List Host.Cell) (f : Host.Cell → Bool) (h : Memory.wf m = true) :
    Memory.wf (m.filter f) = true := by
  rw [Memory.wf_iff] at h ⊢
  exact ⟨Tab.sorted_filter m f h.1, fun p hp => h.2 p (List.mem_filter.1 hp).1⟩

theorem Memory.wf_write (m : List Host.Cell) (a : Nat) (b : Byte) (h : Memory.wf m = true) :
    Memory.wf (Memory.write m a b) = true := by
  unfold Memory.write
  split
  · exact Memory.wf_filter m _ h
  · next hb =>
    rw [Memory.wf_iff] at h ⊢
    refine ⟨Tab.sorted_put m a b h.1, fun p hp => ?_⟩
    rcases Tab.mem_put m a b p hp with hp | hp
    · rw [hp]; exact hb
    · exact h.2 p hp

/-! ## Several bytes -/

theorem Memory.wf_writeN (m : List Host.Cell) (a : Nat) (bs : List Byte) (h : Memory.wf m = true) :
    Memory.wf (Memory.writeN m a bs) = true := by
  induction bs generalizing m a with
  | nil => exact h
  | cons b t ih => exact ih _ _ (Memory.wf_write m a b h)

theorem Memory.wf_zero (m : List Host.Cell) (a n : Nat) (h : Memory.wf m = true) :
    Memory.wf (Memory.zero m a n) = true := Memory.wf_filter m _ h

theorem Memory.read_writeN (m : List Host.Cell) (a c : Nat) (bs : List Byte) :
    Memory.read (Memory.writeN m a bs) c =
      if a ≤ c ∧ c < a + bs.length then bs.getD (c - a) 0 else Memory.read m c := by
  induction bs generalizing m a with
  | nil => simp [Memory.writeN]
  | cons b t ih =>
    simp only [Memory.writeN, ih, Memory.read_write, List.length_cons]
    by_cases h1 : c = a
    · subst h1; simp
    · by_cases h2 : a + 1 ≤ c ∧ c < a + 1 + t.length
      · have h3 : a ≤ c ∧ c < a + (t.length + 1) := by omega
        have h4 : c - a = (c - (a + 1)) + 1 := by omega
        rw [if_pos h2, if_pos h3, h4]; simp
      · have h3 : ¬ (a ≤ c ∧ c < a + (t.length + 1)) := by omega
        rw [if_neg h2, if_neg h3, if_neg h1]

theorem Memory.readN_length (m : List Host.Cell) (a n : Nat) : (Memory.readN m a n).length = n := by
  induction n generalizing a with
  | zero => rfl
  | succ n ih => simp [Memory.readN, ih]

theorem Memory.readN_congr (m m' : List Host.Cell) (a n : Nat)
    (h : ∀ c, a ≤ c → c < a + n → Memory.read m c = Memory.read m' c) : Memory.readN m a n = Memory.readN m' a n := by
  induction n generalizing a with
  | zero => rfl
  | succ n ih =>
    simp only [Memory.readN]
    rw [h a (Nat.le_refl a) (by omega), ih (a + 1) (fun c h1 h2 => h c (by omega) (by omega))]

theorem Memory.readN_writeN (m : List Host.Cell) (a : Nat) (bs : List Byte) :
    Memory.readN (Memory.writeN m a bs) a bs.length = bs := by
  induction bs generalizing m a with
  | nil => rfl
  | cons b t ih =>
    simp only [Memory.writeN, List.length_cons, Memory.readN]
    rw [ih, Memory.read_writeN]
    have h : ¬ (a + 1 ≤ a ∧ a < a + 1 + t.length) := by omega
    rw [if_neg h, Memory.read_write, if_pos rfl]

theorem Memory.wf_foldl_write {α : Type} (l : List α) (f : α → Nat) (g : α → Byte) (m : List Host.Cell)
    (h : Memory.wf m = true) : Memory.wf (l.foldl (fun m x => Memory.write m (f x) (g x)) m) = true := by
  induction l generalizing m with
  | nil => exact h
  | cons x t ih => exact ih _ (Memory.wf_write m _ _ h)

theorem pasteCells_wf (m : List Host.Cell) (base n : Nat) (cells : List Host.Cell) (h : Memory.wf m = true) :
    Memory.wf (pasteCells m base n cells) = true :=
  Memory.wf_foldl_write cells _ _ _ (Memory.wf_zero m base n h)

/-! ## Every memory of the state -/

/-- The memories of the reset state are in canonical form. -/
theorem State.reset_wf : Memory.wf State.reset.mem.cells = true ∧ Memory.wf State.reset.mem.lineCells = true ∧
    Memory.wf State.reset.mem.flash = true ∧ Memory.wf State.reset.mem.host = true ∧
    Memory.wf State.reset.grotto.nor = true := ⟨rfl, rfl, rfl, rfl, rfl⟩

end Machine

end Sys2Proof
end

