-- ==== Sys2Proof/Laws/Rows.lean ====
section
/-! SUPPORT. Every row of a rill instruction is an issue of that instruction (R92 to R94). -/

namespace Sys2Proof.Machine

open Sys2Proof

/-- A row of a rill instruction issues, and its word is illegal where the tables of R94 to R108 say so. -/
def Instr.issuesAs (i : Instr) (s : State) (x : Issue) (ok : Bool) : Prop :=
  ∃ f eff, exec i s = .next (s.issue x f eff) ∧ f.illegal = !ok

theorem scalarRows_issue (s : State) (x : Issue) : ∀ p ∈ scalarRows, Instr.issuesAs (p.1 x) s x (!x.opbBad) := by
  intro q hq
  simp only [scalarRows, List.mem_cons, List.not_mem_nil, or_false] at hq
  rcases hq with rfl | rfl | rfl | rfl | rfl | rfl | rfl | rfl | rfl | rfl | rfl | rfl | rfl | rfl | rfl <;>
    exact ⟨_, _, rfl, (Bool.not_not _).symm⟩

theorem compareRows_issue (s : State) (x : Issue) :
    ∀ p ∈ compareRows, Instr.issuesAs (p.1 x) s x (!x.opbBad && decide (x.rd.toNat < 8)) := by
  intro q hq
  have e : (x.opbBad || decide (8 ≤ x.rd.toNat)) = !(!x.opbBad && decide (x.rd.toNat < 8)) := by
    by_cases h : x.rd.toNat < 8
    · simp [h]
    · simp [h, Nat.not_lt.1 h]
  simp only [compareRows, List.mem_cons, List.not_mem_nil, or_false] at hq
  rcases hq with rfl | rfl | rfl | rfl | rfl | rfl <;> exact ⟨_, _, rfl, e⟩

/-- Over predicates; `one` says that RB is not used. -/
def Issue.predOk (x : Issue) (one : Bool) : Bool :=
  !x.i && (!one || decide (x.rb = 0)) && decide (x.imm = 0) && decide (x.rd.toNat < 8) && decide (x.ra.toNat < 8) &&
    decide (x.rb.toNat < 8)

theorem Issue.predOk_eq (x : Issue) (one : Bool) :
    (x.i || decide (x.imm ≠ 0 ∨ 8 ≤ x.rd.toNat ∨ 8 ≤ x.ra.toNat ∨ 8 ≤ x.rb.toNat) || (one && decide (x.rb ≠ 0))) =
      !Issue.predOk x one := by
  have h8 : ∀ n, decide (8 ≤ n) = !decide (n < 8) := fun n => by
    by_cases h : n < 8
    · simp [h]
    · simp [h, Nat.not_lt.1 h]
  unfold Issue.predOk
  simp only [Bool.decide_or, ne_eq, decide_not, h8]
  generalize decide (x.imm = 0) = a
  generalize decide (x.rb = 0) = b
  generalize decide (x.rd.toNat < 8) = c
  generalize decide (x.ra.toNat < 8) = d
  generalize decide (x.rb.toNat < 8) = e
  generalize x.i = i
  revert a b c d e i one
  decide

theorem predOp_issue (s : State) (x : Issue) (one : Bool) (f : Bool → Bool → Bool) :
    ∃ g eff, s.predOp x one f = s.issue x g eff ∧ g.illegal = !Issue.predOk x one := by
  unfold State.predOp
  exact ⟨_, _, rfl, Issue.predOk_eq x one⟩

theorem predicateRows_issue (s : State) (x : Issue) :
    ∀ p ∈ predicateRows, Instr.issuesAs (p.1 x) s x (Issue.predOk x (decide (p.1 x = .pnot x))) := by
  intro q hq
  have e1 : decide (Instr.pand x = .pnot x) = false := decide_eq_false (by intro h; cases h)
  have e2 : decide (Instr.por x = .pnot x) = false := decide_eq_false (by intro h; cases h)
  have e3 : decide (Instr.pxor x = .pnot x) = false := decide_eq_false (by intro h; cases h)
  have e4 : decide (Instr.pnot x = .pnot x) = true := decide_eq_true rfl
  have h := predOp_issue s x
  simp only [predicateRows, List.mem_cons, List.not_mem_nil, or_false] at hq
  rcases hq with rfl | rfl | rfl | rfl
  · simp only [e1]
    obtain ⟨g, e, h1, h2⟩ := h false (fun a b => a && b)
    exact ⟨g, e, h1 ▸ rfl, h2⟩
  · simp only [e2]
    obtain ⟨g, e, h1, h2⟩ := h false (fun a b => a || b)
    exact ⟨g, e, h1 ▸ rfl, h2⟩
  · simp only [e3]
    obtain ⟨g, e, h1, h2⟩ := h false (fun a b => xor a b)
    exact ⟨g, e, h1 ▸ rfl, h2⟩
  · simp only [e4]
    obtain ⟨g, e, h1, h2⟩ := h true (fun a _ => !a)
    exact ⟨g, e, h1 ▸ rfl, h2⟩

theorem lsRows_issue (s : State) (x : Issue) (b : Bool) :
    ∀ p ∈ lsRows, Instr.issuesAs (p.1 x b) s x (!lsIllegal x p.2) := by
  intro q hq
  simp only [lsRows, List.mem_cons, List.not_mem_nil, or_false] at hq
  rcases hq with rfl | rfl | rfl | rfl | rfl | rfl | rfl | rfl | rfl | rfl | rfl | rfl | rfl | rfl | rfl | rfl <;>
    exact ⟨_, _, rfl, (Bool.not_not _).symm⟩

theorem vectorRows_issue (s : State) (x : Issue) :
    ∀ p ∈ vectorRows, Instr.issuesAs (p.1 x) s x (!x.i && p.2.2 x) := by
  intro q hq
  simp only [vectorRows, List.mem_cons, List.not_mem_nil, or_false] at hq
  rcases hq with rfl | rfl | rfl | rfl | rfl | rfl | rfl | rfl <;> refine ⟨_, _, rfl, ?_⟩ <;> rw [Bool.eq_iff_iff] <;>
    simp [immZero] <;> grind

theorem decide_le_eq_not_lt (a b : Nat) : decide (b ≤ a) = !decide (a < b) := by
  by_cases h : a < b
  · simp [h]
  · simp [h, Nat.not_lt.1 h]

theorem mxIssue_issue (s : State) (x : Issue) (op : Nat) (illegal ok : Bool) :
    ∃ eff, s.mxIssue x op illegal ok = s.issue x ⟨illegal, [x.ra], false⟩ eff := by
  unfold State.mxIssue; exact ⟨_, rfl⟩

theorem ftIssue_issue (s : State) (x : Issue) (kind : Nat) :
    ∃ eff, s.ftIssue x kind = s.issue x ⟨x.i || decide (x.imm ≠ 0), x.regs, true⟩ eff := by
  unfold State.ftIssue; exact ⟨_, rfl⟩

theorem amoIssue_issue (s : State) (x : Issue) (kind : Nat) :
    ∃ eff, s.amoIssue x kind = s.issue x ⟨x.i, x.regs, true⟩ eff := by
  unfold State.amoIssue; exact ⟨_, rfl⟩

/-- Fields that an operation does not use are 0, and I is 0. -/
def Issue.unused (x : Issue) (rd ra rb imm : Bool) : Bool :=
  !x.i && (!rd || decide (x.rd = 0)) && (!ra || decide (x.ra = 0)) && (!rb || decide (x.rb = 0)) && (!imm || decide (x.imm = 0))

theorem nop_issue (s : State) (x : Issue) : Instr.issuesAs (.nop x 0 0) s x (Issue.unused x true true true true) := by
  refine ⟨_, _, rfl, ?_⟩
  simp [decide_le_eq_not_lt, Issue.unused, mxFields, Issue.noRegs, immZero, Bool.and_assoc, Bool.or_comm, Bool.or_assoc, Bool.or_left_comm]

theorem li_issue (s : State) (x : Issue) : Instr.issuesAs (.li x) s x (Issue.unused x false true true false) := by
  refine ⟨_, _, rfl, ?_⟩
  simp [decide_le_eq_not_lt, Issue.unused, mxFields, Issue.noRegs, immZero, Bool.and_assoc, Bool.or_comm, Bool.or_assoc, Bool.or_left_comm]

theorem lih_issue (s : State) (x : Issue) : Instr.issuesAs (.lih x) s x (Issue.unused x false true true false) := by
  refine ⟨_, _, rfl, ?_⟩
  simp [decide_le_eq_not_lt, Issue.unused, mxFields, Issue.noRegs, immZero, Bool.and_assoc, Bool.or_comm, Bool.or_assoc, Bool.or_left_comm]

theorem sel_issue (s : State) (x : Issue) : Instr.issuesAs (.sel x) s x (Issue.unused x false false false false && decide (x.imm.toNat < 8)) := by
  refine ⟨_, _, rfl, ?_⟩
  simp [decide_le_eq_not_lt, Issue.unused, mxFields, Issue.noRegs, immZero, Bool.and_assoc, Bool.or_comm, Bool.or_assoc, Bool.or_left_comm]

theorem rdsr_issue (s : State) (x : Issue) : Instr.issuesAs (.rdsr x) s x (Issue.unused x false true true false && decide (x.imm.toNat < 10)) := by
  refine ⟨_, _, rfl, ?_⟩
  simp [decide_le_eq_not_lt, Issue.unused, mxFields, Issue.noRegs, immZero, Bool.and_assoc, Bool.or_comm, Bool.or_assoc, Bool.or_left_comm]

theorem br_issue (s : State) (x : Issue) : Instr.issuesAs (.br x) s x (Issue.unused x true true true false) := by
  refine ⟨_, _, rfl, ?_⟩
  simp [decide_le_eq_not_lt, Issue.unused, mxFields, Issue.noRegs, immZero, Bool.and_assoc, Bool.or_comm, Bool.or_assoc, Bool.or_left_comm]

theorem jal_issue (s : State) (x : Issue) : Instr.issuesAs (.jal x) s x (Issue.unused x false true true false) := by
  refine ⟨_, _, rfl, ?_⟩
  simp [decide_le_eq_not_lt, Issue.unused, mxFields, Issue.noRegs, immZero, Bool.and_assoc, Bool.or_comm, Bool.or_assoc, Bool.or_left_comm]

theorem jr_issue (s : State) (x : Issue) : Instr.issuesAs (.jr x) s x (Issue.unused x true false true true) := by
  refine ⟨_, _, rfl, ?_⟩
  simp [decide_le_eq_not_lt, Issue.unused, mxFields, Issue.noRegs, immZero, Bool.and_assoc, Bool.or_comm, Bool.or_assoc, Bool.or_left_comm]

theorem mxCfg_issue (s : State) (x : Issue) : Instr.issuesAs (.mxCfg x) s x (Issue.unused x true true true false && immZero x 0 14) := by
  obtain ⟨eff, e⟩ := mxIssue_issue s x 0 _ _
  refine ⟨_, eff, congrArg Host.Outcome.next e, ?_⟩
  simp [decide_le_eq_not_lt, Issue.unused, mxFields, Issue.noRegs, immZero, Bool.and_assoc, Bool.or_comm, Bool.or_assoc, Bool.or_left_comm]

theorem mxLoad_issue (s : State) (x : Issue) : Instr.issuesAs (.mxLoad x) s x (Issue.unused x true false true true) := by
  obtain ⟨eff, e⟩ := mxIssue_issue s x 1 _ _
  refine ⟨_, eff, congrArg Host.Outcome.next e, ?_⟩
  simp [decide_le_eq_not_lt, Issue.unused, mxFields, Issue.noRegs, immZero, Bool.and_assoc, Bool.or_comm, Bool.or_assoc, Bool.or_left_comm]

theorem mxStream_issue (s : State) (x : Issue) : Instr.issuesAs (.mxStream x) s x (Issue.unused x true false true false && immZero x 2 6 && immZero x 16 16) := by
  obtain ⟨eff, e⟩ := mxIssue_issue s x 2 _ _
  refine ⟨_, eff, congrArg Host.Outcome.next e, ?_⟩
  simp [decide_le_eq_not_lt, Issue.unused, mxFields, Issue.noRegs, immZero, Bool.and_assoc, Bool.or_comm, Bool.or_assoc, Bool.or_left_comm]

theorem mxInit_issue (s : State) (x : Issue) : Instr.issuesAs (.mxInit x) s x (Issue.unused x true true true false && decide (x.imm.toNat < 2)) := by
  obtain ⟨eff, e⟩ := mxIssue_issue s x 3 _ _
  refine ⟨_, eff, congrArg Host.Outcome.next e, ?_⟩
  simp [decide_le_eq_not_lt, Issue.unused, mxFields, Issue.noRegs, immZero, Bool.and_assoc, Bool.or_comm, Bool.or_assoc, Bool.or_left_comm]

theorem mxAcquire_issue (s : State) (x : Issue) : Instr.issuesAs (.mxAcquire x) s x (Issue.unused x true true true true) := by
  refine ⟨_, _, rfl, ?_⟩
  simp [decide_le_eq_not_lt, Issue.unused, mxFields, Issue.noRegs, immZero, Bool.and_assoc, Bool.or_comm, Bool.or_assoc, Bool.or_left_comm]

theorem mxRelease_issue (s : State) (x : Issue) : Instr.issuesAs (.mxRelease x) s x (Issue.unused x true true true true) := by
  refine ⟨_, _, rfl, ?_⟩
  simp [decide_le_eq_not_lt, Issue.unused, mxFields, Issue.noRegs, immZero, Bool.and_assoc, Bool.or_comm, Bool.or_assoc, Bool.or_left_comm]

theorem ftGet_issue (s : State) (x : Issue) : Instr.issuesAs (.ftGet x) s x (Issue.unused x false false false true) := by
  obtain ⟨eff, e⟩ := ftIssue_issue s x 0
  refine ⟨_, eff, congrArg Host.Outcome.next e, ?_⟩
  simp [decide_le_eq_not_lt, Issue.unused, mxFields, Issue.noRegs, immZero, Bool.and_assoc, Bool.or_comm, Bool.or_assoc, Bool.or_left_comm]

theorem ftPut_issue (s : State) (x : Issue) : Instr.issuesAs (.ftPut x) s x (Issue.unused x false false false true) := by
  obtain ⟨eff, e⟩ := ftIssue_issue s x 1
  refine ⟨_, eff, congrArg Host.Outcome.next e, ?_⟩
  simp [decide_le_eq_not_lt, Issue.unused, mxFields, Issue.noRegs, immZero, Bool.and_assoc, Bool.or_comm, Bool.or_assoc, Bool.or_left_comm]

theorem ftAddw_issue (s : State) (x : Issue) : Instr.issuesAs (.ftAddw x) s x (Issue.unused x false false false true) := by
  obtain ⟨eff, e⟩ := ftIssue_issue s x 2
  refine ⟨_, eff, congrArg Host.Outcome.next e, ?_⟩
  simp [decide_le_eq_not_lt, Issue.unused, mxFields, Issue.noRegs, immZero, Bool.and_assoc, Bool.or_comm, Bool.or_assoc, Bool.or_left_comm]

theorem ftAmoAdd_issue (s : State) (x : Issue) : Instr.issuesAs (.ftAmoAdd x) s x (Issue.unused x false false false false) := by
  obtain ⟨eff, e⟩ := amoIssue_issue s x 3
  refine ⟨_, eff, congrArg Host.Outcome.next e, ?_⟩
  simp [decide_le_eq_not_lt, Issue.unused, mxFields, Issue.noRegs, immZero, Bool.and_assoc, Bool.or_comm, Bool.or_assoc, Bool.or_left_comm]

theorem ftAmoSwap_issue (s : State) (x : Issue) : Instr.issuesAs (.ftAmoSwap x) s x (Issue.unused x false false false false) := by
  obtain ⟨eff, e⟩ := amoIssue_issue s x 4
  refine ⟨_, eff, congrArg Host.Outcome.next e, ?_⟩
  simp [decide_le_eq_not_lt, Issue.unused, mxFields, Issue.noRegs, immZero, Bool.and_assoc, Bool.or_comm, Bool.or_assoc, Bool.or_left_comm]

theorem syFence_issue (s : State) (x : Issue) : Instr.issuesAs (.syFence x) s x (Issue.unused x true true true false && decide (x.imm.toNat < 3)) := by
  refine ⟨_, _, rfl, ?_⟩
  simp [decide_le_eq_not_lt, Issue.unused, mxFields, Issue.noRegs, immZero, Bool.and_assoc, Bool.or_comm, Bool.or_assoc, Bool.or_left_comm]

theorem syWait_issue (s : State) (x : Issue) : Instr.issuesAs (.syWait x) s x (Issue.unused x true true true false && decide (x.imm.toNat < 16)) := by
  refine ⟨_, _, rfl, ?_⟩
  simp [decide_le_eq_not_lt, Issue.unused, mxFields, Issue.noRegs, immZero, Bool.and_assoc, Bool.or_comm, Bool.or_assoc, Bool.or_left_comm]

theorem sySlot_issue (s : State) (x : Issue) : Instr.issuesAs (.sySlot x) s x (Issue.unused x false false true true) := by
  refine ⟨_, _, rfl, ?_⟩
  simp [decide_le_eq_not_lt, Issue.unused, mxFields, Issue.noRegs, immZero, Bool.and_assoc, Bool.or_comm, Bool.or_assoc, Bool.or_left_comm]

theorem syBar_issue (s : State) (x : Issue) : Instr.issuesAs (.syBar x) s x (Issue.unused x true true true false && decide (x.imm.toNat < 16)) := by
  refine ⟨_, _, rfl, ?_⟩
  simp [decide_le_eq_not_lt, Issue.unused, mxFields, Issue.noRegs, immZero, Bool.and_assoc, Bool.or_comm, Bool.or_assoc, Bool.or_left_comm]

theorem sySteal_issue (s : State) (x : Issue) : Instr.issuesAs (.sySteal x) s x (Issue.unused x false true true true) := by
  refine ⟨_, _, rfl, ?_⟩
  simp [decide_le_eq_not_lt, Issue.unused, mxFields, Issue.noRegs, immZero, Bool.and_assoc, Bool.or_comm, Bool.or_assoc, Bool.or_left_comm]

theorem syYield_issue (s : State) (x : Issue) : Instr.issuesAs (.syYield x) s x (Issue.unused x true true true true) := by
  refine ⟨_, _, rfl, ?_⟩
  simp [decide_le_eq_not_lt, Issue.unused, mxFields, Issue.noRegs, immZero, Bool.and_assoc, Bool.or_comm, Bool.or_assoc, Bool.or_left_comm]

theorem syHalt_issue (s : State) (x : Issue) : Instr.issuesAs (.syHalt x) s x (Issue.unused x false true true true) := by
  refine ⟨_, _, rfl, ?_⟩
  simp [decide_le_eq_not_lt, Issue.unused, mxFields, Issue.noRegs, immZero, Bool.and_assoc, Bool.or_comm, Bool.or_assoc, Bool.or_left_comm]

theorem issueRows_issue (s : State) (x : Issue) (b : Bool) : ∀ p ∈ issueRows x b, Instr.issuesAs p.1 s x p.2 := by
  intro p hp
  unfold issueRows at hp
  simp only [List.mem_append, List.mem_map] at hp
  rcases hp with ((((⟨q, hq, rfl⟩ | ⟨q, hq, rfl⟩) | ⟨q, hq, rfl⟩) | ⟨q, hq, rfl⟩) | ⟨q, hq, rfl⟩) | hp
  · exact scalarRows_issue s x q hq
  · exact compareRows_issue s x q hq
  · have e : ∀ one, (!x.i && (!false || decide (x.rd = 0)) && (!false || decide (x.ra = 0)) && (!one || decide (x.rb = 0)) &&
        (!true || decide (x.imm = 0)) && decide (x.rd.toNat < 8) && decide (x.ra.toNat < 8) && decide (x.rb.toNat < 8)) =
        Issue.predOk x one := fun one => by
      unfold Issue.predOk
      simp only [Bool.not_false, Bool.true_or, Bool.and_true, Bool.not_true, Bool.false_or]
    have h := predicateRows_issue s x q hq
    rw [← e] at h
    exact h
  · exact lsRows_issue s x b q hq
  · exact vectorRows_issue s x q hq
  · simp only [List.mem_cons, List.not_mem_nil, or_false] at hp
    rcases hp with rfl | rfl | rfl | rfl | rfl | rfl | rfl | rfl | rfl | rfl | rfl | rfl | rfl | rfl | rfl | rfl | rfl |
      rfl | rfl | rfl | rfl | rfl | rfl | rfl | rfl | rfl
    · exact nop_issue s x
    · exact li_issue s x
    · exact lih_issue s x
    · exact sel_issue s x
    · exact rdsr_issue s x
    · exact br_issue s x
    · exact jal_issue s x
    · exact jr_issue s x
    · exact mxCfg_issue s x
    · exact mxLoad_issue s x
    · exact mxStream_issue s x
    · exact mxInit_issue s x
    · exact mxAcquire_issue s x
    · exact mxRelease_issue s x
    · exact ftGet_issue s x
    · exact ftPut_issue s x
    · exact ftAddw_issue s x
    · exact ftAmoAdd_issue s x
    · exact ftAmoSwap_issue s x
    · exact syFence_issue s x
    · exact syWait_issue s x
    · exact sySlot_issue s x
    · exact syBar_issue s x
    · exact sySteal_issue s x
    · exact syYield_issue s x
    · exact syHalt_issue s x

end Sys2Proof.Machine
end

