-- ==== Sys2Proof/Laws/Wake.lean ====
section
/-! SUPPORT. Ending waits on a rill where no thread waits changes nothing that a program sees (R87, R88). -/

namespace Sys2Proof.Machine

open Sys2Proof

theorem Tab.mem_of_at? {α : Type} (t : Tab α) (k : Nat) (v : α) (h : t.at? k = some v) : (k, v) ∈ t := by
  induction t with
  | nil => simp [Tab.at?] at h
  | cons p t ih =>
    obtain ⟨a, b⟩ := p
    simp only [Tab.at?] at h
    split at h
    · next e => simp only [Option.some.injEq] at h; subst h; subst e; exact List.mem_cons_self ..
    · exact List.mem_cons_of_mem _ (ih h)

theorem Tab.mem_put {α : Type} (t : Tab α) (k : Nat) (v : α) (p : Nat × α) (h : p ∈ Tab.put t k v) : p = (k, v) ∨ p ∈ t := by
  induction t with
  | nil => simp [Tab.put] at h; exact .inl h
  | cons q t ih =>
    obtain ⟨a, b⟩ := q
    simp only [Tab.put] at h
    split at h
    · simpa using h
    · split at h
      · rcases List.mem_cons.1 h with h | h
        · exact .inl h
        · exact .inr (List.mem_cons_of_mem _ h)
      · rcases List.mem_cons.1 h with h | h
        · exact .inr (h ▸ List.mem_cons_self ..)
        · rcases ih h with h | h
          · exact .inl h
          · exact .inr (List.mem_cons_of_mem _ h)

theorem State.marked_refl (s : State) : s.marked s := ⟨rfl, fun _ => rfl⟩

theorem State.marked_trans {a b c : State} (h1 : a.marked b) (h2 : b.marked c) : a.marked c := by
  refine ⟨by rw [h2.1, h1.1], fun k => (h2.2 k).trans (h1.2 k)⟩

theorem State.marked_noteBlocked (s : State) (k : Nat) : s.marked (s.noteBlocked k) := by
  refine ⟨?_, fun j => ?_⟩
  · rw [State.noteBlocked_eq]
  · rw [State.noteBlocked_ctx?]; cases s.ctx? j <;> rfl

/-- A context of a calm rill. -/
theorem State.calm_of (s : State) (r k : Nat) (c : Context) (h : s.calm r) (hk : s.ctx? k = some c) (hr : c.rillOf = some r) :
    (c.stopping = true → ((s.rill r).frames.at? 4).isSome = true) ∧ ∀ h ∈ c.threads, h.wait.quiet = true :=
  h.2 (k, c) (Tab.mem_of_at? _ _ _ hk) hr

theorem State.calm_setCtx (s : State) (k r : Nat) (c c' : Context) (h : s.calm r) (hk : s.ctx? k = some c)
    (hs : c'.rillOf = some r → c.rillOf = some r) (hq : c'.stopping = c.stopping)
    (ht : (∀ h ∈ c.threads, h.wait.quiet = true) → ∀ h ∈ c'.threads, h.wait.quiet = true) : (s.setCtx k c').calm r := by
  refine ⟨Tab.sorted_put _ _ _ h.1, fun p hp hr => ?_⟩
  rcases Tab.mem_put _ _ _ _ hp with rfl | hp
  · have := s.calm_of r k c h hk (hs hr)
    exact ⟨fun e => this.1 (hq ▸ e), ht this.2⟩
  · exact h.2 p hp hr

theorem State.calm_noteBlocked (s : State) (k r : Nat) (h : s.calm r) : (s.noteBlocked k).calm r := by
  unfold State.noteBlocked
  cases hk : s.ctx? k with
  | none => exact h
  | some c =>
    simp only
    split
    · exact h
    · exact s.calm_setCtx k r c _ h hk id rfl id

theorem State.calm_of_ctxs (s t : State) (r : Nat) (h : s.calm r) (e : t.ctxs = s.ctxs)
    (f : (t.rill r).frames = (s.rill r).frames) : t.calm r := by
  unfold State.calm at h ⊢; rw [e, f]; exact h

theorem State.wakeThread_calm (s : State) (k t r r' : Nat) (c : Context) (h : s.calm r) (hk : s.ctx? k = some c)
    (hc : c.rillOf = some r) : s.wakeThread k t r' = s := by
  unfold State.wakeThread
  simp only [hk]
  cases ht : c.thread? t with
  | none => rfl
  | some th =>
    have hm : th ∈ c.threads := List.mem_of_getElem? ht
    have := (s.calm_of r k c h hk hc).2 th hm
    cases hw : th.wait <;> simp [Wait.quiet, hw] at this ⊢

theorem State.wakeCtx_calm (s : State) (k r : Nat) (c : Context) (h : s.calm r) (hk : s.ctx? k = some c)
    (hc : c.rillOf = some r) : s.wakeCtx k = s ∨ s.wakeCtx k = s.noteBlocked k := by
  unfold State.wakeCtx
  simp only [hk, hc]
  split
  · exact .inl rfl
  · have hfold : ∀ l : List Nat, l.foldl (fun (s : State) t => s.wakeThread k t r) s = s := by
      intro l
      induction l with
      | nil => rfl
      | cons t l ih => rw [List.foldl_cons, s.wakeThread_calm k t r r c h hk hc]; exact ih
    rw [hfold]; exact .inr rfl

theorem Tab.at?_of_mem {α : Type} (t : Tab α) (h : Tab.sorted t = true) (p : Nat × α) (hp : p ∈ t) : t.at? p.1 = some p.2 := by
  induction t with
  | nil => simp at hp
  | cons q t ih =>
    obtain ⟨a, b⟩ := q
    simp only [Tab.at?]
    rcases List.mem_cons.1 hp with rfl | hm
    · simp
    · have hlt : a < p.1 := by
        clear ih hp
        induction t generalizing a b with
        | nil => simp at hm
        | cons q t ih2 =>
          simp only [Tab.sorted, Bool.and_eq_true, decide_eq_true_eq] at h
          rcases List.mem_cons.1 hm with rfl | hm
          · exact h.1
          · exact Nat.lt_trans h.1 (ih2 q.1 q.2 h.2 hm)
      rw [if_neg (by omega)]
      refine ih ?_ hm
      cases t with
      | nil => rfl
      | cons q t => simp only [Tab.sorted, Bool.and_eq_true] at h; exact h.2

/-- The keys are of contexts in frames of rill `r`. -/
def State.onRill (s : State) (ks : List Nat) (r : Nat) : Prop := ∀ k ∈ ks, ∃ c, s.ctx? k = some c ∧ c.rillOf = some r

theorem State.onRill_noteBlocked (s : State) (ks : List Nat) (j r : Nat) (h : s.onRill ks r) : (s.noteBlocked j).onRill ks r := by
  intro k hk
  obtain ⟨c, h1, h2⟩ := h k hk
  rw [State.noteBlocked_ctx?, h1]
  exact ⟨_, rfl, h2⟩

theorem State.wakeAll_calm (r : Nat) (ks : List Nat) : ∀ (s : State), s.calm r → s.onRill ks r →
    s.marked (ks.foldl (fun (s : State) k => s.wakeCtx k) s) ∧ (ks.foldl (fun (s : State) k => s.wakeCtx k) s).calm r := by
  induction ks with
  | nil => exact fun s h _ => ⟨s.marked_refl, h⟩
  | cons k ks ih =>
    intro s h ho
    obtain ⟨c, h1, h2⟩ := ho k (List.mem_cons_self ..)
    have ho' : s.onRill ks r := fun j hj => ho j (List.mem_cons_of_mem _ hj)
    rw [List.foldl_cons]
    rcases s.wakeCtx_calm k r c h h1 h2 with e | e
    · rw [e]; exact ih s h ho'
    · rw [e]
      have := ih (s.noteBlocked k) (s.calm_noteBlocked k r h) (s.onRill_noteBlocked ks k r ho')
      exact ⟨State.marked_trans (s.marked_noteBlocked k) this.1, this.2⟩

theorem State.mem_residentOn (s : State) (r : Nat) (p : Nat × Context) (h : p ∈ s.residentOn r) :
    p ∈ s.ctxs ∧ p.2.rillOf = some r := by
  unfold State.residentOn State.ctxsOn at h
  simp only [List.mem_filter] at h
  obtain ⟨⟨h1, h2⟩, h3⟩ := h
  refine ⟨h1, ?_⟩
  unfold Context.rillOf
  cases hl : p.2.loc <;> simp_all

theorem State.onRill_residentOn (s : State) (r : Nat) (h : s.calm r) : s.onRill ((s.residentOn r).map (fun c => c.1)) r := by
  intro k hk
  obtain ⟨p, hp, rfl⟩ := List.mem_map.1 hk
  obtain ⟨h1, h2⟩ := s.mem_residentOn r p hp
  exact ⟨p.2, Tab.at?_of_mem _ h.1 p h1, h2⟩

theorem State.mem_choose {α : Type} (s : State) (l : List α) (x : α) (h : s.choose l = some x) : x ∈ l :=
  List.mem_of_getElem? h

theorem State.wakeOrder_onRill (s : State) (r : Nat) (h : s.calm r) : s.onRill (s.wakeOrder r) r := by
  have ho := s.onRill_residentOn r h
  unfold State.wakeOrder
  simp only
  split
  · next k hk =>
    intro j hj
    rcases List.mem_cons.1 hj with rfl | hj
    · exact ho _ (List.mem_of_mem_filter (s.mem_choose _ _ hk))
    · exact ho j (List.mem_of_mem_filter hj)
  · exact ho

theorem State.wakeOnce_calm (s : State) (r : Nat) (h : s.calm r) : s.marked (s.wakeOnce r) ∧ (s.wakeOnce r).calm r := by
  have := State.wakeAll_calm r (s.wakeOrder r) s.fresh (s.calm_of_ctxs _ r h rfl rfl) (s.wakeOrder_onRill r h)
  exact ⟨State.marked_trans ⟨rfl, fun _ => rfl⟩ this.1, this.2⟩

theorem State.tryMove_calm (s : State) (k r : Nat) (c : Context) (h : s.calm r) (hk : s.ctx? k = some c)
    (hc : c.rillOf = some r) : s.tryMove k = s := by
  unfold State.tryMove
  simp only [hk]
  split
  · rename_i r' f hl
    have hr : r' = r := by simpa [Context.rillOf, hl] using hc
    subst hr
    have h4 := (s.calm_of r' k c h hk hc).1
    cases hst : c.stopping
    · simp
    · rw [if_neg]
      simp only [Bool.and_eq_true, not_and, Bool.not_eq_true, Option.isNone_eq_false_iff]
      intro _; exact h4 hst
  · rfl

theorem State.tryMoves_calm (s : State) (r : Nat) (h : s.calm r) : s.tryMoves r = s := by
  unfold State.tryMoves
  have ho : ∀ p ∈ s.residentOn r, s.tryMove p.1 = s := fun p hp => by
    obtain ⟨h1, h2⟩ := s.mem_residentOn r p hp
    exact s.tryMove_calm p.1 r p.2 h (Tab.at?_of_mem _ h.1 p h1) h2
  generalize s.residentOn r = l at ho
  induction l with
  | nil => rfl
  | cons p l ih =>
    rw [List.foldl_cons, ho p (List.mem_cons_self ..)]
    exact ih (fun q hq => ho q (List.mem_cons_of_mem _ hq))

/-- Ending the waits of a calm rill changes nothing but block marks and the model's counter. -/
theorem State.wakeRill_calm (s : State) (r : Nat) (h : s.calm r) : s.marked (s.wakeRill r) ∧ (s.wakeRill r).calm r := by
  unfold State.wakeRill
  have h1 := s.wakeOnce_calm r h
  have h2 := (s.wakeOnce r).wakeOnce_calm r h1.2
  rw [State.tryMoves_calm _ r h2.2]
  have h3 := ((s.wakeOnce r).wakeOnce r).wakeOnce_calm r h2.2
  exact ⟨State.marked_trans h1.1 (State.marked_trans h2.1 h3.1), h3.2⟩

theorem State.sweepCloses_settled (s : State) (r : Nat) (h : s.settled r) : s.sweepCloses = s := by
  unfold State.sweepCloses
  rw [List.filter_eq_nil_iff.2]
  · rfl
  · intro c hc; simp only [decide_eq_true_eq]; exact h.2 c hc

theorem State.settled_marked (s t : State) (r : Nat) (h : s.settled r) (hm : s.marked t) (hc : t.calm r) : t.settled r := by
  refine ⟨hc, ?_⟩
  have : t.host = s.host := by rw [hm.1]
  rw [this]; exact h.2

/-- The front of the queue is run where nothing can take effect: only block marks and the counter change. -/
theorem State.mxGo_settled (s : State) (r : Nat) (h : s.settled r)
    (hq : (s.rill r).array.cur.isSome = true ∨ (s.rill r).mxQ = []) : s.marked (s.mxGo r) := by
  have hp : s.mxPump r 64 = s := by
    unfold State.mxPump
    rcases hq with hq | hq
    · simp [hq]
    · simp only [hq]; split <;> rfl
  unfold State.mxGo
  rw [hp]
  have := s.wakeRill_calm r h.1
  rw [State.sweepCloses_settled _ r (State.settled_marked _ _ r h this.1 this.2)]
  exact this.1

end Sys2Proof.Machine
end

