-- ==== Sys2Proof/Laws/Wcp.lean ====
section
/-! SUPPORT. Commands: how an accepted descriptor starts, and what its end leaves in the ring (R532 to R538). -/

namespace Sys2Proof.Machine

open Sys2Proof

theorem State.begun_eq (s : State) (i : Issuer) (fn : Nat) (d : BitVec 512)
    (h : ∀ e ∈ s.host.inProgress, e.order < s.host.order) :
    (s.take i fn d).updCmd s.host.order (fun c => { c with started := true }) = s.begun i fn d := by
  have h1 : s.host.inProgress.map
      (fun c => if c.order = s.host.order then { c with started := true } else c) = s.host.inProgress := by
    rw [List.map_congr_left (g := id)]
    · exact List.map_id _
    · intro e he
      have := h e he
      rw [if_neg (by omega)]; rfl
  simp [State.updCmd, State.take, State.enroll, State.setMailbox, State.begun, State.newCmd, State.opPart, State.partOfVf, h1]

theorem State.newCmd_intro (s : State) (i : Issuer) (fn : Nat) (d : BitVec 512) :
    (⟨fn, d, s.host.order, true, s.opPart i fn d, 0, 0, false, none⟩ : Cmd) = s.newCmd i fn d := rfl

/-- An accepted command runs its handler on the state in which it begins. -/
theorem State.runWcp_accepted (s : State) (i : Issuer) (fn : Nat) (d : BitVec 512) (handler : State → Cmd → Reply)
    (h : s.accepted i fn d) :
    s.runWcp i fn d handler =
      (handler (s.begun i fn d) (s.newCmd i fn d)).settle (s.begun i fn d) (s.newCmd i fn d) := by
  obtain ⟨h1, h2, h3, h4, h5, h6⟩ := h
  have hfind : s.host.inProgress.find?
      (fun c => decide (c.fn = fn ∧ c.d = d ∧ c.started = false ∧ c.session = none)) = none := by
    rw [List.find?_eq_none]
    intro e he
    have := (h5 e he).2.1
    simp [this]
  have hlast : (s.take i fn d).host.inProgress.getLast? = some
      { fn := fn, d := d, order := s.host.order, started := false, part := s.opPart i fn d, a := 0, b := 0,
        drop := false, session := none } := by
    simp [State.take, State.enroll, State.setMailbox, State.opPart, State.partOfVf]
  have hstart : (s.take i fn d).canStart
      { fn := fn, d := d, order := s.host.order, started := false, part := s.opPart i fn d, a := 0, b := 0,
        drop := false, session := none } = true := by
    simp only [State.canStart, State.take, State.enroll, State.setMailbox, List.all_append, List.all_cons, List.all_nil,
      Bool.and_true, Bool.and_eq_true, List.all_eq_true]
    refine ⟨fun e he => ?_, by simp⟩
    obtain ⟨ho, hs, hf⟩ := h5 e he
    simp only [hs, Bool.true_and, Bool.or_eq_true, decide_eq_true_eq, Bool.not_eq_true', Bool.and_eq_false_iff,
      decide_eq_false_iff_not]
    right
    cases hd : dFence d
    · exact .inl rfl
    · right
      rcases hf hd with hf | hf
      · exact fun hc => hf hc.1
      · intro hc; rw [hf] at hc; simp at hc
  unfold State.runWcp
  rw [hfind]
  simp only
  rw [if_neg (by simp [h2]; omega), if_neg (by simp [h3]), h4]
  simp only [hlast, hstart, if_true]
  unfold State.startCmd
  have hb := State.begun_eq s i fn d (fun e he => (h5 e he).1)
  simp only [hb, State.newCmd_intro]
  rw [if_neg]
  rintro ⟨hl, hp⟩
  exact h6 hl hp

/-! ## The fields of the state in which a command begins -/

@[simp] theorem State.begun_pending (s : State) (i : Issuer) (n : Nat) (d : BitVec 512) : (s.begun i n d).pending = s.pending := rfl
@[simp] theorem State.begun_mode (s : State) (i : Issuer) (n : Nat) (d : BitVec 512) : (s.begun i n d).mode = s.mode := rfl
@[simp] theorem State.begun_regs (s : State) (i : Issuer) (n : Nat) (d : BitVec 512) : (s.begun i n d).regs = s.regs := rfl
@[simp] theorem State.begun_clk (s : State) (i : Issuer) (n : Nat) (d : BitVec 512) : (s.begun i n d).clk = s.clk := rfl
@[simp] theorem State.begun_pwr (s : State) (i : Issuer) (n : Nat) (d : BitVec 512) : (s.begun i n d).pwr = s.pwr := rfl
@[simp] theorem State.begun_watch (s : State) (i : Issuer) (n : Nat) (d : BitVec 512) : (s.begun i n d).watch = s.watch := rfl
@[simp] theorem State.begun_grotto (s : State) (i : Issuer) (n : Nat) (d : BitVec 512) : (s.begun i n d).grotto = s.grotto := rfl
@[simp] theorem State.begun_dbg (s : State) (i : Issuer) (n : Nat) (d : BitVec 512) : (s.begun i n d).dbg = s.dbg := rfl
@[simp] theorem State.begun_rills (s : State) (i : Issuer) (n : Nat) (d : BitVec 512) : (s.begun i n d).rills = s.rills := rfl
@[simp] theorem State.begun_ctxs (s : State) (i : Issuer) (n : Nat) (d : BitVec 512) : (s.begun i n d).ctxs = s.ctxs := rfl
@[simp] theorem State.begun_frqs (s : State) (i : Issuer) (n : Nat) (d : BitVec 512) : (s.begun i n d).frqs = s.frqs := rfl
@[simp] theorem State.begun_frqOver (s : State) (i : Issuer) (n : Nat) (d : BitVec 512) : (s.begun i n d).frqOver = s.frqOver := rfl
@[simp] theorem State.begun_streams (s : State) (i : Issuer) (n : Nat) (d : BitVec 512) : (s.begun i n d).streams = s.streams := rfl
@[simp] theorem State.begun_streamCaches (s : State) (i : Issuer) (n : Nat) (d : BitVec 512) : (s.begun i n d).streamCaches = s.streamCaches := rfl
@[simp] theorem State.begun_parts (s : State) (i : Issuer) (n : Nat) (d : BitVec 512) : (s.begun i n d).parts = s.parts := rfl
@[simp] theorem State.begun_mem (s : State) (i : Issuer) (n : Nat) (d : BitVec 512) : (s.begun i n d).mem = s.mem := rfl
@[simp] theorem State.begun_fabric (s : State) (i : Issuer) (n : Nat) (d : BitVec 512) : (s.begun i n d).fabric = s.fabric := rfl
@[simp] theorem State.begun_coll (s : State) (i : Issuer) (n : Nat) (d : BitVec 512) : (s.begun i n d).coll = s.coll := rfl
@[simp] theorem State.begun_input (s : State) (i : Issuer) (n : Nat) (d : BitVec 512) : (s.begun i n d).input = s.input := rfl
@[simp] theorem State.begun_out (s : State) (i : Issuer) (n : Nat) (d : BitVec 512) : (s.begun i n d).out = s.out := rfl
@[simp] theorem State.begun_free (s : State) (i : Issuer) (n : Nat) (d : BitVec 512) : (s.begun i n d).free = s.free := rfl
@[simp] theorem State.rill_begun (s : State) (i : Issuer) (n : Nat) (d : BitVec 512) (m : Nat) :
    (s.begun i n d).rill m = s.rill m := rfl
@[simp] theorem State.part_begun (s : State) (i : Issuer) (n : Nat) (d : BitVec 512) (m : Nat) :
    (s.begun i n d).part m = s.part m := rfl
@[simp] theorem State.ctx?_begun (s : State) (i : Issuer) (n : Nat) (d : BitVec 512) (m : Nat) :
    (s.begun i n d).ctx? m = s.ctx? m := rfl
@[simp] theorem State.entry_begun (s : State) (i : Issuer) (n : Nat) (d : BitVec 512) (m : Nat) :
    (s.begun i n d).entry m = s.entry m := rfl
@[simp] theorem State.copies_begun (s : State) (i : Issuer) (n : Nat) (d : BitVec 512) (m : Nat) :
    (s.begun i n d).copies m = s.copies m := rfl
@[simp] theorem State.launch?_begun (s : State) (i : Issuer) (n : Nat) (d : BitVec 512) (m k : Nat) :
    (s.begun i n d).launch? m k = s.launch? m k := rfl
@[simp] theorem State.port_begun (s : State) (i : Issuer) (n : Nat) (d : BitVec 512) (m : Nat) :
    (s.begun i n d).port m = s.port m := rfl
@[simp] theorem State.now_begun (s : State) (i : Issuer) (n : Nat) (d : BitVec 512) :
    (s.begun i n d).now = s.now := rfl
@[simp] theorem State.tbNs_begun (s : State) (i : Issuer) (n : Nat) (d : BitVec 512) :
    (s.begun i n d).tbNs = s.tbNs := rfl
@[simp] theorem State.reg_begun (s : State) (i : Issuer) (n : Nat) (d : BitVec 512) (m : Nat) :
    (s.begun i n d).reg m = s.reg m := rfl
@[simp] theorem State.getF_begun (s : State) (i : Issuer) (n : Nat) (d : BitVec 512) (g : Fld) :
    (s.begun i n d).getF g = s.getF g := rfl
@[simp] theorem State.newCmd_fn (s : State) (i : Issuer) (n : Nat) (d : BitVec 512) : (s.newCmd i n d).fn = n := rfl
@[simp] theorem State.newCmd_d (s : State) (i : Issuer) (n : Nat) (d : BitVec 512) : (s.newCmd i n d).d = d := rfl
@[simp] theorem State.newCmd_part (s : State) (i : Issuer) (n : Nat) (d : BitVec 512) : (s.newCmd i n d).part = s.opPart i n d := rfl
@[simp] theorem State.newCmd_drop (s : State) (i : Issuer) (n : Nat) (d : BitVec 512) : (s.newCmd i n d).drop = false := rfl
@[simp] theorem State.newCmd_session (s : State) (i : Issuer) (n : Nat) (d : BitVec 512) : (s.newCmd i n d).session = none := rfl
@[simp] theorem State.newCmd_started (s : State) (i : Issuer) (n : Nat) (d : BitVec 512) : (s.newCmd i n d).started = true := rfl
@[simp] theorem State.newCmd_order (s : State) (i : Issuer) (n : Nat) (d : BitVec 512) : (s.newCmd i n d).order = s.host.order := rfl

/-! ## The end of a command -/

theorem State.finish_newCmd (u s : State) (i : Issuer) (n : Nat) (d : BitVec 512) (status : W32) (v : W64) :
    u.finish (s.newCmd i n d) status v = (u.dropCmd s.host.order).post n status (dTag d) v (dIrq d) := rfl

theorem State.signal_eq (s : State) (f : Nat) :
    s.signal f = { s with host := { s.host with mailboxes := (s.signal f).host.mailboxes }, out := (s.signal f).out } := by
  unfold State.signal
  simp only
  rw [State.msix_eq, State.msix_host]
  rfl

theorem State.post_eq (s : State) (f : Nat) (status tag : W32) (v : W64) (irq : Bool) :
    s.post f status tag v irq = { s with
      host := { s.host with mailboxes := (s.post f status tag v irq).host.mailboxes,
                            completed := (s.post f status tag v irq).host.completed },
      mem := { s.mem with host := (s.post f status tag v irq).mem.host }, out := (s.post f status tag v irq).out } := by
  unfold State.post
  simp only
  split
  · rfl
  · split
    · rw [State.signal_eq]; rfl
    · rfl

/-- A completion ends its command: it is no longer in progress. -/
theorem State.finish_inProgress (u s : State) (i : Issuer) (n : Nat) (d : BitVec 512) (status : W32) (v : W64) :
    (u.finish (s.newCmd i n d) status v).host.inProgress =
      u.host.inProgress.filter (fun c => decide (c.order ≠ s.host.order)) := by
  rw [State.finish_newCmd, State.post_eq]; rfl

end Sys2Proof.Machine
end

