-- ==== Sys2Proof/WellFormed.lean ====
section
/-! DEFINITION. Which commands are well formed: every unit number of an operand names a unit that the
module has (R11, R20), and an operand that the spec aligns is aligned. -/

namespace Sys2Proof

/-- The thread of an issue exists: partition 0 to 15 (R11), context number 0 to 65,535 (R120),
thread 0 to 31 (R84). -/
def Issue.wf (x : Issue) : Bool :=
  decide (x.part < 16) && decide (x.ctx < 65536) && decide (x.thr < 32)

/-- Every unit number of the command is in range. -/
def Instr.wf : Instr → Bool
  | .nop x _ _ => x.wf
  | .add x => x.wf
  | .sub x => x.wf
  | .mul x => x.wf
  | .mulhu x => x.wf
  | .mulh x => x.wf
  | .divu x => x.wf
  | .remu x => x.wf
  | .and x => x.wf
  | .or x => x.wf
  | .xor x => x.wf
  | .shl x => x.wf
  | .shr x => x.wf
  | .sra x => x.wf
  | .min x => x.wf
  | .max x => x.wf
  | .li x => x.wf
  | .lih x => x.wf
  | .sel x => x.wf
  | .setpEq x => x.wf
  | .setpNe x => x.wf
  | .setpLt x => x.wf
  | .setpLtu x => x.wf
  | .setpLe x => x.wf
  | .setpLeu x => x.wf
  | .pand x => x.wf
  | .por x => x.wf
  | .pxor x => x.wf
  | .pnot x => x.wf
  | .br x => x.wf
  | .jal x => x.wf
  | .jr x => x.wf
  | .rdsr x => x.wf
  | .icacheFill part ctx thr => decide (part < 16) && decide (ctx < 65536) && decide (thr < 32)
  | .ldB x _ => x.wf
  | .ldH x _ => x.wf
  | .ldW x _ => x.wf
  | .ldD x _ => x.wf
  | .ldBs x _ => x.wf
  | .ldHs x _ => x.wf
  | .ldWs x _ => x.wf
  | .stB x _ => x.wf
  | .stH x _ => x.wf
  | .stW x _ => x.wf
  | .stD x _ => x.wf
  | .atomAddW x _ => x.wf
  | .atomAddD x _ => x.wf
  | .atomAddF x _ => x.wf
  | .atomSwapW x _ => x.wf
  | .atomSwapD x _ => x.wf
  | .lsBankGrant rill bank => decide (rill < 1024) && decide (bank < 128)
  | .mxCfg x => x.wf
  | .mxLoad x => x.wf
  | .mxStream x => x.wf
  | .mxInit x => x.wf
  | .mxAcquire x => x.wf
  | .mxRelease x => x.wf
  | .mxPassStart rill => decide (rill < 1024)
  | .passCommitted rill => decide (rill < 1024)
  | .arrayStopRequest rill _ => decide (rill < 1024)
  | .arraySelfCheckDone rill _ => decide (rill < 1024)
  | .cellCorrected rill _ => decide (rill < 1024)
  | .cellUncorrected rill => decide (rill < 1024)
  | .feederUncorrected rill => decide (rill < 1024)
  | .accUncorrected rill _ _ _ => decide (rill < 1024)
  | .vxEw x => x.wf
  | .vxFma x => x.wf
  | .vxCvt x => x.wf
  | .vxRed x => x.wf
  | .vxCompress x => x.wf
  | .vxExpand x => x.wf
  | .vxRng x => x.wf
  | .vxOpt x => x.wf
  | .vxStart rill => decide (rill < 1024)
  | .vxComplete rill => decide (rill < 1024)
  | .vxStopRequest part ctx => decide (part < 16) && decide (ctx < 65536)
  | .vxSelfCheckDone rill _ => decide (rill < 1024)
  | .laneUncorrected rill _ _ => decide (rill < 1024)
  | .ftGet x => x.wf
  | .ftPut x => x.wf
  | .ftAddw x => x.wf
  | .ftAmoAdd x => x.wf
  | .ftAmoSwap x => x.wf
  | .ftCompletion _ _ _ _ _ => true
  | .remoteTimeout part ctx slot => decide (part < 16) && decide (ctx < 65536) && decide (slot < 128)
  | .syFence x => x.wf
  | .syWait x => x.wf
  | .sySlot x => x.wf
  | .syBar x => x.wf
  | .sySteal x => x.wf
  | .syYield x => x.wf
  | .syHalt x => x.wf
  | .tileHandover part ctx thr => decide (part < 16) && decide (ctx < 65536) && decide (thr < 32)
  | .tileListRefill part launch rill => decide (part < 16) && decide (launch < 65535) && decide (rill < 1024)
  | .frqOverflowMove cascade => decide (cascade < 64)
  | .regCorrected rill => decide (rill < 1024)
  | .regUncorrected rill => decide (rill < 1024)
  | .scratchpadUncorrected rill off _ => decide (rill < 1024) && decide (off < 0x100000 ∧ off % 4 = 0)
  | .scratchpadCorrected rill off _ => decide (rill < 1024) && decide (off < 0x100000 ∧ off % 4 = 0)
  | .bankReplaced rill bank => decide (rill < 1024) && decide (bank < 128)
  | .scrubRead rill bank => decide (rill < 1024) && decide (bank < 128)
  | .regionZeroed part ctx => decide (part < 16) && decide (ctx < 65536)
  | .streamOpen fn _ => decide (fn < 16)
  | .streamClose fn _ => decide (fn < 16)
  | .streamUpdate fn _ => decide (fn < 16)
  | .streamQuery fn _ => decide (fn < 16)
  | .streamCacheFill cascade stream => decide (cascade < 64) && decide (stream < 16384)
  | .entryUncorrected stream _ => decide (stream < 16384)
  | .stFlush => true
  | .partitionCreate fn _ => decide (fn < 16)
  | .partitionResize fn _ => decide (fn < 16)
  | .partitionDestroy fn _ => decide (fn < 16)
  | .partitionQuery fn _ => decide (fn < 16)
  | .resizeComplete part => decide (part < 16)
  | .graphLoad fn _ => decide (fn < 16)
  | .graphLaunch fn _ => decide (fn < 16)
  | .graphPreempt fn _ => decide (fn < 16)
  | .scheduleTableSet fn _ => decide (fn < 16)
  | .stepFence fn _ => decide (fn < 16)
  | .launchStepBoundary part launch => decide (part < 16) && decide (launch < 65535)
  | .phaseRelease part launch => decide (part < 16) && decide (launch < 65535)
  | .gateCheck part launch => decide (part < 16) && decide (launch < 65535)
  | .slotStart part => decide (part < 16)
  | .scheduleTableEffect part => decide (part < 16)
  | .contextStopRequest part ctx _ => decide (part < 16) && decide (ctx < 65536)
  | .contextSaveComplete part ctx => decide (part < 16) && decide (ctx < 65536)
  | .contextRestore rill => decide (rill < 1024)
  | .contextRestoreComplete part ctx => decide (part < 16) && decide (ctx < 65536)
  | .blockedSwap rill => decide (rill < 1024)
  | .dequeUncorrected part launch rill => decide (part < 16) && decide (launch < 65535) && decide (rill < 1024)
  | .locationUncorrected part ctx => decide (part < 16) && decide (ctx < 65536)
  | .rlOutOfService rill _ => decide (rill < 1024)
  | .hbmSelfRefreshEntry stack => decide (stack < 8)
  | .hbmScrubRead stack off _ => decide (stack < 8) && decide (off % 64 = 0)
  | .hbmUncorrected stack off => decide (stack < 8) && decide (off % 64 = 0)
  | .hbmRowRepair stack off _ => decide (stack < 8) && decide (off % 64 = 0)
  | .ddrScrubRead conn off _ => decide (conn < 4) && decide (off % 64 = 0)
  | .ddrUncorrected conn off => decide (conn < 4) && decide (off % 64 = 0)
  | .flashSectorWriteDone _ _ _ => true
  | .flashUncorrected _ _ => true
  | .disturbRefresh slice _ => decide (slice < 4)
  | .flashPatrol slice _ _ => decide (slice < 4)
  | .blockRetired slice _ => decide (slice < 4)
  | .poolCacheFill part _ => decide (part < 16)
  | .pcAddw _ _ => true
  | .pcAmo _ => true
  | .pcFlush part _ _ => decide (part < 16)
  | .pcScrub _ _ => true
  | .pcUncorrected _ => true
  | .hostWindowRead _ _ => true
  | .hostWindowWrite _ _ => true
  | .objectDeclare fn _ => decide (fn < 16)
  | .objectFree fn _ => decide (fn < 16)
  | .objectHint fn _ => decide (fn < 16)
  | .objectMove fn _ => decide (fn < 16)
  | .objectQuery fn _ => decide (fn < 16)
  | .quotaSet fn _ => decide (fn < 16)
  | .imageLoad fn _ => decide (fn < 16)
  | .imageFetchPeer fn _ => decide (fn < 16)
  | .imageBroadcast fn _ => decide (fn < 16)
  | .imageRecord part _ _ _ _ => decide (part < 16)
  | .peerTimeout part _ => decide (part < 16)
  | .broadcastAbort part _ => decide (part < 16)
  | .translationMissFill die part _ => decide (die < 4) && decide (part < 16)
  | .pageFirstAllocation part _ => decide (part < 16)
  | .pageStagingDone part _ => decide (part < 16)
  | .pageWriteBackDone part _ => decide (part < 16)
  | .pageMove part _ => decide (part < 16)
  | .pageMoveDone part _ => decide (part < 16)
  | .backgroundReclaim part tier => decide (part < 16) && decide (tier < 3)
  | .quotaStarved part ctx slot => decide (part < 16) && decide (ctx < 65536) && decide (slot < 128)
  | .bucketConfig fn _ => decide (fn < 16)
  | .normsRead fn _ => decide (fn < 16)
  | .rngKeySet fn _ => decide (fn < 16)
  | .bucketClose part bucket => decide (part < 16) && decide (bucket < 256)
  | .bucketFlushed part bucket => decide (part < 16) && decide (bucket < 256)
  | .bucketReduced part bucket => decide (part < 16) && decide (bucket < 256)
  | .rangePermute part launch _ => decide (part < 16) && decide (launch < 65535)
  | .signalDetect port => decide (port < 24)
  | .trainingComplete port _ => decide (port < 24)
  | .trainingRetry port => decide (port < 24)
  | .identityRecord port _ => decide (port < 24)
  | .portRetrain port => decide (port < 24)
  | .failedPortRetrain port => decide (port < 24)
  | .flitReceive port _ => decide (port < 24)
  | .ackTimer port => decide (port < 24)
  | .replayTimeout port => decide (port < 24)
  | .laneFailed port lane => decide (port < 24) && decide (lane < 4)
  | .portDown port => decide (port < 24)
  | .iplSpared link => decide (link < 6)
  | .replayFlit port _ => decide (port < 24)
  | .replayRecordExpiry port => decide (port < 24)
  | .truncated router port => decide (router < 4) && decide (port < 24)
  | .packetRoute router _ => decide (router < 4)
  | .remoteRequest router _ _ => decide (router < 4)
  | .tbSync _ _ => true
  | .fabricDiscover fn _ => decide (fn < 16)
  | .fabricAssign fn _ => decide (fn < 16)
  | .fabricRouteSet fn _ => decide (fn < 16)
  | .fabricSpareEnable fn _ => decide (fn < 16)
  | .collGroupCreate fn _ => decide (fn < 16)
  | .collLaunch fn _ => decide (fn < 16)
  | .collReshard fn _ => decide (fn < 16)
  | .collAbort fn _ => decide (fn < 16)
  | .handoverBegin fn _ => decide (fn < 16)
  | .contrib _ => true
  | .result _ => true
  | .data _ => true
  | .ack _ _ => true
  | .abort _ => true
  | .collResend part _ _ _ => decide (part < 16)
  | .stalled part _ _ => decide (part < 16)
  | .pcieLinkTrained _ _ _ => true
  | .flrVf _ => true
  | .flrPf0 => true
  | .hotReset => true
  | .perstN _ => true
  | .hostReadTimeout fn _ => decide (fn < 16)
  | .mbBankWrite fn _ _ _ => decide (fn < 16)
  | .mbDoorbell fn _ => decide (fn < 16)
  | .descriptorTake _ _ => true
  | .mbCqHead fn _ => decide (fn < 16)
  | .coalesceTimer fn => decide (fn < 16)
  | .cqWriteRetry fn _ => decide (fn < 16)
  | .spdmPlain fn _ => decide (fn < 16)
  | .spdmSecured fn _ => decide (fn < 16)
  | .powerOnReset => true
  | .crystalWindow _ => true
  | .xtalFail => true
  | .romBoot _ => true
  | .bootRailsUp => true
  | .sysrefLock => true
  | .sysrefWait => true
  | .pllFail domain => decide (domain < 12)
  | .bootTrainingDone _ _ => true
  | .wellheadStart => true
  | .bootRelease => true
  | .slateWrite fn _ _ => decide (fn < 16)
  | .fwStage fn _ _ => decide (fn < 16)
  | .fwActivate fn _ => decide (fn < 16)
  | .fwTrialTimer _ => true
  | .romWatchdog => true
  | .sensorSample _ => true
  | .logNorCopy _ => true
  | .discover => true
  | .spdmHandshake slot _ => decide (slot < 4)
  | .secured session _ => decide (session < 4)
  | .t1sFrameDropped _ => true
  | .beaconTimer => true
  | .beaconNow => true
  | .sessionFail slot => decide (slot < 4)
  | .sessionIdle session => decide (session < 4)
  | .plcaLost => true
  | .plcaBeacon => true
  | .identify _ => true
  | .identifyExpiry => true
  | .sramUncorrected => true
  | .droop terrace => decide (terrace < 4)
  | .stretchEnd terrace => decide (terrace < 4)
  | .oppStep terrace => decide (terrace < 4)
  | .powerCapLoop _ => true
  | .inputMonitor _ => true
  | .heartbeat => true
  | .heartbeatSlotCheck => true
  | .computeReset => true
  | .serviceResume _ => true
  | .cascadeReset cascade => decide (cascade < 64)
  | .cascadeSelfCheckDone rill _ => decide (rill < 1024)
  | .recovered _ _ => true
  | .dayRecordClose => true
  | .powerCapSet fn _ => decide (fn < 16)
  | .oppSet fn _ => decide (fn < 16)
  | .droopConfig fn _ => decide (fn < 16)
  | .resetCompute fn _ => decide (fn < 16)
  | .resetCascade fn _ => decide (fn < 16)
  | .serviceReturn fn _ => decide (fn < 16)
  | .vinUndervoltage => true
  | .vinOvervoltage => true
  | .overcurrent => true
  | .overcurrentRetry _ => true
  | .modRstN _ => true
  | .countersRead fn _ => decide (fn < 16)
  | .sampleConfig fn _ => decide (fn < 16)
  | .dumpRead fn _ => decide (fn < 16)
  | .logRead fn _ => decide (fn < 16)
  | .pcSample rill part _ _ _ _ => decide (rill < 1024) && decide (part < 16)
  | .counterSnapshot part _ => decide (part < 16)
  | .registerReadClear fn _ => decide (fn < 16)
  | .registerWrite fn _ _ => decide (fn < 16)
  | .trainingFailure port => decide (port < 24)
  | .clockSourceFailed source => decide (source < 14)
  | .escalationWindowClose => true
  | .contextNumberFree part ctx => decide (part < 16) && decide (ctx < 65536)
  | .staticDataMove slice _ => decide (slice < 4)
  | .vfEnable _ _ => true
  | .idLedNExpiry => true
  | .l0p _ _ => true

end Sys2Proof
end

