-- ==== Sys2Proof/Tests/Slice0.lean ====
section
/-! SUPPORT. Tests of single steps, and for each statement with hypotheses a state and operands that meet them. -/

namespace Sys2Proof.Tests

set_option Elab.async false

open Sys2Proof Sys2Proof.Machine

/-! ## WellFormed refuses -/

/-- The three checks of an issue. -/
theorem test_wf_issue_units (x : Issue) :
    ({ x with part := 16 } : Issue).wf = false ∧ ({ x with ctx := 65536 } : Issue).wf = false ∧
    ({ x with thr := 32 } : Issue).wf = false := by
  simp [Issue.wf]

theorem test_wf_issue_1 (vBitVec4 : BitVec 4) (vBitVec8 : BitVec 8) (vBool : Bool) (x : Issue) (h : x.wf = false) :
    (
    [.nop x vBitVec4 vBitVec8, .add x, .sub x, .mul x, .mulhu x, .mulh x, .divu x, .remu x, .and x, .or x, .xor x, .shl x, 
     .shr x, .sra x, .min x, .max x, .li x, .lih x, .sel x, .setpEq x, .setpNe x, .setpLt x, .setpLtu x, .setpLe x, 
     .setpLeu x, .pand x, .por x, .pxor x, .pnot x, .br x, .jal x, .jr x, .rdsr x, .ldB x vBool, .ldH x vBool, .ldW x vBool, 
     .ldD x vBool, .ldBs x vBool, .ldHs x vBool, .ldWs x vBool] : List Instr).all (fun i => !i.wf) = true := by
  simp [Instr.wf, h]

theorem test_wf_issue_2 (vBool : Bool) (x : Issue) (h : x.wf = false) :
    (
    [.stB x vBool, .stH x vBool, .stW x vBool, .stD x vBool, .atomAddW x vBool, .atomAddD x vBool, .atomAddF x vBool, 
     .atomSwapW x vBool, .atomSwapD x vBool, .mxCfg x, .mxLoad x, .mxStream x, .mxInit x, .mxAcquire x, .mxRelease x, .vxEw x, 
     .vxFma x, .vxCvt x, .vxRed x, .vxCompress x, .vxExpand x, .vxRng x, .vxOpt x, .ftGet x, .ftPut x, .ftAddw x, .ftAmoAdd x, 
     .ftAmoSwap x, .syFence x, .syWait x, .sySlot x, .syBar x, .sySteal x, .syYield x, .syHalt x] : List Instr).all (fun i => !i.wf) = true := by
  simp [Instr.wf, h]

theorem test_wf_unit_1 (vAccReader : AccReader) (vBitVec512 : BitVec 512) (vBitVec8 : BitVec 8) (vBool : Bool) (vLaneReader : LaneReader) :
    (
    [.icacheFill 16 0 0, .icacheFill 0 65536 0, .icacheFill 0 0 32, .lsBankGrant 1024 0, .lsBankGrant 0 128, 
     .mxPassStart 1024, .passCommitted 1024, .arrayStopRequest 1024 0, .arraySelfCheckDone 1024 vBool, 
     .cellCorrected 1024 vBitVec8, .cellUncorrected 1024, .feederUncorrected 1024, .accUncorrected 1024 0 0 vAccReader, 
     .vxStart 1024, .vxComplete 1024, .vxStopRequest 16 0, .vxStopRequest 0 65536, .vxSelfCheckDone 1024 vBool, 
     .laneUncorrected 1024 vBitVec8 0, .remoteTimeout 16 0 0, .remoteTimeout 0 65536 0, .remoteTimeout 0 0 128, 
     .tileHandover 16 0 0, .tileHandover 0 65536 0, .tileHandover 0 0 32, .tileListRefill 16 0 0, .tileListRefill 0 65535 0, 
     .tileListRefill 0 0 1024, .frqOverflowMove 64, .regCorrected 1024, .regUncorrected 1024, 
     .scratchpadUncorrected 1024 0 vLaneReader, .scratchpadCorrected 1024 0 vBool, .bankReplaced 1024 0, .bankReplaced 0 128, 
     .scrubRead 1024 0, .scrubRead 0 128, .regionZeroed 16 0, .regionZeroed 0 65536, .streamOpen 16 vBitVec512] : List Instr).all (fun i => !i.wf) = true := rfl

theorem test_wf_unit_2 (vBitVec512 : BitVec 512) (vBitVec64 : BitVec 64) (vEccResult : EccResult) (vOptionNat : Option Nat) :
    (
    [.streamClose 16 vBitVec512, .streamUpdate 16 vBitVec512, .streamQuery 16 vBitVec512, .streamCacheFill 64 0, 
     .streamCacheFill 0 16384, .entryUncorrected 16384 vOptionNat, .partitionCreate 16 vBitVec512, 
     .partitionResize 16 vBitVec512, .partitionDestroy 16 vBitVec512, .partitionQuery 16 vBitVec512, .resizeComplete 16, 
     .graphLoad 16 vBitVec512, .graphLaunch 16 vBitVec512, .graphPreempt 16 vBitVec512, .scheduleTableSet 16 vBitVec512, 
     .stepFence 16 vBitVec512, .launchStepBoundary 16 0, .launchStepBoundary 0 65535, .phaseRelease 16 0, 
     .phaseRelease 0 65535, .gateCheck 16 0, .gateCheck 0 65535, .slotStart 16, .scheduleTableEffect 16, 
     .contextStopRequest 16 0 0, .contextStopRequest 0 65536 0, .contextSaveComplete 16 0, .contextSaveComplete 0 65536, 
     .contextRestore 1024, .contextRestoreComplete 16 0, .contextRestoreComplete 0 65536, .blockedSwap 1024, 
     .dequeUncorrected 16 0 0, .dequeUncorrected 0 65535 0, .dequeUncorrected 0 0 1024, .locationUncorrected 16 0, 
     .locationUncorrected 0 65536, .rlOutOfService 1024 vBitVec64, .hbmSelfRefreshEntry 8, .hbmScrubRead 8 0 vEccResult] : List Instr).all (fun i => !i.wf) = true := rfl

theorem test_wf_unit_3 (vBitVec512 : BitVec 512) (vBool : Bool) (vEccResult : EccResult) (vListByte : List Byte) :
    (
    [.hbmUncorrected 8 0, .hbmRowRepair 8 0 vBool, .ddrScrubRead 4 0 vEccResult, .ddrUncorrected 4 0, .disturbRefresh 4 0, 
     .flashPatrol 4 0 vBool, .blockRetired 4 0, .poolCacheFill 16 0, .pcFlush 16 0 0, .objectDeclare 16 vBitVec512, 
     .objectFree 16 vBitVec512, .objectHint 16 vBitVec512, .objectMove 16 vBitVec512, .objectQuery 16 vBitVec512, 
     .quotaSet 16 vBitVec512, .imageLoad 16 vBitVec512, .imageFetchPeer 16 vBitVec512, .imageBroadcast 16 vBitVec512, 
     .imageRecord 16 0 0 vListByte vListByte, .peerTimeout 16 0, .broadcastAbort 16 0, .translationMissFill 4 0 0, 
     .translationMissFill 0 16 0, .pageFirstAllocation 16 0, .pageStagingDone 16 0, .pageWriteBackDone 16 0, .pageMove 16 0, 
     .pageMoveDone 16 0, .backgroundReclaim 16 0, .backgroundReclaim 0 3, .quotaStarved 16 0 0, .quotaStarved 0 65536 0, 
     .quotaStarved 0 0 128, .bucketConfig 16 vBitVec512, .normsRead 16 vBitVec512, .rngKeySet 16 vBitVec512, 
     .bucketClose 16 0, .bucketClose 0 256, .bucketFlushed 16 0, .bucketFlushed 0 256] : List Instr).all (fun i => !i.wf) = true := rfl

theorem test_wf_unit_4 (vBitVec16 : BitVec 16) (vBitVec256 : BitVec 256) (vBitVec32 : BitVec 32) (vBitVec4 : BitVec 4) (vBitVec512 : BitVec 512) (vBitVec64 : BitVec 64) (vBool : Bool) (vFlit : Flit) (vListByte : List Byte) (vNeighbourRecord : NeighbourRecord) :
    (
    [.bucketReduced 16 0, .bucketReduced 0 256, .rangePermute 16 0 0, .rangePermute 0 65535 0, .signalDetect 24, 
     .trainingComplete 24 vBitVec4, .trainingRetry 24, .identityRecord 24 vNeighbourRecord, .portRetrain 24, 
     .failedPortRetrain 24, .flitReceive 24 vFlit, .ackTimer 24, .replayTimeout 24, .laneFailed 24 0, .laneFailed 0 4, 
     .portDown 24, .iplSpared 6, .replayFlit 24 vFlit, .replayRecordExpiry 24, .truncated 4 0, .truncated 0 24, 
     .packetRoute 4 vBitVec256, .remoteRequest 4 vBitVec256 vListByte, .fabricDiscover 16 vBitVec512, 
     .fabricAssign 16 vBitVec512, .fabricRouteSet 16 vBitVec512, .fabricSpareEnable 16 vBitVec512, 
     .collGroupCreate 16 vBitVec512, .collLaunch 16 vBitVec512, .collReshard 16 vBitVec512, .collAbort 16 vBitVec512, 
     .handoverBegin 16 vBitVec512, .collResend 16 vBitVec16 vBitVec16 0, .stalled 16 vBitVec16 vBitVec16, 
     .hostReadTimeout 16 vBitVec32, .mbBankWrite 16 0 vListByte vBool, .mbDoorbell 16 vBitVec64, .mbCqHead 16 vBitVec64, 
     .coalesceTimer 16, .cqWriteRetry 16 vBool] : List Instr).all (fun i => !i.wf) = true := rfl

theorem test_wf_unit_5 (vBitVec3 : BitVec 3) (vBitVec512 : BitVec 512) (vBitVec64 : BitVec 64) (vBool : Bool) (vEccResult : EccResult) (vHandshakeMsg : HandshakeMsg) (vLaneReader : LaneReader) (vListByte : List Byte) :
    (
    [.spdmPlain 16 vBitVec512, .spdmSecured 16 vBitVec512, .pllFail 12, .slateWrite 16 vBitVec512 vBool, 
     .fwStage 16 vBitVec512 vBool, .fwActivate 16 vBitVec512, .spdmHandshake 4 vHandshakeMsg, .secured 4 vListByte, 
     .sessionFail 4, .sessionIdle 4, .droop 4, .stretchEnd 4, .oppStep 4, .cascadeReset 64, .cascadeSelfCheckDone 1024 vBool, 
     .powerCapSet 16 vBitVec512, .oppSet 16 vBitVec512, .droopConfig 16 vBitVec512, .resetCompute 16 vBitVec512, 
     .resetCascade 16 vBitVec512, .serviceReturn 16 vBitVec512, .countersRead 16 vBitVec512, .sampleConfig 16 vBitVec512, 
     .dumpRead 16 vBitVec512, .logRead 16 vBitVec512, .pcSample 1024 0 vBool vBitVec3 vBitVec3 vBool, 
     .pcSample 0 16 vBool vBitVec3 vBitVec3 vBool, .counterSnapshot 16 vBool, .registerReadClear 16 0, 
     .registerWrite 16 0 vBitVec64, .trainingFailure 24, .clockSourceFailed 14, .contextNumberFree 16 0, 
     .contextNumberFree 0 65536, .staticDataMove 4 0, .scratchpadUncorrected 0 0x100000 vLaneReader, 
     .scratchpadUncorrected 0 2 vLaneReader, .scratchpadCorrected 0 0x100000 vBool, .scratchpadCorrected 0 2 vBool, 
     .hbmScrubRead 0 2 vEccResult] : List Instr).all (fun i => !i.wf) = true := rfl

theorem test_wf_unit_6 (vBool : Bool) (vEccResult : EccResult) :
    (
    [.hbmUncorrected 0 2, .hbmRowRepair 0 2 vBool, .ddrScrubRead 0 2 vEccResult, .ddrUncorrected 0 2] : List Instr).all (fun i => !i.wf) = true := rfl

/-! ## A small machine

READY, TB at 1 s; partition 1 with cascade 0, one object of code, one launch of one phase; its context 0 resident on rill 0
with two threads, the second waiting for a tile. -/

def tInstrThread : Thread :=
  { hw := 0, regs := [(1, 5), (2, 7), (3, 0x208), (5, 0x20), (6, 0x40), (7, 0x60)], preds := 0x06, pc := 0x200010, st := .ready, wait := .none, yielding := 0,
    tile := none, restartPc := none }

def tCtx : Context :=
  { loc := .resident 0 0, launch := 0, regionBase := 0x4000, regionLen := 0x8000,
    threads := [tInstrThread, { tInstrThread with hw := 1, st := .waitTile, wait := .steal 4 }],
    slots := [], mode := 0, panel := none, stopped := false, stopReq := false, ownsArray := false, acc0 := [], acc1 := [],
    mx := [], vx := [], region := [], lostLanes := false, tbSave := 0, stopping := false, held := [], image := 0x400000,
    blockedSince := none, zeroing := false }

def tTile : Tile := { launch := 0, index := 3, phase := 0, args := 0x1234, retry := false, stolen := false }

def tPhase : Phase :=
  { firstTile := 0, tileCount := 4, normLayer := 1024, buckets := [], windows := [], gated := false, gateOff := 0, gateBase := 0,
    gateStep := 0 }

def tGraph : Graph :=
  { phases := [tPhase], tiles := List.replicate 4 (none, 0x1234), code := 0x200000, codeBytes := 0x100, entryPc := 0 }

def tLaunch : Launch :=
  { graph := 0, threads := 2, contexts := 1, region := 0x8000, steps := 0, tokens := none, step := 0, phase := 0,
    released := true, holding := false, parked := false, stop := false, ended := [], deques := [(0, [tTile])], lists := [],
    saveObj := 0x400000, slot := 0, rotor := [], cur := 0, norm0 := [], norm1 := [], incomplete := false, normBuf := [],
    stepStart := 0, bucketHold := 0, windowShrunk := false }

def tObj (pages role : Nat) : Obj :=
  { pages := pages, role := role, pin := 0, access := 0, window := 0, layers := [], imageId := none, loading := false,
    image := none, poisoned := false, freeing := false, nextWindow := none, nextLayers := none }

def tPart : Part :=
  { Part.reset with state := 1, serving := true, vf := 1, grant := ⟨1, 0xFF, BitVec.allOnes 64, 16⟩, quotaH := 64, quotaD := 64,
                    quotaF := 64, graphs := [(0, tGraph)], launches := [(0, tLaunch)],
                    objects := [(0x200000, tObj 1 7), (0x400000, tObj 1 6)] }

def tRill : Rill := { Rill.reset with frames := [(0, 65536)], icache := [(1, 0x200000)] }

def tState : State :=
  { State.reset with
    mode := .ready
    clk := { Clocks.reset with crystal := true, sysrefLock := true, arrLock := 0xF, tbRuns := true, tb := nsU 1000000000 }
    grotto := { Grotto.reset with stage := 3, powerStage := 9 }
    rills := [(0, tRill)], ctxs := [(65536, tCtx)], parts := [(1, tPart)] }

/-- An instruction word of thread 0. -/
def tIssue (rd ra rb : BitVec 5) (i : Bool) (imm : BitVec 32) : Issue :=
  { part := 1, ctx := 0, thr := 0, pn := false, pg := 0, rd := rd, ra := ra, rb := rb, i := i, imm := imm }

/-- A tile descriptor of R109 in 32 bytes. -/
def tDesc (addr rows cols stride fmt space : Nat) : List Byte :=
  leBytes 8 addr ++ leBytes 2 rows ++ leBytes 2 cols ++ leBytes 4 stride ++ leBytes 1 (fmt + 16 * space) ++ leBytes 15 0

/-- `tState` with bytes at a region offset of context 0 of partition 1, which starts at 0x4000 of rill 0. -/
def tWith (s : State) (off : Nat) (bs : List Byte) : State :=
  { s with mem := { s.mem with cells := Memory.writeN s.mem.cells (spadBase 0 + 0x4000 + off) bs } }

def tRillS (v : Rill) : State := { tState with rills := [(0, v)] }

def tCtxS (c : Context) : State := { tState with ctxs := [(65536, c)] }

def tPartS (q : Part) : State := { tState with parts := [(1, q)] }

theorem canIssue_of {s : State} {x y : Issue} {r : Nat} {c : Context} {h : Thread} (hy : s.canIssue y r c h)
    (h1 : x.part = y.part) (h2 : x.ctx = y.ctx) (h3 : x.thr = y.thr) : s.canIssue x r c h := by
  unfold State.canIssue State.issuer? at *
  rw [h1, h2, h3]
  exact hy

theorem tState_canIssue0 : tState.canIssue (tIssue 0 0 0 false 0) 0 tCtx tInstrThread :=
  ⟨by decide +kernel, by decide +kernel, by decide +kernel, by decide +kernel,
    by simp [tState, State.rill, Tab.getD, Tab.at?, tRill, Rill.reset]⟩

theorem tState_canIssue (rd ra rb : BitVec 5) (i : Bool) (imm : BitVec 32) :
    tState.canIssue (tIssue rd ra rb i imm) 0 tCtx tInstrThread := canIssue_of tState_canIssue0 rfl rfl rfl

theorem tState_calm : tState.calm 0 := by unfold State.calm; decide +kernel

theorem tState_settled : tState.settled 0 := by unfold State.settled State.calm; decide +kernel

/-! ## Commands -/

/-- A descriptor with an opcode and operand fields: byte, bit and value. -/
def tCmd (op : Nat) (fs : List (Nat × Nat × Nat)) : BitVec 512 :=
  BitVec.ofNat 512 (op + (fs.map (fun f => f.2.2 * 2 ^ (8 * f.1 + f.2.1))).sum)

/-- `s` with an enabled mailbox of PF0, whose ring of 64 completions is empty. -/
def tHost (s : State) : State :=
  { s with host := { s.host with mailboxes := [(0, { Mailbox.reset with enable := true, cqBase := 0x10000, sizeLog2 := 6 })] } }

theorem choose_one {α : Type} (s : State) (x : α) : s.choose [x] = some x := by simp [State.choose, Nat.mod_one]

theorem declare_one (s : State) (p b : Nat) (o : Obj) (hb : (s.part p).bases o.pages = [b])
    (hf : ({ s.part p with objects := (s.part p).objects.put b o } : Part).fits = true) :
    s.declare p o = some ((s.fresh).setPart p { s.part p with objects := (s.part p).objects.put b o }, b) := by
  simp [State.declare, hb, choose_one, hf]

theorem alloc_one (s : State) (p c : Nat) (x : Place) (hc : s.connectors = [c]) (hf : s.freeInConn s.usedPlaces c = [x]) :
    s.allocIn p 1 = some ((s.fresh).setPart p { s.part p with rotorD := c + 1 }, x) := by
  by_cases h : (s.part p).rotorD ≤ c
  · have h' : ¬ c < (s.part p).rotorD := by omega
    simp [State.allocIn, State.findOn, hc, hf, h, h', choose_one]
  · have h' : c < (s.part p).rotorD := by omega
    simp [State.allocIn, State.findOn, hc, hf, h, h', choose_one]

theorem of_any {α : Type} {o : Option α} {p : α → Bool} (h : o.any p = true) : ∃ x, o = some x ∧ p x = true := by
  cases o with
  | none => simp at h
  | some x => exact ⟨x, rfl, by simpa using h⟩

/-! ## Witnesses: the rill -/

theorem witness_StepRunsFront : ∃ (s : State) (c : Instr) (rest : List Instr), s.pending = c :: rest :=
  ⟨{ tState with pending := [.stFlush] }, .stFlush, [], rfl⟩

theorem witness_ScalarResults : ∃ (s : State) (x : Issue) (r : Nat) (c : Context) (h : Thread),
    s.canIssue x r c h ∧ x.guard h = true ∧ x.opbBad = false :=
  ⟨tState, tIssue 31 1 2 false 0, 0, tCtx, tInstrThread, tState_canIssue .., by decide, by decide⟩

theorem witness_MovesAndBranches :
    (∃ (s : State) (x : Issue) (r : Nat) (c : Context) (h : Thread),
      s.canIssue x r c h ∧ x.guard h = true ∧ x.i = false ∧ x.ra = 0 ∧ x.rb = 0 ∧ x.imm.toNat = 7) ∧
    (∃ (s : State) (x : Issue) (r : Nat) (c : Context) (h : Thread),
      s.canIssue x r c h ∧ x.guard h = true ∧ x.i = false ∧ x.ra = 0 ∧ x.rb = 0 ∧ x.imm.toNat = 9) ∧
    (∃ (s : State) (x : Issue) (r : Nat) (c : Context) (h : Thread),
      s.canIssue x r c h ∧ x.guard h = true ∧ x.i = false ∧ x.rd = 0 ∧ x.ra = 0 ∧ x.rb = 0 ∧ x.imm = 0) ∧
    (∃ (s : State) (x : Issue) (r : Nat) (c : Context) (h : Thread),
      s.canIssue x r c h ∧ x.guard h = true ∧ x.i = false ∧ x.rd = 0 ∧ x.rb = 0 ∧ x.imm = 0 ∧ (h.reg x.ra).toNat % 8 = 0 ∧
      h.reg x.ra = 0x208) :=
  ⟨⟨tState, tIssue 4 0 0 false 7, 0, tCtx, tInstrThread, tState_canIssue .., by decide, by decide⟩,
   ⟨tState, tIssue 4 0 0 false 9, 0, tCtx, tInstrThread, tState_canIssue .., by decide, by decide⟩,
   ⟨tState, tIssue 0 0 0 false 0, 0, tCtx, tInstrThread, tState_canIssue .., by decide, by decide⟩,
   ⟨tState, tIssue 0 3 0 false 0, 0, tCtx, tInstrThread, tState_canIssue .., by decide, by decide⟩⟩

theorem witness_PredicateResults :
    (∃ (s : State) (x : Issue) (r : Nat) (c : Context) (h : Thread),
      s.canIssue x r c h ∧ x.guard h = true ∧ x.rd.toNat = 7 ∧ x.opbBad = false) ∧
    (∃ (s : State) (x : Issue) (r : Nat) (c : Context) (h : Thread),
      s.canIssue x r c h ∧ x.guard h = true ∧ x.rd.toNat = 0 ∧ x.i = false ∧ x.imm = 0 ∧ x.ra.toNat = 7 ∧ x.rb = 0) :=
  ⟨⟨tState, tIssue 7 1 2 false 0, 0, tCtx, tInstrThread, tState_canIssue .., by decide, by decide⟩,
   ⟨tState, tIssue 0 7 0 false 0, 0, tCtx, tInstrThread, tState_canIssue .., by decide, by decide⟩⟩

theorem witness_FalseGuardRetires : ∃ (s : State) (x : Issue) (r : Nat) (c : Context) (h : Thread),
    s.canIssue x r c h ∧ x.guard h = false :=
  ⟨tState, { tIssue 1 1 2 false 0 with pn := true }, 0, tCtx, tInstrThread, canIssue_of tState_canIssue0 rfl rfl rfl, by decide⟩

theorem witness_IssueFaults :
    (∃ (s : State) (x : Issue) (r : Nat) (c : Context) (h : Thread),
      s.canIssue x r c h ∧ ∃ p ∈ issueRows x true, p.2 = false) ∧
    (∃ (s : State) (x : Issue) (r : Nat) (c : Context) (h : Thread),
      s.canIssue x r c h ∧ x.guard h = true ∧ lsIllegal x 3 = false ∧ x.lsAddr h % lsBytes 3 ≠ 0) ∧
    (∃ (s : State) (x : Issue) (r : Nat) (c : Context) (h : Thread),
      s.canIssue x r c h ∧ x.guard h = true ∧ lsIllegal x 3 = false ∧ x.lsAddr h % lsBytes 3 = 0 ∧ x.lsAddr h = 0x8000 ∧
      c.regionLen < x.lsAddr h + lsBytes 3) :=
  ⟨⟨tState, tIssue 1 1 2 false 1, 0, tCtx, tInstrThread, tState_canIssue .., (.add (tIssue 1 1 2 false 1), false), by decide +kernel, rfl⟩,
   ⟨tState, tIssue 1 1 0 false 0, 0, tCtx, tInstrThread, tState_canIssue .., by decide, by decide, by decide⟩,
   ⟨tState, tIssue 1 0 0 false 0x8000, 0, tCtx, tInstrThread, tState_canIssue .., by decide, by decide, by decide⟩⟩

theorem tState_lsReady (rd rb : BitVec 5) : tState.lsReady (tIssue rd 0 rb false 0x7FF8) 8 0 tCtx tInstrThread :=
  ⟨tState_canIssue .., by simp [Issue.guard, tIssue], rfl, by decide +revert +kernel, by decide +revert +kernel, by decide +revert +kernel,
    tState_calm⟩

theorem witness_LoadResults : ∃ (s : State) (x : Issue) (r : Nat) (c : Context) (h : Thread), ∃ p ∈ loadRows,
    s.lsReady x p.2.1 r c h ∧ x.rb = 0 ∧ x.lsAddr h + p.2.1 = c.regionLen :=
  ⟨tState, tIssue 1 0 0 false 0x7FF8, 0, tCtx, tInstrThread, (.ldD, 8, fun v => BitVec.ofNat 64 v), by simp [loadRows],
    tState_lsReady 1 0, rfl, by decide +kernel⟩

theorem witness_StoreResults : ∃ (s : State) (x : Issue) (r : Nat) (c : Context) (h : Thread), ∃ p ∈ storeRows,
    s.lsReady x p.2 r c h ∧ x.rd = 0 ∧ x.lsAddr h + p.2 = c.regionLen :=
  ⟨tState, tIssue 0 0 1 false 0x7FF8, 0, tCtx, tInstrThread, (.stD, 8), by simp [storeRows],
    tState_lsReady 0 1, rfl, by decide +kernel⟩

theorem witness_AtomicResults : ∃ (s : State) (x : Issue) (r : Nat) (c : Context) (h : Thread), ∃ p ∈ atomicRows,
    s.lsReady x p.2.1 r c h ∧ x.lsAddr h + p.2.1 = c.regionLen :=
  ⟨tState, tIssue 1 0 1 false 0x7FF8, 0, tCtx, tInstrThread, (.atomSwapD, 8, fun _ d => d), by simp [atomicRows],
    tState_lsReady 1 1, by decide +kernel⟩

theorem witness_AccessesQueue : ∃ (s : State) (x : Issue) (r : Nat) (c : Context) (h : Thread), ∃ p ∈ lsRows,
    s.canIssue x r c h ∧ x.guard h = true ∧ lsIllegal x p.2 = false ∧
    x.lsAddr h % lsBytes p.2 = 0 ∧ x.lsAddr h + lsBytes p.2 = c.regionLen :=
  ⟨tState, tIssue 1 0 0 false 0x7FF8, 0, tCtx, tInstrThread, (.ldD, 3), by simp [lsRows], tState_canIssue .., by decide,
    by decide, by decide, by decide⟩

def tLs : LsReq := { ctx := 65536, thr := 0, op := 3, off := 0x4000, rd := 31, data := 0 }

theorem witness_GrantsAndFills :
    (∃ (s : State) (r bank : Nat) (q : LsReq),
      s.pwr.held = false ∧ (s.rill r).lsWait.filter (fun q => decide (bankOf q.off = bank)) = [q] ∧ s.hwOf q < 32 ∧
      s.poisonAt r q.off (lsBytes q.op) = none ∧ s.calm r) ∧
    (∃ (s : State) (part ctx thr r off : Nat) (c : Context) (h : Thread),
      ctx < 65536 ∧ s.ctx? (ctxKey part ctx) = some c ∧ c.rillOf = some r ∧ c.thread? thr = some h ∧ h.wait = .line off ∧
      (s.part part).inObject off 256 = true ∧ (s.rill r).icache.length < 256) :=
  ⟨⟨tRillS { tRill with lsWait := [tLs] }, 0, bankOf 0x4000, tLs, by decide +kernel, by decide +kernel, by decide +kernel,
     by decide +kernel, by unfold State.calm; decide +kernel⟩,
   ⟨tCtxS { tCtx with threads := [{ tInstrThread with st := .waitQueue, wait := .line 0x3FFF00 }] }, 1, 0, 0, 0, 0x3FFF00,
     _, _, by decide +kernel, rfl, rfl, rfl, rfl, by decide +kernel, by decide +kernel⟩⟩


/-! ## Witnesses: the engines -/

/-- `tState` with three tiles of 2 × 2 16-bit elements, at 0x100, 0x140 and 0x180, whose descriptors are at 0x20, 0x40
and 0x60. -/
def tTiles (s : State) : State :=
  let row := leBytes 2 0x3F80 ++ leBytes 2 0x4000
  tWith (tWith (tWith (tWith (tWith (tWith (tWith s 0x20 (tDesc 0x100 2 2 16 2 0)) 0x40 (tDesc 0x140 2 2 16 2 0)) 0x60
    (tDesc 0x180 2 2 16 2 0)) 0x100 row) 0x110 row) 0x140 row) 0x150 row

def tDescVal (addr : Nat) : BitVec 256 := BitVec.ofNat 256 (leNat (tDesc addr 2 2 16 2 0))

def tMode : BitVec 32 := 0x22400000

/-- Context 0 of partition 1 owns the array of rill 0. -/
def tOwn : Rill := { tRill with array := { Rill.reset.array with owner := some 65536 } }

def tMx : State := tTiles { tRillS tOwn with ctxs := [(65536, { tCtx with mode := tMode, panel := some (tDescVal 0x140) })] }

theorem tMx_canIssue (x : Issue) (hp : x.part = 1) (hc : x.ctx = 0) (ht : x.thr = 0) :
    tMx.canIssue x 0 { tCtx with mode := tMode, panel := some (tDescVal 0x140) } tInstrThread :=
  canIssue_of (y := tIssue 0 0 0 false 0)
    ⟨by decide +kernel, by decide +kernel, by decide +kernel, by decide +kernel,
      by simp [tMx, tTiles, tWith, tRillS, tOwn, tState, State.rill, Tab.getD, Tab.at?, tRill, Rill.reset]⟩ hp hc ht

theorem tMx_settled : tMx.settled 0 := by unfold State.settled State.calm; decide +kernel

theorem witness_MatrixIssues :
    (∃ (s : State) (x : Issue) (r : Nat) (c : Context) (h : Thread),
      s.canIssue x r c h ∧ x.guard h = true ∧ mxFields x = false ∧ s.settled r ∧ s.arrayFree r (ctxKey x.part x.ctx) ∧
      x.ra = 0 ∧ bits x.imm.toNat 0 14 = 0 ∧ cfgOk x.imm = true) ∧
    (∃ (s : State) (x : Issue) (r : Nat) (c : Context) (h : Thread) (d : BitVec 256),
      s.canIssue x r c h ∧ x.guard h = true ∧ mxFields x = false ∧ s.settled r ∧ s.arrayFree r (ctxKey x.part x.ctx) ∧
      x.imm = 0 ∧ s.readDesc c r (h.reg x.ra).toNat false = .ok d ∧ tSpace d = 0) ∧
    (∃ (s : State) (x : Issue) (r : Nat) (c : Context) (h : Thread),
      s.canIssue x r c h ∧ x.guard h = true ∧ mxFields x = false ∧ s.settled r ∧ s.arrayFree r (ctxKey x.part x.ctx) ∧
      x.ra = 0 ∧ x.imm.toNat = 1) ∧
    (∃ (s : State) (x : Issue) (r : Nat) (c : Context) (h : Thread),
      s.canIssue x r c h ∧ x.guard h = true ∧ mxFields x = false ∧ s.settled r ∧ x.ra = 0 ∧ x.imm = 0 ∧
      (s.rill r).array.owner = none) :=
  ⟨⟨tMx, tIssue 0 0 0 false tMode, 0, _, _, tMx_canIssue _ rfl rfl rfl, by decide, by decide, tMx_settled,
     by unfold State.arrayFree; decide +kernel, by decide, by decide, by decide⟩,
   ⟨tMx, tIssue 0 5 0 false 0, 0, _, _, tDescVal 0x100, tMx_canIssue _ rfl rfl rfl, by decide, by decide, tMx_settled,
     by unfold State.arrayFree; decide +kernel, by decide, by decide +kernel, by decide +kernel⟩,
   ⟨tMx, tIssue 0 0 0 false 1, 0, _, _, tMx_canIssue _ rfl rfl rfl, by decide, by decide, tMx_settled,
     by unfold State.arrayFree; decide +kernel, by decide, by decide⟩,
   ⟨tState, tIssue 0 0 0 false 0, 0, _, _, tState_canIssue0, by decide, by decide, tState_settled, by decide, by decide,
     by decide +kernel⟩⟩

def tStream : QEntry := { ctx := 65536, thr := 0, op := 2, d := 0, a := 0x20, b := 0, imm := 0, order := 0 }

def tPass : State := { tMx with rills := [(0, { tOwn with mxQ := [tStream] })] }

theorem witness_PassStarts : ∃ (s : State) (r : Nat) (q : QEntry) (c : Context) (a b : BitVec 256),
    s.pwr.held = false ∧ s.running = true ∧ (s.rill r).mxQ = [q] ∧ (s.popMx r).arrayFree r q.ctx ∧
    (s.rill r).array.phase = .idle ∧ q.op = 2 ∧ s.ctx? q.ctx = some c ∧ s.lsPending q r = false ∧
    (s.popMx r).passCheck c r q = .run a b none ∧ s.tilePoison r c.regionBase a = none ∧
    s.tilePoison r c.regionBase b = none ∧ (∀ y ∈ (s.rill r).array.badAcc, y.1 ≠ immSet q.imm) ∧ s.settled r :=
  ⟨tPass, 0, tStream, { tCtx with mode := tMode, panel := some (tDescVal 0x140) }, tDescVal 0x100, tDescVal 0x140,
    by decide +kernel, by decide +kernel, by decide +kernel, by unfold State.arrayFree; decide +kernel, by decide +kernel,
    by decide, by decide +kernel, by decide +kernel, by decide +kernel, by decide +kernel, by decide +kernel,
    by decide +kernel, by unfold State.settled State.calm; decide +kernel⟩

/-- A pass of rill 0 that is under way. -/
def tRunning : MxArray :=
  { tOwn.array with cur := some tStream, phase := .running, passNo := 1, steps := 2000, w := [(0, 5), (4095, 6)] }

def tPassing : State := { tMx with rills := [(0, { tOwn with array := tRunning })] }

def tStopping : Context := { tCtx with stopping := true, mode := tMode }

def tPassStop : State :=
  { tMx with rills := [(0, { tOwn with array := tRunning, frames := [(0, 65536), (4, 65537)] })], ctxs := [(65536, tStopping)] }

theorem witness_PassEnds :
    (∃ (s : State) (r : Nat) (q : QEntry) (c : Context),
      s.pwr.held = false ∧ (s.rill r).array.cur = some q ∧ s.ctx? q.ctx = some c ∧
      modePass c.mode ≤ (s.rill r).array.passNo ∧ (s.rill r).mxQ = [] ∧ s.settled r) ∧
    (∃ (s : State) (r n : Nat) (q : QEntry) (c : Context),
      (s.rill r).array.cur = some q ∧ s.ctx? q.ctx = some c ∧ c.stopping = true ∧ n ≤ (s.rill r).array.steps ∧
      (s.rill r).array.steps - n = 1024) ∧
    (∃ (s : State) (r n : Nat) (q : QEntry) (c : Context),
      (s.rill r).array.cur = some q ∧ s.ctx? q.ctx = some c ∧ c.stopping = true ∧ n ≤ (s.rill r).array.steps ∧
      (s.rill r).array.steps - n = 1025 ∧ (s.rill r).mxQ = [] ∧ s.settled r) :=
  ⟨⟨tPassing, 0, tStream, _, by decide +kernel, by decide +kernel, rfl, by decide +kernel, by decide +kernel,
     by unfold State.settled State.calm; decide +kernel⟩,
   ⟨tPassStop, 0, 976, tStream, tStopping, by decide +kernel, by decide +kernel, by decide +kernel, by decide +kernel,
     by decide +kernel⟩,
   ⟨tPassStop, 0, 975, tStream, tStopping, by decide +kernel, by decide +kernel, by decide +kernel, by decide +kernel,
     by decide +kernel, by decide +kernel, by unfold State.settled State.calm; decide +kernel⟩⟩

def tSaving : State := { tState with rills := [(0, { tRill with frames := [(4, 65536)] })], ctxs := [(65536, { tCtx with loc := .saving 0 })] }

def tChecking : State := tRillS { tRill with array := { Rill.reset.array with phase := .selfCheck } }

theorem witness_ArrayErrors :
    (∃ (s : State) (r : Nat), (s.rill r).array.cur = none ∧ (s.rill r).mxQ = [] ∧ s.settled r ∧ s.pwr.recovery = none) ∧
    (∃ (s : State) (r : Nat), (s.rill r).array.cur = none ∧ (s.rill r).mxQ = [] ∧ s.settled r ∧
      (s.rill r).array.phase = .selfCheck) ∧
    (∃ (s : State) (r entry k : Nat) (c : Context),
      entry = 4095 ∧ (s.rill r).frames.at? 4 = some k ∧ s.ctx? k = some c ∧ c.loc = .saving r ∧ c.launch ≠ noLaunch ∧
      c.tiles = [] ∧ c.slots = [] ∧ c.mx = [] ∧ c.vx = [] ∧ c.blockedSince = none ∧ (s.rill r).mxQ = [] ∧ s.settled r ∧
      s.pwr.recovery = none) :=
  ⟨⟨tState, 0, by decide +kernel, by decide +kernel, tState_settled, by decide +kernel⟩,
   ⟨tChecking, 0, by decide +kernel, by decide +kernel, by unfold State.settled State.calm; decide +kernel, by decide +kernel⟩,
   ⟨tSaving, 0, 4095, 65536, { tCtx with loc := .saving 0 }, rfl, by decide +kernel, by decide +kernel, by decide +kernel,
     by decide +kernel, by decide +kernel, by decide +kernel, by decide +kernel, by decide +kernel, by decide +kernel,
     by decide +kernel, by unfold State.settled State.calm; decide +kernel, by decide +kernel⟩⟩

theorem witness_VectorIssues : ∃ (s : State) (x : Issue) (r : Nat) (c : Context) (h : Thread), ∃ p ∈ vectorRows,
    s.canIssue x r c h ∧ x.guard h = true ∧ x.i = false ∧ p.2.2 x = true ∧ (s.rill r).vxRoom = true :=
  ⟨tState, tIssue 7 5 6 false 1, 0, _, _, _, List.mem_cons_self, tState_canIssue .., by decide, by decide, by decide,
    by decide +kernel⟩

def tEw : QEntry := { ctx := 65536, thr := 0, op := 0, d := 0x60, a := 0x20, b := 0x40, imm := 1, order := 0 }

def tVx : State := tTiles (tRillS { tRill with vxQ := [tEw] })

def tVxEngine : VxEngine := match tVx.vxCheck tCtx 0 tEw with
  | .run e => e
  | _ => VxEngine.reset

def tVxBusy : State := tTiles (tRillS { tRill with vector := tVxEngine })

theorem witness_VectorRuns :
    (∃ (s : State) (r : Nat) (q : QEntry) (c : Context) (e : VxEngine),
      s.pwr.held = false ∧ s.ctx? q.ctx = some c ∧ (s.rill r).mxQ = [] ∧ s.settled r ∧
      s.running = true ∧ (s.rill r).vector.cur = none ∧ (s.rill r).vector.selfCheck = false ∧ (s.rill r).vxQ = [q] ∧
      s.getF (vxDisable r) = 0 ∧ s.lsPending q r = false ∧ s.vxCheck c r q = .run e ∧ e.streams = []) ∧
    (∃ (s : State) (r : Nat) (q : QEntry) (c : Context) (u : State) (l : List (Nat × Nat × Nat)),
      s.pwr.held = false ∧ s.ctx? q.ctx = some c ∧ (s.rill r).mxQ = [] ∧ s.settled r ∧ (s.rill r).vector.cur = some q ∧
      q.op ≠ 7 ∧ c.launch ≠ noLaunch ∧ s.runBeats c r (s.rill r).vector q [] 0 (s.rill r).vector.beats = (u, l, none)) ∧
    (∃ (s : State) (r p n : Nat) (c : Context),
      s.ctx? (ctxKey p n) = some c ∧ c.rillOf = some r ∧ c.stopping = true ∧ s.calm r) ∧
    (∃ (s : State) (r : Nat), (s.rill r).vector.cur = none ∧ (s.rill r).mxQ = [] ∧ s.settled r ∧ s.pwr.recovery = none) ∧
    (∃ (s : State) (r : Nat), (s.rill r).vector.selfCheck = true) :=
  ⟨⟨tVx, 0, tEw, tCtx, tVxEngine, by decide +kernel, by decide +kernel, by decide +kernel,
     by unfold State.settled State.calm; decide +kernel, by decide +kernel, by decide +kernel, by decide +kernel,
     by decide +kernel, by decide +kernel, by decide +kernel, by decide +kernel, by decide +kernel⟩,
   ⟨tVxBusy, 0, tEw, tCtx, (tVxBusy.runBeats tCtx 0 tVxEngine tEw [] 0 1).1, (tVxBusy.runBeats tCtx 0 tVxEngine tEw [] 0 1).2.1,
     by decide +kernel, by decide +kernel, by decide +kernel,
     by unfold State.settled State.calm; decide +kernel, by decide +kernel, by decide, by decide, by decide +kernel⟩,
   ⟨tPassStop, 0, 1, 0, tStopping, by decide +kernel, by decide +kernel, by decide +kernel, by unfold State.calm; decide +kernel⟩,
   ⟨tState, 0, by decide +kernel, by decide +kernel, tState_settled, by decide +kernel⟩,
   ⟨tRillS { tRill with vector := { VxEngine.reset with selfCheck := true } }, 0, by decide +kernel⟩⟩


/-! ## Witnesses: fetch and put, synchronisation, tiles -/

/-- `tState` with a scratchpad tile descriptor at 0x20 and memory tile descriptors at 0x40 (this module) and 0x60 (chip 3),
of 2 × 2 32-bit integers. -/
def tFtBase (s : State) : State :=
  tWith (tWith (tWith s 0x20 (tDesc 0x100 2 2 16 0xD 0)) 0x40 (tDesc 0xFFFF100000200040 2 2 16 0xD 1)) 0x60
    (tDesc 0x0003100000200040 2 2 16 0xD 1)

def tFt : State := tFtBase { tState with fabric := { Fabric.reset with chip := 5 } }

theorem tFt_canIssue (x : Issue) (hp : x.part = 1) (hc : x.ctx = 0) (ht : x.thr = 0) : tFt.canIssue x 0 tCtx tInstrThread :=
  canIssue_of (y := tIssue 0 0 0 false 0)
    ⟨by decide +kernel, by decide +kernel, by decide +kernel, by decide +kernel,
      by simp [tFt, tFtBase, tWith, tState, State.rill, Tab.getD, Tab.at?, tRill, Rill.reset]⟩ hp hc ht

/-- The operation that a tile copy of `tFt` is. -/
def tFtOp (kind : Nat) (mem : Nat) : FtOp := match tFt.ftCheck tCtx 0 kind 0x20 mem with
  | .run o => o
  | _ => { kind := 9, spad := 0, memory := 0, addr := 0, operand := 0, remote := false }

def tFtAmo (kind : Nat) (a : W64) : FtOp :=
  { kind := kind, spad := 0, memory := 0, addr := a, operand := 7, remote := tFt.isRemote a.toNat }

/-- `tFt` with an address in s8. -/
def tFtAt (a : W64) : State :=
  { tFt with ctxs := [(65536, { tCtx with threads := [{ tInstrThread with regs := tInstrThread.regs ++ [(8, a)] }] })] }

theorem witness_FetchPutIssues :
    (∀ kind ∈ [0, 1, 2], tFt.canIssue (tIssue 4 5 6 false 0) 0 tCtx tInstrThread ∧
      (tIssue 4 5 6 false 0).guard tInstrThread = true ∧ tCtx.freeSlot = some 0 ∧ (tFt.rill 0).trackers.length < 128 ∧
      tFt.ftCheck tCtx 0 kind 0x20 0x40 = .run (tFtOp kind 0x40) ∧ (tFtOp kind 0x40).remote = false ∧
      faPart (tFtOp kind 0x40).address = keyPart 65536 ∧ (tFt.part 1).mapped (tFtOp kind 0x40) = true ∧
      (kind = 0 → ∀ m ∈ (tFtOp kind 0x40).pages, tFt.fence 1 0 m (tFtOp kind 0x40).epoch = .proceed ∧
        tFt.bucketPass 1 m (tFtOp kind 0x40).writes = .proceed ∧ tFt.pageUse 1 m (tFtOp kind 0x40).writes = .ready)) ∧
    (∀ kind ∈ [0, 1, 2], tFt.ftCheck tCtx 0 kind 0x20 0x60 = .run (tFtOp kind 0x60) ∧ (tFtOp kind 0x60).remote = true ∧
      tFt.fabric.chip ≠ 0xFFFF) ∧
    (∀ kind ∈ [3, 4], (tIssue 4 0 2 false 0).lsAddr tInstrThread % 8 = 0 ∧ (tFtAmo kind 0x0003100000200008).remote = true) :=
  ⟨fun kind h => ⟨tFt_canIssue _ rfl rfl rfl, by decide, by decide +kernel, by decide +kernel, by revert kind; decide +kernel⟩,
    by decide +kernel, by decide +kernel⟩

/-- Slot 127 of context 0 holds an atomic on another module. -/
def tSlot : Slot :=
  { op := tFtAmo 3 0x0003100000200008, thr := 0, done := false, status := 0, value := 0, issued := 0, discard := false,
    applied := [], translated := false, refused := false, sinceTile := true, quotaSince := none }

def tOpen : State := { tFt with ctxs := [(65536, { tCtx with slots := [(127, tSlot)] })] }

theorem witness_FetchPutCompletes : ∃ (s : State) (p n m r : Nat) (c : Context) (z : Slot),
    p < 16 ∧ n < 65536 ∧ m < 128 ∧ s.ctx? (ctxKey p n) = some c ∧ c.rillOf = some r ∧ c.launch ≠ noLaunch ∧
    c.slots.at? m = some z ∧ z.done = false ∧ z.refused = false ∧ z.discard = false ∧ z.op.remote = true ∧
    s.calm r ∧ s.noneLeaving ∧ 3 ≤ z.op.kind ∧ z.issued + nsU 2000000 ≤ s.now ∧ c.slots.at? 0 = none :=
  ⟨tOpen, 1, 0, 127, 0, { tCtx with slots := [(127, tSlot)] }, tSlot, by decide, by decide, by decide, by decide +kernel,
    by decide +kernel, by decide +kernel, by decide +kernel, rfl, rfl, rfl, by decide +kernel,
    by unfold State.calm; decide +kernel, by unfold State.noneLeaving; decide +kernel, by decide, by decide +kernel,
    by decide +kernel⟩

/-- A context whose only other thread is IDLE, with a completed slot 5. -/
def tSyncCtx : Context :=
  { tCtx with threads := [tInstrThread, { tInstrThread with hw := 1, st := .idle, wait := .none }],
              slots := [(5, { tSlot with done := true, value := 0x1234 })] }

def tSync : State := { tFt with ctxs := [(65536, tSyncCtx)] }

theorem tSync_canIssue (x : Issue) (hp : x.part = 1) (hc : x.ctx = 0) (ht : x.thr = 0) :
    tSync.canIssue x 0 tSyncCtx tInstrThread :=
  canIssue_of (y := tIssue 0 0 0 false 0)
    ⟨by decide +kernel, by decide +kernel, by decide +kernel, by decide +kernel,
      by simp [tSync, tFt, tFtBase, tWith, tState, State.rill, Tab.getD, Tab.at?, tRill, Rill.reset]⟩ hp hc ht

theorem witness_SyncResults :
    (∃ (s : State) (x : Issue) (r : Nat) (c : Context) (h : Thread),
      s.canIssue x r c h ∧ x.guard h = true ∧ x.i = false ∧ s.calm r ∧ Issue.noRegs x = true ∧ c.doneOf x.thr = [] ∧
      x.imm.toNat = 2 ∧ s.pendingClasses (ctxKey x.part x.ctx) x.thr 15 c = false) ∧
    (∃ (s : State) (x : Issue) (r : Nat) (c : Context) (h : Thread),
      s.canIssue x r c h ∧ x.guard h = true ∧ x.i = false ∧ s.calm r ∧ Issue.noRegs x = true ∧ c.doneOf x.thr = [] ∧
      x.imm.toNat = 15 ∧ s.pendingClasses (ctxKey x.part x.ctx) x.thr x.imm.toNat c = false) ∧
    (∃ (s : State) (x : Issue) (r : Nat) (c : Context) (h : Thread) (z : Slot),
      s.canIssue x r c h ∧ x.guard h = true ∧ x.i = false ∧ s.calm r ∧ x.rb = 0 ∧ x.imm = 0 ∧
      c.slots.at? ((h.reg x.ra).toNat % 128) = some z ∧ z.discard = false ∧ z.done = true ∧ z.status = 0) ∧
    (∃ (s : State) (x : Issue) (r : Nat) (c : Context) (h : Thread),
      s.canIssue x r c h ∧ x.guard h = true ∧ x.i = false ∧ s.calm r ∧ Issue.noRegs x = true ∧ x.imm.toNat = 15 ∧
      ∀ n h', c.thread? n = some h' → n ≠ x.thr → h'.st = .free ∨ h'.st = .idle) :=
  ⟨⟨tState, tIssue 0 0 0 false 2, 0, _, _, tState_canIssue .., by decide, by decide, tState_calm, by decide, by decide +kernel,
     by decide, by decide +kernel⟩,
   ⟨tState, tIssue 0 0 0 false 15, 0, _, _, tState_canIssue .., by decide, by decide, tState_calm, by decide, by decide +kernel,
     by decide, by decide +kernel⟩,
   ⟨tSync, tIssue 4 1 0 false 0, 0, _, _, { tSlot with done := true, value := 0x1234 }, tSync_canIssue _ rfl rfl rfl, by decide,
     by decide, by unfold State.calm; decide +kernel, by decide, by decide, by decide +kernel, rfl, rfl, rfl⟩,
   ⟨tSync, tIssue 0 0 0 false 15, 0, _, _, tSync_canIssue _ rfl rfl rfl, by decide, by decide,
     by unfold State.calm; decide +kernel, by decide, by decide, by
      intro n h' hn hne
      match n with
      | 0 => exact absurd rfl hne
      | 1 => simp [tSyncCtx, Context.thread?] at hn; subst hn; exact .inr rfl
      | n + 2 => simp [tSyncCtx, Context.thread?] at hn⟩⟩

/-- The launch past its last phase. -/
def tOver : State := { tState with parts := [(1, { tPart with launches := [(0, { tLaunch with phase := 1 })] })] }

theorem tOver_canIssue (x : Issue) (hp : x.part = 1) (hc : x.ctx = 0) (ht : x.thr = 0) : tOver.canIssue x 0 tCtx tInstrThread :=
  canIssue_of (y := tIssue 0 0 0 false 0)
    ⟨by decide +kernel, by decide +kernel, by decide +kernel, by decide +kernel,
      by simp [tOver, tState, State.rill, Tab.getD, Tab.at?, tRill, Rill.reset]⟩ hp hc ht

theorem witness_StealResults :
    (∃ (s : State) (x : Issue) (r : Nat) (c : Context) (h : Thread) (l : Launch) (ti : Tile) (rest : List Tile),
      s.canIssue x r c h ∧ x.guard h = true ∧ x.i = false ∧ x.ra = 0 ∧ x.rb = 0 ∧ x.imm = 0 ∧ x.ctx < 65536 ∧ s.calm r ∧
      h.tile = none ∧ s.launch? x.part c.launch = some l ∧ (s.part x.part).stepOver l = false ∧
      s.handsOut x.part c.launch r = true ∧ l.deques.getD r [] = ti :: rest) ∧
    (∃ (s : State) (x : Issue) (r : Nat) (c : Context) (h : Thread) (l : Launch),
      s.canIssue x r c h ∧ x.guard h = true ∧ x.i = false ∧ x.ra = 0 ∧ x.rb = 0 ∧ x.imm = 0 ∧ x.ctx < 65536 ∧ s.calm r ∧
      h.tile = none ∧ s.launch? x.part c.launch = some l ∧ (s.part x.part).stepOver l = true) :=
  ⟨⟨tState, tIssue 31 0 0 false 0, 0, _, _, tLaunch, tTile, [], tState_canIssue .., by decide, by decide, by decide, by decide,
     by decide, by decide, tState_calm, by decide, by decide +kernel, by decide +kernel, by decide +kernel, by decide +kernel⟩,
   ⟨tOver, tIssue 0 0 0 false 0, 0, _, _, { tLaunch with phase := 1 }, tOver_canIssue _ rfl rfl rfl, by decide, by decide,
     by decide, by decide, by decide, by decide, by unfold State.calm; decide +kernel, by decide, by decide +kernel,
     by decide +kernel⟩⟩

def tFrState : State := { tState with frqOver := [(63, [{ part := 1, tile := tTile }])] }

theorem witness_TilesMove :
    (∃ (s : State) (p n thr r : Nat) (c : Context) (h : Thread) (l : Launch) (rd : Nat) (ti : Tile) (rest : List Tile),
      s.pwr.held = false ∧ n < 65536 ∧ s.ctx? (ctxKey p n) = some c ∧ c.rillOf = some r ∧ c.thread? thr = some h ∧
      c.stopped = false ∧ c.stopping = false ∧ c.zeroing = false ∧ s.pwr.resetting = none ∧ h.wait = .steal rd ∧
      s.launch? p c.launch = some l ∧ (s.part p).stepOver l = false ∧ s.handsOut p c.launch r = true ∧
      l.deques.getD r [] = ti :: rest ∧ s.calm r) ∧
    (∃ (s : State) (p h : Nat) (l : Launch), s.pwr.held = false ∧ s.launch? p h = some l) ∧
    (∃ (s : State) (c : Nat) (x : FrItem) (rest : List FrItem), s.pwr.held = false ∧ s.frqOverflow c = x :: rest ∧
      (s.frq c).length < 256) :=
  ⟨⟨tState, 1, 0, 1, 0, tCtx, _, tLaunch, 4, tTile, [], by decide +kernel, by decide, by decide +kernel, by decide +kernel, rfl, rfl,
     rfl, rfl, rfl, rfl, by decide +kernel, by decide +kernel, by decide +kernel, by decide +kernel, tState_calm⟩,
   ⟨tState, 1, 0, tLaunch, by decide +kernel, by decide +kernel⟩,
   ⟨tFrState, 63, { part := 1, tile := tTile }, [], by decide +kernel, by decide +kernel, by decide +kernel⟩⟩


/-! ## Witnesses: scratchpads, streams, partitions and launches -/

/-- Nothing is on rill 9. -/
def tHit : State := tRillS { tRill with hitBanks := [127] }

def tZero : State := tCtxS { tCtx with zeroing := true }

theorem witness_ScratchpadEvents :
    (∃ (s : State) (r : Nat), s.pwr.recovery = none ∧ s.residentOn r = []) ∧
    (∃ (s : State) (r off : Nat), off < 0x100000 ∧ off % 4 = 0 ∧ (s.rill r).poison.contains off = false ∧
      (s.rill r).hitBanks.contains (bankOf off) = false ∧ s.pwr.recovery = none ∧ s.ctxsAt r off = [] ∧
      (s.rill r).mxQ = [] ∧ s.settled r ∧ off = 0xFFFFC) ∧
    (∃ (s : State) (r bank : Nat), s.getF (spSparesUsed r) < 2 ∧ (s.rill r).hitBanks.contains bank = true ∧
      s.pwr.recovery = none) ∧
    (∃ (s : State) (r p n f : Nat) (c : Context), s.ctx? (ctxKey p n) = some c ∧ c.loc = .resident r f ∧ c.zeroing = true) :=
  ⟨⟨tState, 9, by decide +kernel, by decide +kernel⟩,
   ⟨tState, 0, 0xFFFFC, by decide, by decide, by decide +kernel, by decide +kernel, by decide +kernel, by decide +kernel,
     by decide +kernel, tState_settled, rfl⟩,
   ⟨tHit, 0, 127, by decide +kernel, by decide +kernel, by decide +kernel⟩,
   ⟨tZero, 0, 1, 0, 0, { tCtx with zeroing := true }, by decide +kernel, by decide +kernel, by decide +kernel⟩⟩

/-- An ACTIVE training stream of partition 1, and its copy in cascade 63. -/
def tEntry : BitVec 1024 := eSet (eSet 0 0 0 3 1) 0 4 4 1

def tStreams : State := tHost { tState with streams := [(16383, tEntry)], parts := [(1, tPart)] }

def tCopies : State :=
  { tStreams with streamCaches := [(63, [(16383, { entry := tEntry, g2 := 0, u2 := 0, w2 := 0, elems := 0, used := 0 })])] }

theorem witness_StreamTableEvents :
    (∃ (s : State) (c n : Nat), c < 64 ∧ n < 16384 ∧ s.copy? c n = none ∧ (s.copies c).length < 64) ∧
    (∃ (s : State) (c n : Nat) (y : StreamCopy), c = 63 ∧ n = 16383 ∧ s.copy? c n = some y ∧ ((s.copies c).del n).length < 64) :=
  ⟨⟨tStreams, 63, 16383, by decide, by decide, by decide +kernel, by decide +kernel⟩,
   ⟨tCopies, 63, 16383, { entry := tEntry, g2 := 0, u2 := 0, w2 := 0, elems := 0, used := 0 }, rfl, rfl, by decide +kernel,
     by decide +kernel⟩⟩

def dOpen : BitVec 512 := tCmd 0x0501 [(16, 4, 1), (17, 0, 64), (24, 0, 0x200000)]

def dUpdate : BitVec 512 := tCmd 0x0503 [(16, 0, 16383), (18, 0, 7), (20, 0, 9), (24, 0, 0x77)]

def dClose : BitVec 512 := tCmd 0x0502 [(16, 0, 16383)]

def dQuery : BitVec 512 := tCmd 0x0504 [(16, 0, 16383), (20, 0, 1), (24, 0, 0x8000)]

/-- Rill 0 runs a pass that holds the stream's copy in its cascade. -/
def tHeld : State := { tStreams with rills := [(0, { tRill with array := { tOwn0 with cur := some tQ0, streams := [16383] } })] }
  where
    tOwn0 : MxArray := Rill.reset.array
    tQ0 : QEntry := { ctx := 65536, thr := 0, op := 2, d := 0, a := 0x20, b := 0, imm := 0, order := 0 }

theorem witness_StreamCommands :
    (∃ (s : State) (fn : Nat) (d : BitVec 512) (m : Nat), s.accepted streamOpenRow fn d ∧ openFieldsOk d = true ∧ dfld d 44 15 1 = 0 ∧
      ((s.part (s.opPart streamOpenRow fn d)).objAt (dfld d 24 0 44)).isSome = true ∧ s.freeEntry = some m ∧
      s.entriesOf (s.opPart streamOpenRow fn d) < (s.part (s.opPart streamOpenRow fn d)).grant.streams ∧ dfld d 16 1 1 = 0) ∧
    (∃ (s : State) (fn : Nat) (d : BitVec 512), let n := dfld d 16 0 14
      s.accepted vfNone fn d ∧ dfld d 16 14 2 = 0 ∧ s.notOwner (s.newCmd vfNone fn d) n = false ∧ dfld d 18 0 16 < 32 ∧
      dfld d 60 0 32 = 0 ∧ eState (s.entry n) = 1 ∧ eGeneration (s.entry n) = false ∧ bit (dfld d 18 0 16) 4 = false ∧
      bit (dfld d 18 0 16) 3 = false) ∧
    (∃ (s : State) (fn : Nat) (d : BitVec 512), let n := dfld d 16 0 14
      s.accepted vfNone fn d ∧ dfld d 16 14 2 = 0 ∧ s.notOwner (s.newCmd vfNone fn d) n = false ∧
      dRestZero d [(16, 0, 16), (18, 0, 1)] = true ∧ eState (s.entry n) = 1 ∧ s.isLinked n = false ∧
      ((s.begun vfNone fn d).setEntry n (eSet (s.entry n) 0 0 3 2)).released n = false ∧ s.released n = false) ∧
    (∃ (s : State) (fn : Nat) (d : BitVec 512), let n := dfld d 16 0 14
      s.accepted vfNone fn d ∧ dfld d 16 14 2 = 0 ∧ s.notOwner (s.newCmd vfNone fn d) n = false ∧
      dRestZero d [(16, 0, 16), (18, 0, 1)] = true ∧ eState (s.entry n) = 1 ∧ s.isLinked n = false ∧ s.released n = true ∧
      (∀ a, a < 64 → s.copy? a n = none) ∧ dfld d 18 0 1 = 0) ∧
    (∃ (s : State) (fn : Nat) (d : BitVec 512), let n := dfld d 16 0 14
      s.accepted vfNone fn d ∧ fn = 0 ∧ dRestZero d [(16, 0, 14), (18, 0, 1), (20, 0, 16), (24, 0, 64)] = true ∧
      dfld d 20 0 16 = 1 ∧ dfld d 24 0 64 % 128 = 0 ∧ dfld d 18 0 1 = 0 ∧ ∀ a, a < 64 → s.copy? a n = none) :=
  ⟨⟨tStreams, 0, dOpen, 0, by unfold State.accepted; decide +kernel, by decide +kernel, by decide +kernel, by decide +kernel,
     by decide +kernel, by decide +kernel, by decide +kernel⟩,
   ⟨tStreams, 0, dUpdate, by unfold State.accepted; decide +kernel⟩,
   ⟨tHeld, 0, dClose, by unfold State.accepted; decide +kernel⟩,
   ⟨tStreams, 0, dClose, by unfold State.accepted; decide +kernel⟩,
   ⟨tStreams, 0, dQuery, by unfold State.accepted; decide +kernel⟩⟩

def tBare : State := tHost { tState with parts := [], ctxs := [], rills := [] }

/-- Partition 1 holds nothing. -/
def tEmpty : Part := { tPart with graphs := [], launches := [], objects := [] }

def tEmptyS : State := tHost { tState with parts := [(1, tEmpty)], ctxs := [], rills := [] }

/-- A grant of cascade 0, a group and a way of each die. -/
def fGrant : List (Nat × Nat × Nat) := [(20, 0, 16), (24, 0, 1), (32, 0, 0xFF), (40, 0, 0x0001000100010001)]

def dCreate : BitVec 512 := tCmd 0x0101 ((16, 0, 1) :: fGrant)

def dResize : BitVec 512 := tCmd 0x0102 ((16, 0, 1) :: fGrant)

def tResizing : State :=
  { tState with parts := [(1, { tEmpty with state := 2, stage := 3, newGrant := some (grantOf dResize) })], ctxs := [], rills := [] }

theorem witness_PartitionCommands :
    (∃ (s : State) (fn : Nat) (d : BitVec 512), let i : Issuer := ⟨true, some 0, false⟩
      s.accepted i fn d ∧ s.grantCheck (dfld d 16 0 4) (grantOf d) = none ∧ dfld d 20 0 15 ≤ 16384 ∧
      (s.part (dfld d 16 0 4)).state = 0 ∧ dRestZero d grantFields = true ∧ dfld d 18 0 4 ≤ s.host.numVfs ∧ dfld d 18 0 4 = 0) ∧
    (∃ (s : State) (fn : Nat) (d : BitVec 512), let i : Issuer := ⟨true, some 0, false⟩
      s.accepted i fn d ∧ s.grantCheck (dfld d 16 0 4) (grantOf d) = none ∧ dfld d 20 0 15 ≤ 16384 ∧
      (s.part (dfld d 16 0 4)).state = 1 ∧
      dRestZero d [(16, 0, 4), (20, 0, 15), (24, 0, 64), (32, 0, 64), (40, 0, 64)] = true ∧
      (s.part (dfld d 16 0 4)).allHold = false) ∧
    (∃ (s : State) (fn : Nat) (d : BitVec 512), s.accepted vfPart fn d ∧ fn = 0 ∧
      dRestZero d [(16, 0, 4), (24, 0, 64)] = true ∧ dfld d 24 0 64 % 64 = 0) ∧
    (∃ (s : State) (fn : Nat) (d : BitVec 512), let p := dfld d 16 0 4
      s.accepted pfPart fn d ∧ dOpcode d = 0x0103 ∧ dRestZero d [(16, 0, 4)] = true ∧ (s.part p).state ≠ 3 ∧
      (s.part p).launches = [] ∧ (s.part p).objects = [] ∧ (∀ e ∈ s.streams, eState e.2 = 0 ∨ ePart e.2 ≠ p) ∧
      (∀ o ∈ s.coll.ops, o.part ≠ p) ∧ (∀ e ∈ s.host.inProgress, dOpcode e.d ≠ 0x0102 ∧ dOpcode e.d ≠ 0x0103) ∧ s.noneLeaving) ∧
    (∃ (s : State) (p : Nat) (g : Grant), (s.part p).newGrant = some g ∧ (s.part p).state = 2 ∧ (s.part p).stage = 3 ∧
      (s.part p).pages = [] ∧ s.mem.lines = [] ∧ s.host.inProgress = [] ∧ s.noneLeaving ∧ s.ctxs = []) :=
  ⟨⟨tBare, 0, dCreate, by unfold State.accepted; decide +kernel⟩,
   ⟨tHost tState, 0, dResize, by unfold State.accepted; decide +kernel⟩,
   ⟨tStreams, 0, tCmd 0x0104 [(16, 0, 1), (24, 0, 0x40)], by unfold State.accepted; decide +kernel⟩,
   ⟨tEmptyS, 0, tCmd 0x0103 [(16, 0, 1)], by unfold State.accepted State.noneLeaving; decide +kernel⟩,
   ⟨tResizing, 1, grantOf dResize, by unfold State.noneLeaving; decide +kernel⟩⟩

/-- A graph image of one phase and one tile in host memory, with 8 bytes of code. -/
def tImage : List Byte :=
  leBytes 4 0x4B475231 ++ leBytes 2 1 ++ leBytes 2 1 ++ leBytes 4 1 ++ leBytes 4 8 ++ leBytes 8 0 ++ leBytes 4 64 ++ leBytes 4 128 ++
  leBytes 4 160 ++ leBytes 4 160 ++ leBytes 24 0 ++
  leBytes 4 0 ++ leBytes 4 1 ++ leBytes 2 0xFFFF ++ leBytes 54 0 ++ leBytes 32 0 ++ leBytes 8 0x1D

def tLoadS : State := { tEmptyS with mem := { tEmptyS.mem with host := Memory.writeN [] 0x1000 tImage } }

def dLoad : BitVec 512 := tCmd 0x0401 [(16, 0, 1), (24, 0, 0x1000), (32, 0, 168)]

def tRead : Option (GraphHead × Graph) := tLoadS.readGraph 1 (tLoadS.srcLe 1 false 0x1000) 168

def tGraphS : State := tHost { tState with parts := [(1, { tPart with launches := [], objects := [] })], ctxs := [], rills := [] }

def tNoGraph : GraphHead × Graph :=
  ({ phases := 0, tiles := 0, code := 0, entry := 0, phaseOff := 0, tileOff := 0, listOff := 0, codeOff := 0 }, tGraph)

def dLaunch : BitVec 512 := tCmd 0x0402 [(16, 0, 1), (20, 0, 5), (22, 0, 1), (24, 0, 1), (28, 0, 1)]

def tParked : State := tHost { tState with parts := [(1, { tPart with launches := [(0, { tLaunch with parked := true })] })] }

def dTable : BitVec 512 := tCmd 0x0405 [(16, 0, 1), (20, 0, 1), (24, 0, 0x2000)]

def tTableS : State :=
  { tHost tState with mem := { tState.mem with host := Memory.writeN [] 0x2000 (leBytes 8 (100 + 0xFFFF * 2 ^ 24)) } }

def tSlots : Option (List SlotEntry) := allSome ((List.range 1).map (fun j =>
  tPart.readSlot (Memory.le tTableS.mem.host (0x2000 + 8 * j) 8)))

theorem tGraphS_starts : ∃ v, (tGraphS.begun vfPart 0 dLaunch).startLaunch
    (tGraphS.opPart vfPart 0 dLaunch) dLaunch tGraph = some v := by
  have hd := declare_one (tGraphS.begun vfPart 0 dLaunch) (tGraphS.opPart vfPart 0 dLaunch) 0 (Obj.plain ((dfld dLaunch 24 0 32 * (0x10000 +
    dfld dLaunch 28 0 16 * 0x10000) + 32 * tGraph.tiles.length + pageBytes - 1) / pageBytes) 6) (by decide +kernel) (by decide +kernel)
  unfold State.startLaunch
  dsimp only
  rw [hd]
  exact ⟨_, rfl⟩

theorem tLoad_declares : ∃ v b, (tLoadS.begun vfPart 0 dLoad).declare (tLoadS.opPart vfPart 0 dLoad)
    (Obj.plain (max 1 (((tRead.getD tNoGraph).1.code + pageBytes - 1) / pageBytes)) 7) = some (v, b) :=
  ⟨_, 0, declare_one _ _ 0 _ (by decide +kernel) (by decide +kernel)⟩

theorem witness_GraphCommands :
    (∃ (s : State) (fn : Nat) (d : BitVec 512) (g : Graph), let q := s.part (s.opPart vfPart fn d)
      s.accepted vfPart fn d ∧ dfld d 17 1 1 = 1 ∧ dRestZero d [(16, 0, 4), (17, 1, 1), (20, 0, 16)] = true ∧
      q.graphs.at? (dfld d 20 0 16) = some g ∧ ∀ l ∈ q.launches, l.2.graph ≠ dfld d 20 0 16) ∧
    (∃ (s : State) (fn : Nat) (d : BitVec 512) (g : GraphHead × Graph) (k b : Nat) (v : State), let p := s.opPart vfPart fn d
      s.accepted vfPart fn d ∧ dfld d 17 0 2 = 0 ∧ dRestZero d [(16, 0, 4), (17, 0, 1), (24, 0, 64), (32, 0, 64)] = true ∧
      s.readGraph p (s.srcLe p false (dfld d 24 0 64)) (dfld d 32 0 64) = some g ∧
      (List.range 64).find? (fun k => ((s.part p).graphs.at? k).isNone) = some k ∧
      (s.begun vfPart fn d).declare p (Obj.plain (max 1 ((g.1.code + pageBytes - 1) / pageBytes)) 7) = some (v, b)) ∧
    (∃ (s : State) (fn : Nat) (d : BitVec 512) (l : Launch), let q := s.part (s.opPart vfPart fn d)
      s.accepted vfPart fn d ∧ dfld d 17 0 1 = 1 ∧ dRestZero d [(16, 0, 4), (17, 0, 1), (20, 0, 16)] = true ∧
      q.launches.at? (dfld d 20 0 16) = some l ∧ l.parked = true) ∧
    (∃ (s : State) (fn : Nat) (d : BitVec 512) (g : Graph) (v : State), let p := s.opPart vfPart fn d
      s.accepted vfPart fn d ∧ dfld d 17 0 1 = 0 ∧ s.launchOk p d = true ∧ (s.part p).launches.length < 4 ∧
      (s.part p).graphs.at? (dfld d 18 0 16) = some g ∧ (s.begun vfPart fn d).startLaunch p d g = some v) ∧
    (∃ (s : State) (fn : Nat) (d : BitVec 512) (l : Launch) (k : Nat), let p := s.opPart vfPart fn d; let h := dfld d 20 0 16
      s.accepted vfPart fn d ∧ dRestZero d [(16, 0, 4), (20, 0, 16)] = true ∧ s.launch? p h = some l ∧ (s.part p).state = 1 ∧
      l.parked = false ∧ k ∈ s.ctxsOf p h ∧ (s.ctx? k).any (fun x => decide (x.loc ≠ .saved)) = true) ∧
    (∃ (s : State) (fn : Nat) (d : BitVec 512), let p := s.opPart vfPart fn d
      s.accepted vfPart fn d ∧ dRestZero d [(16, 0, 4), (17, 0, 1), (20, 0, 16)] = true ∧ (s.launch? p (dfld d 20 0 16)).isSome = true) ∧
    (∃ (s : State) (fn : Nat) (d : BitVec 512) (es : List SlotEntry), let q := s.part (dfld d 16 0 4)
      s.accepted pfPart fn d ∧ q.serving = true ∧ q.schedule = none ∧ dRestZero d [(16, 0, 4), (20, 0, 16), (24, 0, 64)] = true ∧
      1 ≤ dfld d 20 0 16 ∧ dfld d 20 0 16 ≤ 64 ∧ dfld d 24 0 64 % 8 = 0 ∧ allSome ((List.range (dfld d 20 0 16)).map (fun j =>
        q.readSlot (Memory.le s.mem.host (dfld d 24 0 64 + 8 * j) 8))) = some es) :=
  ⟨⟨tGraphS, 0, tCmd 0x0401 [(16, 0, 1), (17, 1, 1)], tGraph, by unfold State.accepted; decide +kernel⟩,
   tLoad_declares.elim fun v hv => hv.elim fun b hb => ⟨tLoadS, 0, dLoad, tRead.getD tNoGraph, 0, b, v,
     by unfold State.accepted; decide +kernel, by decide +kernel, by decide +kernel, by decide +kernel, by decide +kernel, hb⟩,
   ⟨tParked, 0, tCmd 0x0402 [(16, 0, 1), (17, 0, 1)], { tLaunch with parked := true }, by unfold State.accepted; decide +kernel⟩,
   tGraphS_starts.elim fun v hv => ⟨tGraphS, 0, dLaunch, tGraph, v, by unfold State.accepted; decide +kernel, by decide +kernel,
     by decide +kernel, by decide +kernel, by decide +kernel, hv⟩,
   ⟨tHost tState, 0, tCmd 0x0403 [(16, 0, 1)], tLaunch, 65536, by unfold State.accepted; decide +kernel⟩,
   ⟨tHost tState, 0, tCmd 0x0404 [(16, 0, 1)], by unfold State.accepted; decide +kernel⟩,
   ⟨tTableS, 0, dTable, tSlots.getD [], by unfold State.accepted; decide +kernel⟩⟩


/-! ## Witnesses: phases, schedules and contexts -/

def tUnreleased : Launch := { tLaunch with released := false, deques := [] }

/-- Phase 0 waits to be released; the gate of phase 0 is at 0 and open. -/
def tGated (gated : Bool) : State :=
  tPartS { tPart with graphs := [(0, { tGraph with phases := [{ tPhase with gated := gated }] })], launches := [(0, tUnreleased)] }

theorem witness_PhaseReleases : ∃ (s : State) (p h : Nat) (l : Launch) (g : Graph) (ph : Phase),
    let q := s.part p
    let rills := q.rills.filter s.inService
    let l' := q.releaseTiles rills g h l.phase ((List.range ph.tileCount).map (fun i => ph.firstTile + i))
      { l with released := true, ended := [] }
    s.pwr.held = false ∧ q.launches.at? h = some l ∧ q.graphs.at? l.graph = some g ∧ g.phases[l.phase]? = some ph ∧
    l.released = false ∧ l.holding = false ∧ q.state = 1 ∧ q.bucketsReady ph = true ∧ s.gateOpen p ph l.step = true ∧
    l.phase = 0 ∧ l.step = 0 ∧ rills ≠ [] ∧ q.launchLayers l' = [] ∧ ph.gated = true :=
  ⟨tGated true, 1, 0, tUnreleased, { tGraph with phases := [{ tPhase with gated := true }] }, { tPhase with gated := true },
    by decide +kernel⟩

/-- The last phase of the only launch is over, and the partition holds nothing else. -/
def tDone : State :=
  { tPartS { tPart with objects := [], launches := [(0, { tUnreleased with phase := 1 })] } with ctxs := [] }

def tSchedule : Schedule :=
  { entries := [⟨100, 0, false⟩, ⟨50, 0xFFFF, false⟩], start := 0, slot := 0, early := false }

def tSlotS : State := tPartS { tPart with schedule := some { tSchedule with start := 999890000 } }

def tTakeOff : State :=
  tPartS { tPart with nextSchedule := some { entries := [], start := 1000000000, slot := 0, early := false } }

theorem witness_StepsAndSchedules :
    (∃ (s : State) (p h : Nat) (l : Launch), s.pwr.held = false ∧ s.launch? p h = some l ∧ s.stepDone p h l = true ∧
      l.steps = 0 ∧ l.tokens = none ∧ (s.part p).state = 1 ∧ (s.part p).schedule = none ∧ (s.part p).objects = [] ∧
      (s.part p).buckets = [] ∧ s.coll.reshards = [] ∧ s.host.inProgress = []) ∧
    (∃ (s : State) (p : Nat) (c : Schedule) (e : SlotEntry), s.pwr.held = false ∧ (s.part p).state = 1 ∧
      (s.part p).schedule = some c ∧ c.start ≤ s.tbNs ∧ c.period ≠ 0 ∧
      slotAt c.entries 0 ((s.tbNs - c.start) % c.period) ≠ c.slot ∧
      c.entries[slotAt c.entries 0 ((s.tbNs - c.start) % c.period)]? = some e ∧ (s.part p).launches.at? e.launch = none ∧
      Tab.sorted s.ctxs = true) ∧
    (∃ (s : State) (p : Nat) (n : Schedule), s.pwr.held = false ∧ (s.part p).state = 1 ∧ (s.part p).nextSchedule = some n ∧
      n.start = s.tbNs ∧ n.entries = []) :=
  ⟨⟨tDone, 1, 0, { tUnreleased with phase := 1 }, by decide +kernel⟩,
   ⟨tSlotS, 1, { tSchedule with start := 999890000 }, ⟨50, 0xFFFF, false⟩, by decide +kernel⟩,
   ⟨tTakeOff, 1, { entries := [], start := 1000000000, slot := 0, early := false }, by decide +kernel⟩⟩

/-- Frame 4 of rill 0 is taken, and a queued instruction is of context 0, whose stop is asked for. -/
def tStopReq : State :=
  { tState with
    rills := [(0, { tRill with frames := [(0, 65536), (4, 65537)], mxQ := [tStream] })],
    ctxs := [(65536, { tCtx with stopReq := true })] }

theorem witness_ContextSaves :
    (∃ (s : State) (p n r f : Nat) (c : Context), s.pwr.held = false ∧ s.ctx? (ctxKey p n) = some c ∧ s.calm r ∧
      c.loc = .resident r f ∧ c.stopReq = true ∧ c.stopping = false ∧ c.zeroing = false ∧
      ((s.rill r).frames.at? 4).isSome = true) ∧
    (∃ (s : State) (p n r : Nat) (c : Context), s.pwr.held = false ∧ s.ctx? (ctxKey p n) = some c ∧ s.calm r ∧
      c.loc = .saving r ∧ (∀ m ∈ c.imagePages, s.pagePoison (keyPart (ctxKey p n)) m = false) ∧ s.saveLanes r c = [] ∧
      (∀ y ∈ s.residentOn r, y.2.stopping = false) ∧ (s.part p).state = 1 ∧
      (∀ e ∈ s.host.inProgress, dOpcode e.d ≠ 0x0403)) :=
  ⟨⟨tStopReq, 1, 0, 0, 0, { tCtx with stopReq := true }, by unfold State.calm; decide +kernel⟩,
   ⟨tSaving, 1, 0, 0, { tCtx with loc := .saving 0 }, by unfold State.calm; decide +kernel⟩⟩

/-- The only context is saved, and its region is as long as a scratchpad. -/
def tSavedCtx : Context := { tCtx with loc := .saved, regionLen := 0x100000 }

def tSaved : State := { tState with rills := [], ctxs := [(65536, tSavedCtx)] }

def tBackCtx : Context :=
  { tCtx with loc := .restoring 0, region := [(0, 0xAA), (0x7FFF, 0xBB)], threads := [tInstrThread, tInstrThread] }

def tRestoring : State := { tState with rills := [(0, { tRill with frames := [(4, 65536)] })], ctxs := [(65536, tBackCtx)] }

theorem tSaved_base : tSaved.choose (tSaved.freeBases 0 0x100000 none) = some 0 := by
  rw [show tSaved.freeBases 0 0x100000 none = [0] by decide +kernel, choose_one]

theorem witness_ContextRestores :
    (∃ (s : State) (r p k : Nat) (c : Context) (b : Nat), s.pwr.held = false ∧ s.partOfCascade (r / 16) = some p ∧
      s.restoresOn p r = true ∧ (s.rill r).frames.at? 4 = none ∧
      firstOffered (s.rill r).swap (s.restorable p r none) = some (k, c) ∧ s.ctx? k = some c ∧
      (∀ m ∈ c.imagePages, s.pagePoison (keyPart k) m = false) ∧ s.choose (s.freeBases r c.regionLen none) = some b) ∧
    (∃ (s : State) (r p n : Nat) (c : Context), let k := ctxKey p n
      s.pwr.held = false ∧ s.ctx? k = some c ∧ c.loc = .restoring r ∧ c.zeroing = false ∧
      (∀ m ∈ c.imagePages, s.pagePoison (keyPart k) m = false) ∧ c.slots = [] ∧ c.mx = [] ∧ c.vx = [] ∧ c.held = [] ∧
      c.lostLanes = false ∧ c.ownsArray = false ∧ c.stopping = false ∧ (∀ h ∈ c.threads, h.wait = .none) ∧
      (∃ f, f < 4 ∧ (s.rill r).frames.at? f = none) ∧ c.threads.length ≤ (s.freeHw r).length ∧ (s.rill r).mxQ = [] ∧
      s.settled r ∧ (∀ y ∈ s.residentOn r, y.2.stopping = false) ∧ Memory.wf s.mem.cells = true ∧ Memory.wf c.region = true ∧
      ∀ y ∈ c.region, y.1 < c.regionLen) :=
  ⟨⟨tSaved, 0, 1, 65536, tSavedCtx, 0, by decide +kernel, by decide +kernel, by decide +kernel, by decide +kernel, by decide +kernel,
     by decide +kernel, by decide +kernel, tSaved_base⟩,
   ⟨tRestoring, 0, 1, 0, tBackCtx, by decide +kernel, by decide +kernel, by decide +kernel, by decide +kernel, by decide +kernel,
     by decide +kernel, by decide +kernel, by decide +kernel, by decide +kernel, by decide +kernel, by decide +kernel,
     by decide +kernel, by decide +kernel, ⟨3, by decide, by decide +kernel⟩, by decide +kernel, by decide +kernel,
     by unfold State.settled State.calm; decide +kernel, by decide +kernel, by decide +kernel, by decide +kernel, by decide +kernel⟩⟩

/-- Context 0 has been blocked for 900 ms, and context 1 is saved. -/
def tBlockedCtx : Context :=
  { tCtx with slots := [(127, tSlot)], blockedSince := some (nsU 100000000),
              threads := [{ tInstrThread with st := .waitRemote, wait := .none }] }

def tSwap : State :=
  { tState with ctxs := [(65536, tBlockedCtx), (65537, { tSavedCtx with regionLen := 0x8000 })] }.setF swSwapEn 1

theorem witness_ContextEvents :
    (∃ (s : State) (r p k : Nat) (c : Context), s.pwr.held = false ∧ s.partOfCascade (r / 16) = some p ∧
      victimOf (s.residentOn r) = some (k, c) ∧ s.getF swSwapEn = 1 ∧ s.restorable p r (some k) ≠ [] ∧ s.restoresOn p r = true ∧
      ∀ x ∈ s.residentOn r, x.2.stopReq = false ∧ x.2.blockedSince = some (nsU 100000000) ∧
        nsU 100000000 + nsU (max 1 (s.getF swSwapHold)) ≤ s.now) ∧
    (∃ (s : State) (r p h : Nat) (l : Launch), s.launch? p h = some l ∧ r < 1024 ∧
      bit (s.part p).grant.cascades.toNat (r / 16) = true ∧ l.released = false ∧ s.pwr.recovery = none) ∧
    (∃ (s : State) (p n : Nat) (c : Context), s.ctx? (ctxKey p n) = some c ∧ c.launch ≠ noLaunch) ∧
    (∃ (s : State) (r : Nat), r = 1023 ∧ s.inService r = true ∧ s.residentOn r = [] ∧ s.parts = []) ∧
    (∃ (s : State) (p n b : Nat), (s.part p).retired.at? n = some b ∧ b + nsU 2000000 = s.now) ∧
    (∃ (s : State) (p n b : Nat), (s.part p).retired.at? n = some b ∧ s.now < b + nsU 2000000) :=
  ⟨⟨tSwap, 0, 1, 65536, tBlockedCtx, by decide +kernel⟩,
   ⟨tGated false, 15, 1, 0, tUnreleased, by decide +kernel⟩,
   ⟨tState, 1, 0, tCtx, by decide +kernel⟩,
   ⟨tBare, 1023, by decide +kernel⟩,
   ⟨tPartS { tPart with retired := [(9, nsU 998000000)] }, 1, 9, nsU 998000000, by decide +kernel⟩,
   ⟨tPartS { tPart with retired := [(9, nsU 1000000000)] }, 1, 9, nsU 1000000000, by decide +kernel⟩⟩


/-! ## Witnesses: memory -/

/-- Stack 7 is trained, scrubbed and repaired; connector 3 has 131,072 pages and is scrubbed. -/
def tMem : State :=
  (((((tState.setF (hbTrained 7) 1).setF (hbScrubEn 7) 1).setF (hbRepairEn 7) 1).setF (ddTrained 3) 1).setF (ddPages 3) 131072).setF
    (ddScrubEn 3) 1

def tBad : State :=
  { tMem with mem := { tMem.mem with poison := [((stackPlace 7 (stackLen - 1)).key, true)], rowErrs := [(rowKey 7 (stackLen - 1), [1])] } }

theorem witness_MemoryErrors :
    (∃ (s : State) (n off : Nat), let hb := stackPlace n off
      n < 8 ∧ off = stackLen - 1 ∧ s.getF (hbTrained n) = 1 ∧ s.mem.lastReq.getD n 0 + nsU 10000000 ≤ s.now ∧
      s.getF (hbScrubEn n) = 1 ∧ s.mem.poison.at? hb.key = none ∧
      (∀ q ∈ s.parts, ∀ g ∈ q.2.pages, g.2.a ≠ some hb ∧ g.2.b ≠ some hb ∧ g.2.dest ≠ some hb) ∧
      s.recordsOf (fun k => keyStack k == some n) < stackRecords n) ∧
    (∃ (s : State) (n off : Nat), let hb := stackPlace n off
      n < 8 ∧ off = stackLen - 1 ∧ s.getF (hbRepairEn n) = 1 ∧ (s.mem.poison.at? hb.key).isSome = true ∧
      hb.key ∉ s.mem.retired ∧ ∀ q ∈ s.parts, ∀ g ∈ q.2.pages, g.2.a ≠ some hb ∧ g.2.b ≠ some hb ∧ g.2.dest ≠ some hb) ∧
    (∃ (s : State) (n off : Nat), let dd := connPlace n off
      s.connHas n off = true ∧ off = 131072 * pageBytes - 1 ∧ s.getF (ddScrubEn n) = 1 ∧ s.mem.poison.at? dd.key = none ∧
      (∀ q ∈ s.parts, ∀ g ∈ q.2.pages, g.2.a ≠ some dd ∧ g.2.b ≠ some dd ∧ g.2.dest ≠ some dd) ∧ off / pageBytes < 131072 ∧
      s.recordsOf (fun k => keyConn k == some n) < 4096) :=
  ⟨⟨tMem, 7, stackLen - 1, by decide +kernel⟩, ⟨tBad, 7, stackLen - 1, by decide +kernel⟩,
   ⟨tMem, 3, 131072 * pageBytes - 1, by decide +kernel⟩⟩

theorem witness_FlashEvents :
    (∃ (s : State) (page sector d : Nat) (bs : List Byte), page = flashPages - 1 ∧ sector = 31 ∧ d = 3 ∧
      bs.length = sectorBytes ∧ s.getF fsMode ≠ 2) ∧
    (∃ (s : State), s.getF fsMode = 2) ∧
    (∃ (s : State) (page : Nat), page = flashPages - 1 ∧ (∀ q ∈ s.parts, ∀ g ∈ q.2.pages, g.2.a ≠ some ⟨2, page⟩ ∧ g.2.b ≠ some ⟨2, page⟩) ∧
      s.mem.poison.at? (2 ^ 40 + page) = none) ∧
    (∃ (s : State), s.getF (fsPatrolEn 3) = 1) :=
  ⟨⟨tState, flashPages - 1, 31, 3, List.replicate sectorBytes 0, rfl, rfl, rfl, List.length_replicate, by decide +kernel⟩,
   ⟨tState.setF fsMode 2, by decide +kernel⟩, ⟨tState, flashPages - 1, by decide +kernel⟩,
   ⟨tState.setF (fsPatrolEn 3) 1, by decide +kernel⟩⟩

/-- The page of partition 1 at 0x200000 is in page 5 of HBM, and the line at local address 0xA00000 is present, dirty. -/
def tPage : Page :=
  { state := .resident, a := some ⟨0, 5⟩, b := none, dirty := 0, poison := false, arrived := 0, dest := none, level := 0,
    holds := 0, used := 0 }

def tLine (dirty : Bool) : State :=
  { tState with
    parts := [(1, { tPart with grant := { tPart.grant with ways := 0x8001 }, pages := [(1, tPage)] })]
    mem := { tState.mem with lines := [(0xA000, { part := 1, way := 15, dirty := dirty, used := 0 })] } }

/-- Slot 0 of context 0 is an operation on the first bytes of that page. -/
def tOp (kind : Nat) : Slot :=
  { tSlot with op := { kind := kind, spad := BitVec.ofNat 256 (leNat (tDesc 0x100 1 2 16 0xD 0)),
                       memory := BitVec.ofNat 256 (leNat (tDesc 0xFFFF100000200000 1 2 16 0xD 1)), addr := 0xFFFF100000200008,
                       operand := 7, remote := false },
               translated := true }

def tOpS (kind : Nat) : State := { tLine true with ctxs := [(65536, { tCtx with slots := [(0, tOp kind)] })] }

theorem witness_PoolCache :
    (∃ (s : State) (p a w : Nat), p < 16 ∧ s.populated a = true ∧ s.line? a = none ∧
      (List.range 16).find? (fun w => bit (s.part p).grant.ways.toNat (16 * dieOf (a / 256 * 256) + w) &&
        (s.linesOfSet (a / 256)).all (fun x => decide (x.2.way ≠ w))) = some w ∧ a = stackLen - 1) ∧
    (∃ (s : State) (p off n m k : Nat) (x : Place) (l : Line), Tab.sorted (s.part p).pages = true ∧ m ∈ pagesOf off n ∧
      ((s.part p).pages.getD m Page.absent).a = some x ∧ x.tier ≠ 2 ∧ s.mem.lines.at? k = some l ∧
      k * 256 / pageBytes = x.addr / pageBytes ∧ off / 256 * 256 ≤ m * pageBytes + k * 256 % pageBytes ∧
      m * pageBytes + k * 256 % pageBytes < off + n) ∧
    (∃ (s : State) (a : Nat) (l : Line), s.line? a = some l ∧ l.dirty = true ∧ s.getF ⟨pcReg (dieOf a) 0, 0, 1⟩ = 1) ∧
    (∃ (s : State) (a : Nat) (l : Line), s.line? a = some l ∧ l.dirty = false) ∧
    (∃ (s : State) (p c j : Nat) (m : Context) (x : Place) (z : Slot), let off := faOff z.op.addr.toNat
      p < 16 ∧ c < 65536 ∧ j < 128 ∧ s.ctx? (ctxKey p c) = some m ∧ m.slots.at? j = some z ∧ z.translated = true ∧ z.done = false ∧
      z.refused = false ∧ x.tier ≤ 1 ∧ 3 ≤ z.op.kind ∧ z.op.kind ≤ 4 ∧ z.applied = [] ∧ off % 8 = 0 ∧
      ((s.part p).page off).a = some x ∧ s.pagePoison p (off / pageBytes) = false ∧
      (s.line? (x.addr + off % pageBytes)).isSome = true) ∧
    (∃ (s : State) (p c j n : Nat) (m : Context) (x : Place) (z : Slot), let off := faOff (tAddr z.op.memory)
      p < 16 ∧ c < 65536 ∧ j < 128 ∧ s.ctx? (ctxKey p c) = some m ∧ m.slots.at? j = some z ∧ z.translated = true ∧ z.done = false ∧
      z.refused = false ∧ x.tier ≤ 1 ∧ z.op.kind = 2 ∧ z.op.parcels.contains n = true ∧ z.applied.contains n = false ∧
      tRows z.op.memory = 1 ∧ tTrans z.op.memory = false ∧ tTrans z.op.spad = false ∧ tilesAgree z.op.spad z.op.memory = true ∧
      fmtBits (tFmt z.op.memory) = 32 ∧ isMx (tFmt z.op.memory) = false ∧ off % 4 = 0 ∧ ((s.part p).page (256 * n)).a = some x ∧
      s.parcelPoison p n = false ∧ (s.line? (x.addr + 256 * n % pageBytes)).isSome = true ∧ s.poisonedOut m z.op = []) :=
  ⟨⟨tLine true, 1, stackLen - 1, 0, by decide +kernel⟩,
   ⟨tLine true, 1, 0x200000, 256, 1, 0xA000, ⟨0, 5⟩, ⟨1, 15, true, 0⟩, by decide +kernel⟩,
   ⟨(tLine true).setF ⟨pcReg 0 0, 0, 1⟩ 1, 0xA000FF, ⟨1, 15, true, 0⟩, by decide +kernel⟩,
   ⟨tLine false, 0xA00000, ⟨1, 15, false, 0⟩, by decide +kernel⟩,
   ⟨tOpS 4, 1, 0, 0, { tCtx with slots := [(0, tOp 4)] }, ⟨0, 5⟩, tOp 4, by decide +kernel⟩,
   ⟨tOpS 2, 1, 0, 0, 0x2000, { tCtx with slots := [(0, tOp 2)] }, ⟨0, 5⟩, tOp 2, by decide +kernel⟩⟩

theorem witness_HostWindows :
    (∃ (s : State) (a n : Nat), s.windowsOpen = true ∧ s.inWindows a n = true ∧ inScratch a = true ∧
      (s.rill ((a - 0x040000000000) / 0x100000)).poison = [] ∧ a + n = 0x040040000000) ∧
    (∃ (s : State) (a n : Nat), s.windowsOpen = true ∧ s.inWindows a n = true ∧ inScratch a = false ∧
      ∀ i, i < n → s.mem.poison.at? ((a + i) / pageBytes) = none) ∧
    (∃ (s : State) (a : Nat) (bs : List Byte), s.mode = .ready ∧ s.inWindows a bs.length = true ∧ inScratch a = true ∧
      a % 0x100000 + bs.length ≤ 0x100000 ∧ (s.rill ((a - 0x040000000000) / 0x100000)).poison = []) ∧
    (∃ (s : State) (a : Nat) (bs : List Byte), s.mode = .ready ∧ s.inWindows a bs.length = true ∧ inScratch a = false) ∧
    (∃ (s : State) (a n : Nat) (bs : List Byte), s.inWindows a n = false ∧ s.inWindows a bs.length = false) ∧
    (∃ (s : State), s.windowsOpen = false ∧ s.mode ≠ .ready) :=
  ⟨⟨tState, 0x04003FFFFFF8, 8, by decide +kernel⟩, ⟨tLine true, 0xA000F8, 16, by decide +kernel⟩,
   ⟨tState, 0x04003FFFFFF8, leBytes 8 5, by decide +kernel⟩, ⟨tLine true, 0xA000F8, leBytes 16 5, by decide +kernel⟩,
   ⟨tState, stackLen - 1, 2, [1, 2], by decide +kernel⟩, ⟨State.reset, by decide +kernel⟩⟩


/-! ## Witnesses: objects, images and pages -/

/-- An object of two pages at 0x600000, of which the first is in HBM; no launch runs. -/
def tDataPart : Part :=
  { tPart with launches := [], objects := [(0x600000, tObj 2 2)], pages := [(3, tPage)] }

/-- One page of connector 3 is in service. -/
def tData : State :=
  tHost (({ tState with parts := [(1, tDataPart)], ctxs := [], rills := [] }.setF (ddTrained 3) 1).setF (ddPages 3) 1)

def fObj : List (Nat × Nat × Nat) := [(16, 0, 1), (24, 0, 0x600000)]

def dDeclare : BitVec 512 := tCmd 0x0201 [(16, 0, 1), (17, 0, 9), (18, 0, 2), (18, 4, 15), (20, 0, 256), (24, 0, 0x20000001)]

def dHint : BitVec 512 := tCmd 0x0203 (fObj ++ [(17, 0, 15), (18, 0, 1), (19, 0, 2), (20, 0, 2)])

def dMove : BitVec 512 := tCmd 0x0204 (fObj ++ [(17, 0, 1), (40, 0, 2)])

def dStay : BitVec 512 := tCmd 0x0204 (fObj ++ [(17, 0, 0), (40, 0, 2)])

def dRecords : BitVec 512 := tCmd 0x0205 (fObj ++ [(36, 0, 2), (40, 0, 0x3000)])

def dQuota : BitVec 512 := tCmd 0x0206 [(16, 0, 1), (17, 0, 7), (24, 0, 34332), (28, 0, 1), (32, 0, 6103515)]

theorem tData_alloc : ∃ v y, (tData.begun vfPart 0 dMove).allocIn (tData.opPart vfPart 0 dMove) (dfld dMove 17 0 8) = some (v, y) := by
  rw [show dfld dMove 17 0 8 = 1 by decide +kernel]
  exact ⟨_, _, alloc_one _ _ 3 ⟨1, 393216⟩ (by decide +kernel) (by decide +kernel)⟩

/-- `tGraphS` with room for a large object of DDR5. -/
def tRoom : State :=
  { tGraphS with parts := [(1, { tPart with launches := [], objects := [], quotaD := 512 })] }

theorem tRoom_base : tRoom.choose ((tRoom.part (tRoom.opPart vfPart 0 dDeclare)).bases
    (declaredPages (dfld dDeclare 24 0 44) (dfld dDeclare 20 0 16))) = some 0 := by
  rw [show (tRoom.part (tRoom.opPart vfPart 0 dDeclare)).bases (declaredPages (dfld dDeclare 24 0 44) (dfld dDeclare 20 0 16)) =
    [0] by decide +kernel, choose_one]

theorem witness_ObjectCommands :
    (∃ (s : State) (fn : Nat) (d : BitVec 512) (b : Nat), let q := s.part (s.opPart vfPart fn d)
      let n := declaredPages (dfld d 24 0 44) (dfld d 20 0 16)
      s.accepted vfPart fn d ∧ s.choose (q.bases n) = some b ∧
      dRestZero d [(16, 0, 4), (17, 0, 4), (18, 0, 2), (18, 4, 4), (19, 0, 2), (20, 0, 16), (24, 0, 44)] = true ∧
      dfld d 17 0 4 = 9 ∧ dfld d 19 0 2 ≠ 3 ∧ dfld d 20 0 16 = 256 ∧ dfld d 24 0 44 ≠ 0 ∧
      pinOk (dfld d 17 0 4) (dfld d 18 0 2) = true ∧ q.objects.length < 65536 ∧
      ({ q with objects := q.objects.put b { Obj.plain n (dfld d 17 0 4) with
          pin := dfld d 18 0 2, access := dfld d 19 0 2, window := dfld d 18 4 4, layers := layerTable n (dfld d 20 0 16) } } :
        Part).fits = true) ∧
    (∃ (s : State) (fn : Nat) (d : BitVec 512) (o : Obj), let p := s.opPart vfPart fn d
      s.accepted vfPart fn d ∧ s.object? p (dfld d 24 0 44) = some o ∧ dRestZero d [(16, 0, 4), (24, 0, 44)] = true ∧
      s.objBusy p (dfld d 24 0 44) none = false ∧ s.objHeld p (dfld d 24 0 44) = false) ∧
    (∃ (s : State) (fn : Nat) (d : BitVec 512) (o : Obj), let p := s.opPart vfPart fn d; let mask := dfld d 17 0 4
      s.accepted vfPart fn d ∧ s.object? p (dfld d 24 0 44) = some o ∧
      dRestZero d [(16, 0, 4), (17, 0, 4), (18, 0, 2), (18, 4, 4), (19, 0, 2), (20, 0, 16), (24, 0, 44)] = true ∧
      dfld d 19 0 2 ≠ 3 ∧ dfld d 20 0 16 ≤ 256 ∧ mask = 15 ∧ pinOk o.role (dfld d 18 0 2) = true ∧ (s.part p).launches = [] ∧
      dOpcode d = 0x0203 ∧ s.fitsWith p (dfld d 24 0 44) { o with pin := dfld d 18 0 2, access := dfld d 19 0 2 } = true ∧
      ∀ i, i < o.pages → let g := (s.part p).pages.getD (dfld d 24 0 44 / pageBytes + i) Page.absent
        g.state = .absent ∨ (g.state = .resident ∧ g.b = none ∧ g.a = some ⟨0, 5⟩ ∧ 0 + 1 = dfld d 18 0 2)) ∧
    (∃ (s : State) (fn : Nat) (d : BitVec 512) (o : Obj) (v : State) (y : Place), let p := s.opPart vfPart fn d; let q := s.part p
      let g := q.pages.getD (dfld d 24 0 44 / pageBytes + dfld d 32 0 32) Page.absent
      s.accepted vfPart fn d ∧ s.object? p (dfld d 24 0 44) = some o ∧
      (s.begun vfPart fn d).allocIn p (dfld d 17 0 8) = some (v, y) ∧
      dRestZero d [(16, 0, 4), (17, 0, 8), (24, 0, 44), (32, 0, 32), (40, 0, 32)] = true ∧ dOpcode d = 0x0204 ∧
      (roleTiers o.role o.access).contains (dfld d 17 0 8) = true ∧ dfld d 40 0 32 ≠ 0 ∧ dfld d 32 0 32 + dfld d 40 0 32 = o.pages ∧
      o.pin = 0 ∧ g.state = .resident ∧ g.a = some ⟨0, 5⟩ ∧ g.b = none ∧ 0 ≠ dfld d 17 0 8 ∧
      q.use (dfld d 17 0 8) < q.quota (dfld d 17 0 8)) ∧
    (∃ (s : State) (fn : Nat) (d : BitVec 512) (o : Obj), let p := s.opPart vfPart fn d
      s.accepted vfPart fn d ∧ s.object? p (dfld d 24 0 44) = some o ∧
      dRestZero d [(16, 0, 4), (17, 0, 8), (24, 0, 44), (32, 0, 32), (40, 0, 32)] = true ∧ dOpcode d = 0x0204 ∧
      (roleTiers o.role o.access).contains (dfld d 17 0 8) = true ∧ dfld d 40 0 32 ≠ 0 ∧ dfld d 32 0 32 + dfld d 40 0 32 = o.pages ∧
      ∀ i, i < dfld d 40 0 32 → let g := (s.part p).pages.getD (dfld d 24 0 44 / pageBytes + dfld d 32 0 32 + i) Page.absent
        g.state = .absent ∨ (g.state = .resident ∧ g.a = some ⟨0, 5⟩ ∧ 0 = dfld d 17 0 8)) ∧
    (∃ (s : State) (fn : Nat) (d : BitVec 512) (o : Obj), let p := s.opPart vfPart fn d
      s.accepted vfPart fn d ∧ s.object? p (dfld d 24 0 44) = some o ∧
      dRestZero d [(16, 0, 4), (24, 0, 44), (32, 0, 32), (36, 0, 32), (40, 0, 64)] = true ∧ dfld d 36 0 32 ≠ 0 ∧
      dfld d 36 0 32 ≤ 4096 ∧ dfld d 40 0 64 % 16 = 0 ∧ dfld d 32 0 32 + dfld d 36 0 32 = o.pages) ∧
    (∃ (s : State) (fn : Nat) (d : BitVec 512), let p := dfld d 16 0 4; let q := s.part p
      let q' := { q with quotaH := dfld d 24 0 32, quotaD := dfld d 28 0 32, quotaF := dfld d 32 0 32 }
      let others := s.parts.keep (fun n _ => decide (n ≠ p))
      s.accepted pfPart fn d ∧ dfld d 17 0 8 = 7 ∧ dRestZero d [(16, 0, 4), (17, 0, 3), (24, 0, 32), (28, 0, 32), (32, 0, 32)] = true ∧
      q'.quotaH = groupPages q.grant.groups ∧ q'.quotaD + (others.vals.map (fun x => x.quotaD)).sum = s.ddrPages ∧
      q'.quotaF + (others.vals.map (fun x => x.quotaF)).sum = 6103515 ∧ q'.fits = true ∧
      ∀ t ∈ quotaTiers (dfld d 17 0 3), q.use t ≤ q'.quota t) :=
  ⟨⟨tRoom, 0, dDeclare, 0, by unfold State.accepted; decide +kernel, tRoom_base, by decide +kernel⟩,
   ⟨tData, 0, tCmd 0x0202 fObj, tObj 2 2, by unfold State.accepted; decide +kernel⟩,
   ⟨tData, 0, dHint, tObj 2 2, by unfold State.accepted; decide +kernel⟩,
   tData_alloc.elim fun v hv => hv.elim fun y hy => ⟨tData, 0, dMove, tObj 2 2, v, y, by unfold State.accepted; decide +kernel,
     by decide +kernel, hy, by decide +kernel⟩,
   ⟨tData, 0, dStay, tObj 2 2, by unfold State.accepted; decide +kernel⟩,
   ⟨tData, 0, dRecords, tObj 2 2, by unfold State.accepted; decide +kernel⟩,
   ⟨tData, 0, dQuota, by unfold State.accepted; decide +kernel⟩⟩


/-! ## Witnesses: images, pages, training -/

def dImage (op : Nat) : BitVec 512 := tCmd op (fObj ++ [(40, 0, 9)])

/-- `tData` with an empty group 9 of partition 1. -/
def tGroup9 : Group := { part := 1, members := [(5, 1)], rank := 0, fanin := 2, ordered := false, pace := false, count := 0 }

def tGrouped : State := { tData with coll := { Coll.reset with groups := [(groupKey 1 9, tGroup9)] } }

def tRun (next data : Nat) : ImageRun :=
  { order := 7, dataBytes := data, layers := 0, id := 77, table := [], next := next, start := 0, last := 0, reported := [],
    failed := 0 }

def tImgCmd (op : Nat) : Cmd :=
  { fn := 0, d := dImage op, order := 7, started := true, part := 1, a := 0, b := 0, drop := false, session := none }

def tImgObj (next data : Nat) : Obj := { tObj 2 2 with loading := true, image := some (tRun next data) }

/-- An image command whose next record is `next`. -/
def tImg (op next data : Nat) : State :=
  { tData with
    parts := [(1, { tDataPart with objects := [(0x600000, tImgObj next data)] })]
    host := { tData.host with inProgress := [tImgCmd op] } }

def tHeader : List Byte :=
  leBytes 4 0x4B504B31 ++ leBytes 2 1 ++ leBytes 2 0 ++ leBytes 8 512 ++ leBytes 8 77 ++ leBytes 232 0

def sealed (bs : List Byte) : List Byte := bs ++ leBytes 4 (crc32c bs)

theorem crcBit_lt (c n : Nat) (h : c < 2 ^ 32) : crcBit c n < 2 ^ 32 := by
  induction n generalizing c with
  | zero => exact h
  | succ n ih =>
    unfold crcBit
    apply ih
    split
    · exact Nat.xor_lt_two_pow (by omega) (by decide)
    · omega

theorem crc32cGo_lt (bs : List Byte) (c : Nat) (h : c < 2 ^ 32) : crc32cGo c bs < 2 ^ 32 := by
  induction bs generalizing c with
  | nil => exact h
  | cons b t ih => exact ih _ (crcBit_lt _ _ (Nat.xor_lt_two_pow h (by have := b.isLt; omega)))

theorem sealOk_sealed (bs : List Byte) (h : bs.length = 256) : sealOk (sealed bs) = true := by
  have hc : crc32c bs < 2 ^ 32 := Nat.xor_lt_two_pow (crc32cGo_lt _ _ (by decide)) (by decide)
  have ht : (sealed bs).take 256 = bs := by simp [sealed, ← h]
  have hd : (sealed bs).drop 256 = leBytes 4 (crc32c bs) := by simp [sealed, ← h]
  have hl : (sealed bs).length = 260 := by simp [sealed, h, leBytes_length]
  unfold sealOk
  rw [ht, hd, hl, leNat_leBytes, Nat.mod_eq_of_lt (by simpa using hc)]
  simp

theorem take_sealed (bs : List Byte) (h : bs.length = 256) : (sealed bs).take 256 = bs := by simp [sealed, ← h]

/-- The page of `tImg` is written whole into DDR5. -/
def tImgBig : State :=
  { tImg 0x0301 5 0x200000 with
    parts := [(1, { tDataPart with objects := [(0x600000, tImgObj 5 0x200000)], pages := [(3, { tPage with dest := some ⟨1, 393216⟩ })] })] }

theorem witness_ImageCommands :
    (∃ (s : State) (fn : Nat) (d : BitVec 512) (o : Obj), let p := s.opPart vfPart fn d
      s.accepted vfPart fn d ∧ s.object? p (dfld d 24 0 44) = some o ∧ o.loading = false ∧ dRestZero d (imageFields d) = true ∧
      dOpcode d = 0x0301 ∧ bit (dfld d 17 0 8) 0 = false) ∧
    (∃ (s : State) (fn : Nat) (d : BitVec 512) (o : Obj), let p := s.opPart vfPart fn d
      s.accepted vfPart fn d ∧ s.object? p (dfld d 24 0 44) = some o ∧ o.loading = false ∧ dRestZero d (imageFields d) = true ∧
      dOpcode d = 0x0302) ∧
    (∃ (s : State) (fn : Nat) (d : BitVec 512) (o : Obj), let p := s.opPart vfPart fn d
      s.accepted vfPart fn d ∧ s.object? p (dfld d 24 0 44) = some o ∧ o.loading = false ∧ dRestZero d (imageFields d) = true ∧
      dOpcode d = 0x0303 ∧ dfld d 17 0 2 = 0 ∧ dfld d 40 0 32 < 65536 ∧ (s.group? p (dfld d 40 0 32)).isSome = true) ∧
    (∃ (s : State) (p base : Nat) (o : Obj) (c : Cmd) (r : ImageRun) (bs : List Byte) (l n id : Nat),
      (s.part p).objects.at? base = some o ∧ s.imageCmd? o = some (c, r) ∧ dOpcode c.d = 0x0301 ∧
      bit (dfld c.d 17 0 8) 0 = false ∧ sealOk bs = true ∧ r.next = 0 ∧ imageHeader (bs.take 256) = some (l, n, id) ∧
      n ≤ o.pages * pageBytes) ∧
    (∃ (s : State) (p base : Nat) (o : Obj) (c : Cmd) (r : ImageRun) (bs : List Byte),
      (s.part p).objects.at? base = some o ∧ s.imageCmd? o = some (c, r) ∧ dOpcode c.d = 0x0301 ∧
      bit (dfld c.d 17 0 8) 0 = false ∧ sealOk bs = true ∧ r.next = 4 ∧ r.dataBytes ≠ 0 ∧ r.dataBytes % 256 = 0 ∧
      tableOk ((r.table ++ (List.range 64).map (fun i => leNat (((bs.take 256).drop (4 * i)).take 4))).take r.layers)
        (max 1 (r.dataBytes / pageBytes + 1)) = true) ∧
    (∃ (s : State) (p base : Nat) (o : Obj) (c : Cmd) (r : ImageRun) (bs : List Byte) (v : State) (w : Obj),
      (s.part p).objects.at? base = some o ∧ s.imageCmd? o = some (c, r) ∧ dOpcode c.d = 0x0301 ∧
      bit (dfld c.d 17 0 8) 0 = false ∧ sealOk bs = true ∧ r.next = 5 ∧ r.next - 5 < r.dataBytes / 256 ∧
      s.imageWrite p base { r with next := r.next + 1, last := s.now } (r.next - 5) (bs.take 256) = some v ∧
      (v.part p).objects.at? base = some w ∧ r.next - 4 < r.dataBytes / 256) ∧
    (∃ (s : State) (p base : Nat) (o : Obj) (c : Cmd) (r : ImageRun) (bs : List Byte) (v : State) (w : Obj),
      (s.part p).objects.at? base = some o ∧ s.imageCmd? o = some (c, r) ∧ dOpcode c.d = 0x0301 ∧
      bit (dfld c.d 17 0 8) 0 = false ∧ sealOk bs = true ∧ 5 ≤ r.next ∧ r.next - 5 < r.dataBytes / 256 ∧
      s.imageWrite p base { r with next := r.next + 1, last := s.now } (r.next - 5) (bs.take 256) = some v ∧
      (v.part p).objects.at? base = some w ∧ r.next - 4 = r.dataBytes / 256 ∧ c.part = p ∧ dfld c.d 24 0 44 = base) ∧
    (∃ (s : State) (p base : Nat) (o : Obj) (c : Cmd) (r : ImageRun) (bs : List Byte) (g : Page) (y : Place),
      (s.part p).objects.at? base = some o ∧ s.imageCmd? o = some (c, r) ∧ dOpcode c.d = 0x0301 ∧
      bit (dfld c.d 17 0 8) 0 = false ∧ sealOk bs = true ∧ 5 ≤ r.next ∧
      (r.next - 5) / 8192 * 0x200000 + 0x200000 = r.dataBytes ∧ (r.next - 5) % 8192 ≠ 8191 ∧
      s.held p (base / pageBytes + (r.next - 5) / 8192) = false ∧
      (s.part p).pages.at? (base / pageBytes + (r.next - 5) / 8192) = some g ∧ g.state = .resident ∧ g.dest = some y) ∧
    (∃ (s : State) (p base : Nat) (o : Obj) (c : Cmd) (r : ImageRun),
      (s.part p).objects.at? base = some o ∧ s.imageCmd? o = some (c, r) ∧ c.part = p ∧ dfld c.d 24 0 44 = base ∧
      dOpcode c.d = 0x0302 ∧ r.last + nsU 2000000 ≤ s.now) ∧
    (∃ (s : State) (p base : Nat) (o : Obj) (c : Cmd) (r : ImageRun),
      (s.part p).objects.at? base = some o ∧ s.imageCmd? o = some (c, r) ∧ c.part = p ∧ dfld c.d 24 0 44 = base ∧
      dOpcode c.d = 0x0303 ∧ r.next = 0 ∧ r.start + nsU 1000000000 = s.now) :=
  ⟨⟨tData, 0, tCmd 0x0301 fObj, tObj 2 2, by unfold State.accepted; decide +kernel⟩,
   ⟨tData, 0, tCmd 0x0302 fObj, tObj 2 2, by unfold State.accepted; decide +kernel⟩,
   ⟨tGrouped, 0, dImage 0x0303, tObj 2 2, by unfold State.accepted; decide +kernel⟩,
   ⟨tImg 0x0301 0 0, 1, 0x600000, tImgObj 0 0, tImgCmd 0x0301, tRun 0 0, sealed tHeader, 0, 512, 77, by decide +kernel,
     by decide +kernel, by decide +kernel, by decide +kernel, sealOk_sealed _ (by decide +kernel), rfl,
     by rw [take_sealed _ (by decide +kernel)]; decide +kernel, by decide +kernel⟩,
   ⟨tImg 0x0301 4 512, 1, 0x600000, tImgObj 4 512, tImgCmd 0x0301, tRun 4 512, sealed (leBytes 256 0), by decide +kernel,
     by decide +kernel, by decide +kernel, by decide +kernel, sealOk_sealed _ (leBytes_length ..), rfl, by decide, by decide,
     by decide +kernel⟩,
   (of_any (o := (tImg 0x0301 5 512).imageWrite 1 0x600000 { tRun 5 512 with next := 6, last := (tImg 0x0301 5 512).now } 0
       (leBytes 256 5)) (p := fun v => decide ((v.part 1).objects.at? 0x600000 = some (tImgObj 5 512)))
      (by decide +kernel)).elim fun v hv =>
     ⟨tImg 0x0301 5 512, 1, 0x600000, tImgObj 5 512, tImgCmd 0x0301, tRun 5 512, sealed (leBytes 256 5), v, tImgObj 5 512,
      by decide +kernel, by decide +kernel, by decide +kernel, by decide +kernel, sealOk_sealed _ (leBytes_length ..), rfl, by decide,
      by rw [take_sealed _ (leBytes_length ..)]; exact hv.1, of_decide_eq_true hv.2, by decide⟩,
   (of_any (o := (tImg 0x0301 6 512).imageWrite 1 0x600000 { tRun 6 512 with next := 7, last := (tImg 0x0301 6 512).now } 1
       (leBytes 256 5)) (p := fun v => decide ((v.part 1).objects.at? 0x600000 = some (tImgObj 6 512)))
      (by decide +kernel)).elim fun v hv =>
     ⟨tImg 0x0301 6 512, 1, 0x600000, tImgObj 6 512, tImgCmd 0x0301, tRun 6 512, sealed (leBytes 256 5), v, tImgObj 6 512,
      by decide +kernel, by decide +kernel, by decide +kernel, by decide +kernel, sealOk_sealed _ (leBytes_length ..), by decide,
      by decide, by rw [take_sealed _ (leBytes_length ..)]; exact hv.1, of_decide_eq_true hv.2, by decide, rfl, by decide +kernel⟩,
   ⟨tImgBig, 1, 0x600000, tImgObj 5 0x200000, tImgCmd 0x0301, tRun 5 0x200000, sealed (leBytes 256 5),
     { tPage with dest := some ⟨1, 393216⟩ }, ⟨1, 393216⟩, by decide +kernel, by decide +kernel, by decide +kernel, by decide +kernel,
     sealOk_sealed _ (leBytes_length ..), by decide +kernel⟩,
   ⟨tImg 0x0302 5 512, 1, 0x600000, tImgObj 5 512, tImgCmd 0x0302, tRun 5 512, by decide +kernel⟩,
   ⟨tImg 0x0303 0 0, 1, 0x600000, tImgObj 0 0, tImgCmd 0x0303, tRun 0 0, by decide +kernel⟩⟩


/-- Page 3 of partition 1, of an object of two pages, with the record `g`. -/
def tPageS (g : Page) : State :=
  { tData with parts := [(1, { tDataPart with pages := [(3, g)] })] }

def tUpper : Page := { tPage with a := some ⟨1, 393216⟩, b := some ⟨2, 6103514⟩, dirty := 0x80000001 }

/-- The object is pinned to DDR5, its page is ABSENT, and a put of context 0 waits for it. -/
def tPut : Slot :=
  { tSlot with op := { kind := 1, spad := 0, memory := BitVec.ofNat 256 (leNat (tDesc 0xFFFF100000600000 1 2 16 0xD 1)), addr := 0,
                       operand := 0, remote := false }, quotaSince := some (nsU 900000000) }

def tWaitCtx : Context := { tCtx with slots := [(0, tPut)] }

def tFirst : State :=
  { tData with parts := [(1, { tDataPart with objects := [(0x600000, { tObj 2 2 with pin := 2 })], pages := [] })],
               ctxs := [(65536, tWaitCtx)] }

theorem place_one (s : State) (p lim c : Nat) (x : Place) (hq : (s.part p).quota 1 ≠ 0)
    (hr : s.reclaimTo p 1 lim ((s.part p).quota 1 - 1) ((s.part p).pages.length + 1) = s)
    (hu : (s.part p).use 1 < (s.part p).quota 1) (hc : s.connectors = [c]) (hf : s.freeInConn s.usedPlaces c = [x]) :
    s.placeFirst p lim [1] = some ((s.fresh).setPart p { s.part p with rotorD := c + 1 }, x) := by
  simp only [State.placeFirst, State.placeIn, hr]
  rw [if_neg hq, if_pos hu, alloc_one s p c x hc hf]

theorem tFirst_place : ∃ v x, tFirst.placeFirst 1 (roleRank 2 0) ({ tObj 2 2 with pin := 2 } : Obj).tiers = some (v, x) :=
  ⟨_, _, place_one tFirst 1 _ 3 ⟨1, 393216⟩ (by decide +kernel) (by decide +kernel) (by decide +kernel) (by decide +kernel)
    (by decide +kernel)⟩

/-- No tier has a page for partition 1. -/
def tStarved : State :=
  { tFirst with parts := [(1, { tDataPart with pages := [], quotaH := 0, quotaD := 0, quotaF := 0 })] }

theorem witness_PageEvents :
    (∃ (s : State) (p off die : Nat), die = 3 ∧ ((s.part p).objOf (off / pageBytes)).isSome = true ∧
      (s.mem.xlat.getD die []).contains (p, off / pageBytes) = false ∧ (s.mem.xlat.getD die []).length < 4096) ∧
    (∃ (s : State) (p off : Nat) (o : Nat × Obj) (v : State) (x : Place), (s.part p).objOf (off / pageBytes) = some o ∧
      o.2.loading = false ∧ o.2.freeing = false ∧ ((s.part p).page off).state = .absent ∧ s.wanted p (off / pageBytes) ≠ [] ∧
      s.placeFirst p (roleRank o.2.role o.2.access) o.2.tiers = some (v, x)) ∧
    (∀ g ∈ [{ tUpper with state := .staging }, { tUpper with state := .writingBack },
        { tUpper with state := .moving, b := none, dest := some ⟨2, 6103514⟩, arrived := BitVec.allOnes 32 }],
      (tPageS g).pagesCalm ∧ (tPageS g).memoriesWf ∧ (tPageS g).mem.lines = [] ∧ (tPageS g).mem.poison = [] ∧
      ((tPageS g).part 1).page 0x7FFFFF = g ∧ g.poison = false ∧ (tPageS g).held 1 3 = false ∧ g.level < 10) ∧
    (∃ (s : State) (p off tier : Nat) (g : Page) (x y : Place), s.pagesCalm ∧ s.memoriesWf ∧ s.mem.lines = [] ∧ s.mem.poison = [] ∧
      (s.part p).page off = g ∧ tier < 2 ∧ (s.part p).pages = [(off / pageBytes, g)] ∧ g.state = .resident ∧ g.a = some x ∧
      g.b = some y ∧ g.dest = none ∧ g.dirty = 0 ∧ x.tier = tier ∧ y.tier ≠ tier ∧ y.tier ≤ 2 ∧ (s.part p).quota tier = 1 ∧
      s.reclaimable p (off / pageBytes) g false = true ∧ g.poison = false) ∧
    (∃ (s : State) (p tier : Nat), s.pagesCalm ∧ s.memoriesWf ∧ 16 * (s.part p).use tier ≤ 15 * (s.part p).quota tier) ∧
    (∃ (s : State) (p i m r b : Nat) (c : Context) (z : Slot), s.ctx? (ctxKey p i) = some c ∧ c.rillOf = some r ∧
      c.launch ≠ noLaunch ∧ c.slots.at? m = some z ∧ s.slotWait p c z = 1 ∧ z.discard = false ∧ s.calm r ∧ s.noneLeaving ∧
      z.quotaSince = some b ∧ b + nsU (max 1 (s.getF slQuotaWait) * 1000000) ≤ s.now) ∧
    (∃ (s : State) (p i m r b : Nat) (c : Context) (z : Slot), s.ctx? (ctxKey p i) = some c ∧ c.rillOf = some r ∧
      c.launch ≠ noLaunch ∧ c.slots.at? m = some z ∧ s.slotWait p c z = 1 ∧ z.discard = false ∧ s.calm r ∧ s.noneLeaving ∧
      z.quotaSince = some b ∧ s.now < b + nsU (max 1 (s.getF slQuotaWait) * 1000000)) :=
  ⟨⟨tData, 1, 0x600000, 3, by decide +kernel⟩,
   tFirst_place.elim fun v hv => hv.elim fun x hx => ⟨tFirst, 1, 0x600000, (0x600000, { tObj 2 2 with pin := 2 }), v, x,
     by decide +kernel, by decide, by decide, by decide +kernel, by decide +kernel, hx⟩,
   by unfold State.pagesCalm State.noneLeaving State.memoriesWf; decide +kernel,
   ⟨{ tPageS { tUpper with dirty := 0 } with parts := [(1, { tDataPart with quotaD := 1, pages := [(3, { tUpper with dirty := 0 })] })] },
     1, 0x600000, 1, { tUpper with dirty := 0 }, ⟨1, 393216⟩, ⟨2, 6103514⟩,
     by unfold State.pagesCalm State.noneLeaving State.memoriesWf; decide +kernel⟩,
   ⟨tData, 1, 0, by unfold State.pagesCalm State.noneLeaving State.memoriesWf; decide +kernel⟩,
   ⟨tStarved, 1, 0, 0, 0, nsU 900000000, tWaitCtx, tPut, by unfold State.calm State.noneLeaving; decide +kernel⟩,
   ⟨tStarved.setF slQuotaWait 101, 1, 0, 0, 0, nsU 900000000, tWaitCtx, tPut, by unfold State.calm State.noneLeaving; decide +kernel⟩⟩


/-! ## Witnesses: training -/

/-- A bucket of page 3, and a launch at its phase 1. -/
def tBucket (op st : Nat) : Bucket :=
  { op := op, zero := false, int32 := false, launch := 0, closePhase := 0, object := 0x600000, pageFirst := 0, pageCount := 1,
    group := 9, epoch := 0, normLayer := 0xFFFF, state := st, opened := false, next := none }

def tTrainPart (b : Bucket) : Part :=
  { tDataPart with objects := [(0x600000, tObj 2 3)], launches := [(0, { tLaunch with phase := 1 })], buckets := [(255, b)] }

def tTrain (b : Bucket) : State := { tGrouped with parts := [(1, tTrainPart b)] }

def fBucket : List (Nat × Nat × Nat) := [(16, 0, 1), (17, 0, 255), (24, 0, 0x600000), (36, 0, 1), (46, 0, 1023)]

def dBucket : BitVec 512 := tCmd 0x0803 fBucket

def dNorms : BitVec 512 := tCmd 0x0801 [(16, 0, 1), (17, 0, 3), (22, 0, 1023), (24, 0, 1), (32, 0, 0x40)]

/-- The operation of a reduced bucket is final. -/
def tFinal : State :=
  { tTrain (tBucket 1 2) with coll := { Coll.reset with
      groups := [(groupKey 1 9, tGroup9)]
      ops := [{ CollOp.fresh 1 9 (bucketOpseq 0 255) 1 0 0 with done := true }] } }

/-- The old range of bucket 255 is permuted by operation 5 of group 9. -/
def tShard : Reshard :=
  { part := 1, launch := 0, gid := 9, opseq := 3, cmd := 0, new := 3, switched := true, objects := [], applied := [], segOut := [],
    segIn := [{ localOff := 0x600000, peerRank := 0, peerOff := 0, units := 1, staged := false }], staging := none, handover := false }

def tShardOp : CollOp :=
  { CollOp.fresh 1 9 3 5 0 0 with landed := [0x600000], segIn := [{ localOff := 0x700000, peerRank := 0, peerOff := 0, units := 1, staged := false }] }

def tOld : Bucket := { tBucket 1 3 with epoch := 1 }

def tCur : Launch := { tLaunch with phase := 1, cur := 2 }

def tPermute : State :=
  { tGrouped with
    parts := [(1, { tTrainPart tOld with launches := [(0, tCur)] })]
    coll := { Coll.reset with
      groups := [(groupKey 1 9, tGroup9)], ops := [tShardOp], reshards := [tShard] } }

theorem witness_TrainingCommands :
    (∃ (s : State) (fn : Nat) (d : BitVec 512) (b : Bucket) (o : Obj), let p := s.opPart vfPart fn d
      s.accepted vfPart fn d ∧ dRestZero d [(16, 0, 4), (17, 0, 8), (18, 0, 4), (20, 0, 16), (22, 0, 16), (24, 0, 44), (32, 0, 32),
        (36, 0, 32), (40, 0, 32), (44, 0, 16), (46, 0, 16)] = true ∧ dfld d 18 0 2 = 0 ∧ s.bucketOk p d = true ∧
      s.object? p (dfld d 24 0 44) = some o ∧ o.role = 3 ∧ (s.part p).buckets.at? (dfld d 17 0 8) = some b ∧
      (s.launch? p b.launch).isSome = true) ∧
    (∃ (s : State) (fn : Nat) (d : BitVec 512) (o : Obj), let p := s.opPart vfPart fn d
      s.accepted vfPart fn d ∧ dRestZero d [(16, 0, 4), (17, 0, 8), (18, 0, 4), (20, 0, 16), (22, 0, 16), (24, 0, 44), (32, 0, 32),
        (36, 0, 32), (40, 0, 32), (44, 0, 16), (46, 0, 16)] = true ∧ dfld d 18 0 2 = 0 ∧ s.bucketOk p d = true ∧
      s.object? p (dfld d 24 0 44) = some o ∧ o.role = 3 ∧ (s.part p).buckets.at? (dfld d 17 0 8) = none) ∧
    (∃ (s : State) (fn : Nat) (d : BitVec 512), s.accepted vfPart fn d ∧ dRestZero d [(16, 0, 4), (17, 0, 4), (24, 0, 64)] = true) ∧
    (∃ (s : State) (fn : Nat) (d : BitVec 512) (l : Launch), let p := s.opPart vfPart fn d
      s.accepted vfPart fn d ∧ dRestZero d [(16, 0, 4), (17, 0, 2), (20, 0, 16), (22, 0, 16), (24, 0, 16), (32, 0, 64)] = true ∧
      dfld d 24 0 16 ≠ 0 ∧ dfld d 22 0 16 + dfld d 24 0 16 = 1024 ∧ dfld d 32 0 64 % 64 = 0 ∧
      s.launch? p (dfld d 20 0 16) = some l) ∧
    (∃ (s : State) (p n : Nat) (b : Bucket) (l : Launch), (s.part p).buckets.at? n = some b ∧ s.launch? p b.launch = some l ∧
      s.reshard? p b.launch = none ∧ b.state = 0 ∧ b.closePhase < l.phase ∧ s.writesInto p b = false) ∧
    (∀ op ∈ [0, 1], ∃ (s : State) (p n : Nat) (b : Bucket) (l : Launch), (s.part p).buckets.at? n = some b ∧
      s.launch? p b.launch = some l ∧ b.state = 1 ∧ s.mem.lines = [] ∧ b.op = op ∧ s.pagesCalm) ∧
    (∃ (s : State) (p n : Nat) (b : Bucket) (l : Launch), (s.part p).buckets.at? n = some b ∧ s.launch? p b.launch = some l ∧
      b.state = 2 ∧ s.bucketFinal p n b = true ∧ 1024 ≤ b.normLayer ∧ s.pagesCalm) ∧
    (∃ (s : State) (p n : Nat) (b : Bucket) (l : Launch) (r : Reshard) (o : CollOp) (g : Group) (x : Nat × Nat),
      (s.part p).buckets.at? n = some b ∧ s.launch? p b.launch = some l ∧ s.reshard? p b.launch = some r ∧ r.switched = true ∧
      r.handover = false ∧ r.applied = [] ∧ r.segOut = [] ∧ r.part = p ∧ n = 255 ∧ s.mayPermute p b.launch n r = true ∧
      s.rangeOf r n = some x ∧ s.reshardOp? r = some o ∧ s.group? p r.gid = some g ∧ o.op = 5 ∧ o.segOut = [] ∧ o.waiting = false ∧
      o.done = false ∧ o.allFinal g = false ∧ (∀ y ∈ s.coll.ops, y.waiting = false) ∧
      (∀ v ∈ unitsOf (r.segIn.filter (fun y => y.inRange x)), v.1 ∈ o.landed) ∧ s.pagesCalm) :=
  ⟨⟨tTrain (tBucket 0 0), 0, dBucket, tBucket 0 0, tObj 2 3, by unfold State.accepted; decide +kernel⟩,
   ⟨{ tGrouped with parts := [(1, { tTrainPart (tBucket 0 0) with buckets := [] })] }, 0, dBucket, tObj 2 3,
     by unfold State.accepted; decide +kernel⟩,
   ⟨tTrain (tBucket 0 0), 0, tCmd 0x0602 [(16, 0, 1), (17, 0, 15), (24, 0, 0x77)], by unfold State.accepted; decide +kernel⟩,
   ⟨tTrain (tBucket 0 0), 0, dNorms, { tLaunch with phase := 1 }, by unfold State.accepted; decide +kernel⟩,
   ⟨tTrain (tBucket 0 0), 1, 255, tBucket 0 0, { tLaunch with phase := 1 }, by decide +kernel⟩,
   fun op h => ⟨tTrain (tBucket op 1), 1, 255, tBucket op 1, { tLaunch with phase := 1 }, by
     revert op; unfold State.pagesCalm State.noneLeaving; decide +kernel⟩,
   ⟨tFinal, 1, 255, tBucket 1 2, { tLaunch with phase := 1 }, by unfold State.pagesCalm State.noneLeaving; decide +kernel⟩,
   ⟨tPermute, 1, 255, tOld, tCur, tShard, tShardOp, tGroup9, (0x600000, 0x200000),
     by unfold State.pagesCalm State.noneLeaving; decide +kernel⟩⟩


/-! ## Witnesses: fabric -/

/-- Port 0 is ACTIVE, port 1 is as given, of module 5 at (1, 0, 0) in a ring of 4. -/
def tActive : Port := { Port.reset with state := 4, live := 0xF }

def tFab (v : Port) : State :=
  { tState with fabric := { Fabric.reset with
      chip := 5, fabricId := 1, x := 1, ringX := 4, ports := [(0, tActive), (1, v)], dest := [(5, 0x40001), (7, 0x40003)] } }

def tNb : NeighbourRecord :=
  { fabricId := 1, chip := 6, x := 2, y := 0, z := 0, spare := false, port := 5, moduleId := 9, wcp := 0, withdrawn := false, rtt := 9 }

theorem tFab_lane : (tFab tActive).getF (glLaneMask 1) = 15 := by decide +kernel

theorem witness_PortEvents :
    (∀ st ∈ [1, 2, 3, 6], ∃ (s : State) (p : Nat), p < 24 ∧ s.fabRuns = true ∧ (s.port p).state = st ∧
      (s.port p).since + nsU 100000000 ≤ s.now ∧ (s.port p).since ≠ 0 ∧ (st = 2 → (s.port p).fast = false)) ∧
    (∃ (s : State) (p : Nat), p < 24 ∧ s.fabRuns = true ∧ (s.port p).state = 6 ∧ (s.port p).since + nsU 1000000000 = s.now) ∧
    (∃ (s : State) (p : Nat) (lanes : BitVec 4), p < 24 ∧ s.fabRuns = true ∧ (s.port p).state = 2 ∧
      lanes &&& (if (s.port p).fast then (s.port p).live else BitVec.ofNat 4 (s.getF (glLaneMask p))) ≠ 0) ∧
    (∀ st ∈ [3, 4, 5], ∃ (s : State) (p : Nat) (r : NeighbourRecord), let f := s.fabric; let v := s.port p
      p < 24 ∧ s.fabRuns = true ∧ v.state = st ∧ f.chip ≠ 0xFFFF ∧ r.chip.toNat ≠ 0xFFFF ∧ f.ring (p / 4 / 2) ≠ 1 ∧
      (r.x, r.y, r.z) = f.step (p / 4) ∧ r.port = p ^^^ 4 ∧ r.withdrawn = false ∧ s.mode ≠ .withdrawn ∧ f.fabricId ≠ 0 ∧
      r.fabricId = f.fabricId) ∧
    (∃ (s : State) (p : Nat) (r : NeighbourRecord), let f := s.fabric; let v := s.port p
      p < 24 ∧ s.fabRuns = true ∧ v.state = 3 ∧ f.chip ≠ 0xFFFF ∧ r.chip.toNat ≠ 0xFFFF ∧ f.ring (p / 4 / 2) ≠ 1 ∧
      (r.x, r.y, r.z) = f.step (p / 4) ∧ r.port = p ^^^ 4 ∧ r.withdrawn = false ∧ s.mode ≠ .withdrawn ∧ f.fabricId ≠ 0 ∧
      r.fabricId ≠ f.fabricId ∧ v.foreign = false) ∧
    (∀ v ∈ [tActive, { tActive with state := 2, fast := true }], ∃ (s : State) (p : Nat), s.port p = v ∧ p < 24 ∧
      s.pwr.recovery = none ∧ v.queue = [] ∧
      (s.setPort p { v with
        state := 6, live := 0, fast := false, window := [], queue := [], since := s.now, record := some (v.accepted, s.now) }).activePorts
          (p / 4) ≠ []) ∧
    (∃ (s : State) (p lane : Nat), let v := s.port p
      p < 24 ∧ s.pwr.recovery = none ∧ lane = 3 ∧ v.fast = false ∧ v.state = 4 ∧ v.live.getLsbD lane = true ∧
      v.live.toNat = s.getF (glLaneMask p) ∧ v.live &&& ~~~(BitVec.ofNat 4 (2 ^ lane)) ≠ 0) ∧
    (∀ a ∈ [nsU 998000000, nsU 998000000 + 1], ∃ (s : State) (p : Nat), p < 24 ∧ s.pwr.recovery = none ∧
      (s.port p).record = some (7, a) ∧ (a + nsU 2000000 ≤ s.now ↔ a = nsU 998000000)) ∧
    (∀ v ∈ [Ipl.reset, { Ipl.reset with spareUsed := true, groups := 9 }, { Ipl.reset with spareUsed := true, groups := 8 }],
      ∃ (s : State) (i : Nat), i < 6 ∧ s.pwr.recovery = none ∧ s.ipl i = v ∧ v.lost = false) :=
  ⟨fun st h => ⟨tFab { Port.reset with state := st, since := nsU 900000000 }, 1, by revert st; decide +kernel⟩,
   ⟨tFab { Port.reset with state := 6 }, 1, by decide +kernel⟩,
   ⟨tFab { Port.reset with state := 2 }, 1, 8, by decide +kernel⟩,
   fun st h => ⟨tFab { Port.reset with state := st }, 1, tNb, by revert st; decide +kernel⟩,
   ⟨tFab { Port.reset with state := 3 }, 1, { tNb with fabricId := 2 }, by decide +kernel⟩,
   fun v h => ⟨tFab v, 1, by revert v; decide +kernel⟩,
   ⟨tFab tActive, 1, 3, by decide +kernel⟩,
   fun a h => ⟨tFab { Port.reset with state := 6, record := some (7, a) }, 1, by revert a; decide +kernel⟩,
   fun v h => ⟨{ tState with fabric := { Fabric.reset with ipls := [(5, v)] } }, 5, by revert v; decide +kernel⟩⟩

theorem crc32Bit_lt (c n : Nat) (h : c < 2 ^ 32) : crc32Bit c n < 2 ^ 32 := by
  induction n generalizing c with
  | zero => exact h
  | succ n ih =>
    unfold crc32Bit
    apply ih
    split
    · exact Nat.xor_lt_two_pow (by omega) (by decide)
    · omega

theorem crc32Go_lt (bs : List Byte) (c : Nat) (h : c < 2 ^ 32) : crc32Go c bs < 2 ^ 32 := by
  induction bs generalizing c with
  | nil => exact h
  | cons b t ih => exact ih _ (crc32Bit_lt _ _ (Nat.xor_lt_two_pow h (by have := b.isLt; omega)))

/-- A flit whose LCRC passes. -/
def tSeal (f : Flit) : Flit := { f with lcrc := BitVec.ofNat 32 (crc32 (flitBytes f)) }

theorem lcrcOk_tSeal (f : Flit) : lcrcOk (tSeal f) = true := by
  have h : crc32 (flitBytes f) < 2 ^ 32 := Nat.xor_lt_two_pow (crc32Go_lt _ _ (by decide)) (by decide)
  have e : flitBytes (tSeal f) = flitBytes f := rfl
  have m : crc32 (flitBytes f) % 2 ^ 32 = crc32 (flitBytes f) := Nat.mod_eq_of_lt h
  unfold lcrcOk
  rw [e]
  simp only [tSeal, BitVec.toNat_ofNat, m, decide_true]

/-- The next flit that port 0 expects. -/
def tFlit (kind : Nat) : Flit := { idleFlit with kind := kind, seq := 0, ack := 0, vc := 3, credits := 5 }

/-- Port 0 is ACTIVE with a flit that waits to be acknowledged. -/
def tWindow : State := { tFab tActive with fabric := { (tFab tActive).fabric with
  ports := [(0, { tActive with window := [(tFlit 1, 14)], nextSeq := 1, accepted := 0xFFE, ackSent := 0xFFD })] } }

/-- A packet that has stopped at port 0 goes to port 1. -/
def tStuck : Partial := { hdr := 0, hop := .port 1 3, held := [], ended := false, since := 0 }

def tTrunc : State := { tFab tActive with fabric := { (tFab tActive).fabric with partials := [(3, tStuck)] } }

theorem tFab_seq : 0 = (((tFab tActive).port 0).accepted + 1) % 4096 := by decide +kernel

theorem witness_FlitEvents :
    (∀ kind ∈ [0, 1, 3], ∃ (s : State) (p : Nat) (f : Flit), s.listens p = true ∧ lcrcOk f = true ∧
      f.seq = ((s.port p).accepted + 1) % 4096 ∧ f.nak = false ∧ (s.port p).queue = [] ∧ f.kind = kind ∧ s.carries p = true) ∧
    (∃ (s : State) (p : Nat) (f : Flit), s.listens p = true ∧ (s.port p).window.length < 2048 ∧ (s.port p).queue = [] ∧
      f.seq ≠ ((s.port p).accepted + 1) % 4096 ∧ (s.port p).ackSent ≠ (s.port p).accepted) ∧
    (∃ (s : State) (p : Nat), s.listens p = true ∧ (s.port p).ackSent = (s.port p).accepted) ∧
    (∃ (s : State) (p : Nat), s.listens p = true ∧ (s.port p).window ≠ [] ∧ (s.port p).since + nsU 10000 ≤ s.now ∧
      ∀ x ∈ (s.port p).window, x.2 < 15) ∧
    (∃ (s : State) (p : Nat) (f : Flit), s.listens p = true ∧ f.orig = 23 ∧ s.recordOf (f.orig ^^^ 4) = none) ∧
    (∀ a ∈ [4, 5], ∃ (s : State) (p : Nat) (f : Flit) (b : Nat), s.listens p = true ∧ f.orig < 24 ∧
      (s.port (f.orig ^^^ 4)).record = some (a, b) ∧ s.now = b ∧ f.credits = 5 ∧
      s.fabric.partials.at? ((f.orig ^^^ 4) * 16 + f.vc) = none) ∧
    (∃ (s : State) (p k q vc die : Nat) (x : Partial), s.listens p = true ∧ portDie p = die ∧
      s.fabric.partials.find? (fun y => decide (y.1 / 16 = p)) = some (k, x) ∧
      (∀ y ∈ s.fabric.partials, y.1 / 16 = p → y = (k, x)) ∧ x.hop = .port q vc ∧
      x.since + nsU (1000 * max 1 (s.getF (glTruncUs die))) ≤ s.now) :=
  ⟨fun kind h => ⟨tFab tActive, 0, tSeal (tFlit kind), by decide +kernel, lcrcOk_tSeal _, tFab_seq, rfl, by decide +kernel,
     rfl, by decide +kernel⟩,
   ⟨tWindow, 0, tFlit 1, by decide +kernel⟩, ⟨tFab tActive, 0, by decide +kernel⟩, ⟨tWindow, 0, by decide +kernel⟩,
   ⟨tFab tActive, 0, { tFlit 4 with orig := 23 }, by decide +kernel⟩,
   fun a h => ⟨tFab { Port.reset with record := some (a, nsU 1000000000) }, 0, { tFlit 4 with orig := 5 }, nsU 1000000000,
     by revert a; decide +kernel⟩,
   ⟨tTrunc, 0, 3, 1, 3, 0, tStuck, by decide +kernel⟩⟩


/-! ## Witnesses: fabric traffic and commands -/

/-- A header with its HCRC: byte, bit and value of each field. -/
def tHdr (fs : List (Nat × Nat × Nat)) : BitVec 256 :=
  let h := BitVec.ofNat 256 (fs.map (fun f => f.2.2 * 2 ^ (8 * f.1 + f.2.1))).sum
  let bs := leBytes 32 h.toNat
  hSet h 30 0 16 (crc16Go 0xFFFF (bs.take 5 ++ (bs.drop 8).take 22))

def hTo (dst kind hops : Nat) : BitVec 256 := tHdr [(0, 0, dst), (2, 0, 9), (4, 0, kind), (6, 0, hops), (12, 0, 0x10000077)]

/-- The header waits for its route on virtual channel 3 of port 1. -/
def tUnrouted : Partial := { hdr := hTo 7 0 1, hop := .unrouted, held := [], ended := true, since := 0 }

def tWait : State := { tFab tActive with fabric := { (tFab tActive).fabric with partials := [(19, tUnrouted)] } }

/-- Partition 1 takes requests of module 9 for itself. -/
def tServe : State :=
  { tLine true with
    fabric := (tFab tActive).fabric
    parts := [(1, { tPart with
      grant := { tPart.grant with ways := 0x8001 }, pages := [(1, tPage)]
      accept := [(3, BitVec.ofNat 64 (9 + 9 * 2 ^ 16 + 2 ^ 33 + 2 ^ 48 + 2 ^ 49))] })] }

def hReq (kind off : Nat) : BitVec 256 :=
  tHdr [(0, 0, 5), (2, 0, 9), (4, 0, kind), (10, 0, 1), (12, 0, 0x10000077), (16, 0, 0xFFFF100000200000 + off)]

def tTime (tb : Nat) : State := { tFab tActive with clk := { (tFab tActive).clk with timeValid := true, tb := nsU tb } }

theorem witness_FabricTraffic :
    (∃ (s : State) (die : Nat) (h : BitVec 256), let e := s.fabric.dest.getD (hDst h) 0
      die = 3 ∧ hHops h < max 1 (s.getF (glHopLimit die)) ∧ hViaActive h = false ∧ destValid e = true ∧ hDst h = s.fabric.chip ∧
      destX e = s.fabric.x ∧ destY e = s.fabric.y ∧ destZ e = s.fabric.z ∧ s.route die h 4 = .deliver ∧ hcrcOk h = true) ∧
    (∃ (s : State) (die : Nat) (h : BitVec 256) (d : Nat), let e := s.fabric.dest.getD (hDst h) 0
      let f := s.fabric
      die = 3 ∧ hHops h < max 1 (s.getF (glHopLimit die)) ∧ hViaActive h = false ∧ destValid e = true ∧ hDst h ≠ f.chip ∧
      destViaValid e = false ∧ (List.range 3).find? (fun d => decide (destCoord e d ≠ f.coord d)) = some d ∧
      s.activePorts (2 * d + shorter (f.coord d) (destCoord e d) (f.ring d)) ≠ []) ∧
    (∀ kind ∈ [4, 5], (∃ (s : State) (die : Nat) (h : BitVec 256), die = 3 ∧ max 1 (s.getF (glHopLimit die)) = hHops h ∧
        s.route die h 4 = .hopLimit ∧ hType h = kind) ∧
      ∃ (s : State) (die : Nat) (h : BitVec 256), die = 0 ∧ s.route die h 4 = .noRoute ∧ hType h = kind) ∧
    (∃ (s : State) (die : Nat) (h h' : BitVec 256) (b k : Nat) (q : Partial), die < 4 ∧ s.route die h 4 = .forward h' b false false ∧
      s.unrouted die h = some (k, q) ∧ q.held = [] ∧ q.ended = true) ∧
    (∃ (s : State) (die : Nat) (h : BitVec 256), die < 4 ∧ hType h < 5 ∧ hcrcOk h = false) ∧
    (∃ (s : State) (die : Nat) (h : BitVec 256), die < 4 ∧ hType h < 5 ∧ hcrcOk h = true ∧ ¬ ((s.part (faPart (hAddr h))).state ≠ 0 ∧
      (s.part (faPart (hAddr h))).accept.vals.any (fun e => accepts e (hSrc h) (tagPart (hTag h)) (decide (hType h ≠ 0))) = true)) ∧
    (∀ kind ∈ [0, 1, 3, 4], ∃ (s : State) (die : Nat) (h : BitVec 256) (bs : List Byte) (o : Nat × Obj) (x : Place),
      let p := faPart (hAddr h)
      let off := faOff (hAddr h)
      die = 3 ∧ hType h = kind ∧ hcrcOk h = true ∧ (s.part p).state ≠ 0 ∧
      (s.part p).accept.vals.any (fun e => accepts e (hSrc h) (tagPart (hTag h)) (decide (hType h ≠ 0))) = true ∧
      (s.part p).objOf (off / pageBytes) = some o ∧ o.2.freeing = false ∧ o.2.loading = false ∧ ((s.part p).page off).a = some x ∧
      x.tier < 2 ∧ ((s.part p).page off).state = .resident ∧ s.pagePoison p (off / pageBytes) = false ∧
      (∀ b ∈ (s.part p).buckets.vals, b.covers (off / pageBytes) = false) ∧ (s.line? (x.addr + off % pageBytes)).isSome = true ∧
      (kind = 0 → off % 256 = 0 ∧ hParcels h ≤ 1) ∧ (kind = 1 → bs ≠ [] ∧ off % 256 + bs.length = 256) ∧ (3 ≤ kind → off % 256 = 248)) ∧
    (∃ (s : State) (b : Nat), s.fabric.timeMaster = false ∧ s.clk.tbRuns = true ∧ b < 6 ∧ s.activePorts b ≠ [] ∧ s.clk.timeValid = false) ∧
    (∀ parent ∈ [1000000000, 1000010000, 1000010001], ∃ (s : State) (b : Nat), let d : Int := (parent : Int) - (s.tbNs : Int)
      s.fabric.timeMaster = false ∧ s.clk.tbRuns = true ∧ b < 6 ∧ s.activePorts b ≠ [] ∧ s.clk.timeValid = true ∧
      (10000 < d.natAbs ↔ parent = 1000010001)) :=
  ⟨⟨tFab tActive, 3, hTo 5 0 0, by decide +kernel⟩, ⟨tFab tActive, 3, hTo 7 0 1, 0, by decide +kernel⟩,
   fun kind h => ⟨⟨tFab tActive, 3, hTo 7 kind 64, by revert kind; decide +kernel⟩,
     ⟨tFab tActive, 0, hTo 8 kind 0, by revert kind; decide +kernel⟩⟩,
   ⟨tWait, 1, hTo 7 0 1, hSet (hTo 7 0 1) 6 0 8 2, 0, 19, tUnrouted, by decide +kernel⟩,
   ⟨tServe, 3, hReq 1 8 ^^^ 0x10000, by decide +kernel⟩, ⟨tState, 3, hReq 1 8, by decide +kernel⟩,
   fun kind h => ⟨tServe, 3, hReq kind (if kind = 0 then 0 else 248), leBytes 8 5, (0x200000, tObj 1 7), ⟨0, 5⟩,
     by revert kind; decide +kernel⟩,
   ⟨tFab tActive, 0, by decide +kernel⟩,
   fun parent h => ⟨tTime 1000000000, 0, by revert parent; decide +kernel⟩⟩

/-- `tHost` of the module of chip 5. -/
def tFabC (spare : Bool) : State :=
  { tHost (tFab tActive) with
    fabric := { (tFab tActive).fabric with spare := spare }
    mem := { (tHost (tFab tActive)).mem with host := Memory.writeN [] 0x40 (leBytes 8 0x40002) } }

def dAssign (chip : Nat) : BitVec 512 := tCmd 0x0702 [(16, 0, chip), (18, 0, 2), (20, 0, 7), (24, 0, 2), (27, 0, 4), (28, 0, 1), (29, 0, 1)]

def dRoute (target first : Nat) : BitVec 512 :=
  tCmd 0x0703 [(16, 0, target), (17, 0, target), (20, 0, first), (24, 0, 1), (32, 0, 0x40)]

theorem witness_FabricCommands :
    (∃ (s : State) (fn : Nat) (d : BitVec 512), s.accepted pfNone fn d ∧ dRestZero d [(24, 0, 64)] = true ∧ dfld d 24 0 64 % 64 = 0) ∧
    (∀ chip ∈ [5, 0xFFFF], ∃ (s : State) (fn : Nat) (d : BitVec 512), s.accepted pfNone fn d ∧
      dRestZero d [(16, 0, 16), (18, 0, 2), (19, 0, 8), (20, 0, 32), (24, 0, 48)] = true ∧ dfld d 16 0 16 = chip ∧
      (chip = s.fabric.chip ∨ s.mode = .ready) ∧ (chip ≠ 0xFFFF → assignOk d = true)) ∧
    (∃ (s : State) (fn : Nat) (d : BitVec 512), let first := dfld d 20 0 32
      let n := dfld d 24 0 32
      let es := (List.range n).map (fun i => Memory.le s.mem.host (dfld d 32 0 64 + 8 * i) 8)
      let t := putEntries s.fabric.dest first es
      s.accepted pfNone fn d ∧
      dRestZero d [(16, 0, (if dfld d 17 0 8 = 1 then 4 else 0)), (17, 0, 8), (20, 0, 32), (24, 0, 32), (32, 0, 64)] = true ∧
      n ≠ 0 ∧ n ≤ 16384 ∧ dfld d 17 0 8 = 0 ∧ first + n = 0xFFFF ∧ (∀ e ∈ es, bits e 36 28 = 0) ∧
      (t.vals.filter destValid).length ≤ 16384) ∧
    (∃ (s : State) (fn : Nat) (d : BitVec 512), let first := dfld d 20 0 32
      let n := dfld d 24 0 32
      let es := (List.range n).map (fun i => Memory.le s.mem.host (dfld d 32 0 64 + 8 * i) 8)
      s.accepted pfNone fn d ∧
      dRestZero d [(16, 0, (if dfld d 17 0 8 = 1 then 4 else 0)), (17, 0, 8), (20, 0, 32), (24, 0, 32), (32, 0, 64)] = true ∧
      n ≠ 0 ∧ n ≤ 16384 ∧ dfld d 17 0 8 = 1 ∧ (s.part (dfld d 16 0 4)).state ≠ 0 ∧ first + n = 64 ∧ ∀ e ∈ es, bits e 50 14 = 0) ∧
    (∃ (s : State) (fn : Nat) (d : BitVec 512), s.accepted pfNone fn d ∧ dRestZero d [(16, 0, 16)] = true ∧ s.fabric.spare = true ∧
      dfld d 16 0 16 ≠ 0xFFFF) :=
  ⟨⟨tFabC false, 0, tCmd 0x0701 [(24, 0, 0x400)], by unfold State.accepted; decide +kernel⟩,
   fun chip h => ⟨tFabC false, 0, dAssign chip, by revert chip; unfold State.accepted; decide +kernel⟩,
   ⟨tFabC false, 0, dRoute 0 0xFFFE, by unfold State.accepted; decide +kernel⟩,
   ⟨tFabC false, 0, dRoute 1 63, by unfold State.accepted; decide +kernel⟩,
   ⟨tFabC true, 0, tCmd 0x0704 [(16, 0, 0xFFFE)], by unfold State.accepted; decide +kernel⟩⟩


/-! ## Witnesses: collective engine -/

/-- Members of chips 5, 6 and 7, of which this module is rank 0 with two children. -/
def tTree : Group := { part := 1, members := [(5, 1), (6, 2), (7, 3)], rank := 0, fanin := 2, ordered := false, pace := false, count := 0x7FFF }

/-- The module of chip 5, with one launch, a group as given and operations. -/
def tCollS (g : Group) (ops aborted : List CollOp) : State :=
  { tData with
    fabric := { tData.fabric with chip := 5 }
    parts := [(1, { tDataPart with launches := [(0, tLaunch)] })]
    coll := { Coll.reset with groups := [(groupKey 1 9, g)], ops := ops, aborted := aborted }
    mem := { tData.mem with host := Memory.writeN [] 0x40 (leBytes 4 0x20006 ++ leBytes 4 0x10005 ++ leBytes 8 0x600000) } }

def dGroup (n : Nat) : BitVec 512 := tCmd 0x0601 [(16, 0, 1), (18, 0, 8), (20, 0, 9), (24, 0, n), (32, 0, 0x40)]

def dAllReduce : BitVec 512 := tCmd 0x0602 [(16, 0, 1), (17, 0, 1), (20, 0, 9), (24, 0, 0x600000), (32, 0, 256)]

def dPermute : BitVec 512 := tCmd 0x0602 [(16, 0, 1), (17, 0, 0x25), (20, 0, 9), (48, 0, 0x600000)]

def dResume : BitVec 512 := tCmd 0x0602 [(16, 0, 1), (17, 0, 8), (20, 0, 9), (22, 0, 3)]

def dReshard : BitVec 512 := tCmd 0x0603 [(16, 0, 1), (22, 0, 9), (24, 0, 0x600000)]

def dHand (role : Nat) : BitVec 512 := tCmd 0x0705 [(17, 0, role), (22, 0, 9), (24, 0, 1), (32, 0, 0x48)]

def tPair (role : Nat) : Group := { tTree with members := [(5, 1), (6, 1)], rank := role }

/-- Operation 3 of group 9: 2 chunks of an all-reduce with root 0. -/
def tOp3 : CollOp := { CollOp.fresh 1 9 3 1 0 0 with off := 0x600000, len := 8192 }

theorem witness_CollectiveCommands :
    (∀ n ∈ [0, 2], ∃ (s : State) (fn : Nat) (d : BitVec 512), let p := s.opPart vfPart fn d
      let gid := dfld d 20 0 16
      let l := nats32 (Memory.readN s.mem.host (dfld d 32 0 64) (4 * n))
      s.accepted vfPart fn d ∧ dRestZero d [(16, 0, 4), (17, 0, 3), (18, 0, 8), (20, 0, 16), (24, 0, 32), (32, 0, 64)] = true ∧
      s.groupBusy p gid = false ∧ dfld d 24 0 32 = n ∧ (s.group? p gid).isSome = true ∧ (n ≠ 0 → n ≤ 16384 ∧ dfld d 17 2 1 = 0 ∧
        gid ≠ 0 ∧ dfld d 18 0 8 = 8 ∧ (∀ x ∈ l, x < 2 ^ 20) ∧ noRepeat l = true ∧ s.fabric.chip + p * 65536 ∈ l ∧
        (s.coll.groups.del (groupKey p gid)).length < 64)) ∧
    (∀ op ∈ [1, 5], ∃ (s : State) (fn : Nat) (d : BitVec 512) (g : Group) (m : List Seg × List Seg), let p := s.opPart vfPart fn d
      s.accepted vfPart fn d ∧ s.group? p (dfld d 20 0 16) = some g ∧
      dRestZero d [(16, 0, 4), (17, 0, 8), (18, 0, 16), (20, 0, 16), (22, 0, 16), (24, 0, 64), (32, 0, 64), (40, 0, 32),
        (48, 0, 64)] = true ∧ dfld d 17 0 3 = op ∧ dfld d 17 3 1 = 0 ∧ s.collOk p g d = true ∧
      (if op = 5 then s.readMap p g.members.length (dfld d 48 0 64) true else some ([], [])) = some m) ∧
    (∃ (s : State) (fn : Nat) (d : BitVec 512) (g : Group) (x : CollOp), let p := s.opPart vfPart fn d
      s.accepted vfPart fn d ∧ s.group? p (dfld d 20 0 16) = some g ∧
      dRestZero d [(16, 0, 4), (17, 0, 8), (18, 0, 16), (20, 0, 16), (22, 0, 16), (24, 0, 64), (32, 0, 64), (40, 0, 32),
        (48, 0, 64)] = true ∧ dfld d 17 3 1 = 1 ∧
      s.coll.aborted.find? (fun o => decide (o.part = p ∧ o.gid = dfld d 20 0 16 ∧ o.opseq = dfld d 22 0 16)) = some x ∧
      dfld d 40 0 32 = x.doneSteps g) ∧
    (∃ (s : State) (fn : Nat) (d : BitVec 512) (g : Group) (o : CollOp), let p := s.opPart vfPart fn d
      s.accepted vfPart fn d ∧ s.group? p (dfld d 20 0 16) = some g ∧
      dRestZero d [(16, 0, 4), (17, 0, 1), (20, 0, 16), (22, 0, 16)] = true ∧ dfld d 17 0 1 = 0 ∧
      s.coll.ops.find? (fun o => decide (o.part = p ∧ o.gid = dfld d 20 0 16 ∧ o.opseq = dfld d 22 0 16) && !o.pace && !o.done) =
        some o) ∧
    (∃ (s : State) (fn : Nat) (d : BitVec 512) (g : Group) (l : Launch) (m : List Seg × List Seg), let p := s.opPart vfPart fn d
      s.accepted vfPart fn d ∧ dRestZero d [(16, 0, 4), (20, 0, 16), (22, 0, 16), (24, 0, 64)] = true ∧
      s.group? p (dfld d 22 0 16) = some g ∧ s.launch? p (dfld d 20 0 16) = some l ∧ s.reshard? p (dfld d 20 0 16) = none ∧
      s.readMap p g.members.length (dfld d 24 0 64) false = some m ∧ (m.1.map (fun g => g.units)).sum = 0) ∧
    (∀ role ∈ [0, 1], ∃ (s : State) (fn : Nat) (d : BitVec 512) (p : Nat) (g : Group), let gid := dfld d 22 0 16
      let n := dfld d 24 0 32
      let offs := (List.range n).map (fun i => Memory.le s.mem.host (dfld d 32 0 64 + 8 * i) 8)
      let objs := offs.filterMap (fun o => (s.object? p o).map (fun x => (o, x)))
      s.accepted pfNone fn d ∧ dfld d 17 0 1 = role ∧
      dRestZero d [(17, 0, 1), (20, 0, 16), (22, 0, 16), (24, 0, 32), (32, 0, 64)] = true ∧ n ≠ 0 ∧ n ≤ 256 ∧
      s.handoverPart gid role = some p ∧ s.group? p gid = some g ∧ objs.length = n ∧ noRepeat offs = true ∧
      (s.launch? p (dfld d 20 0 16)).isSome = true ∧ s.reshard? p (dfld d 20 0 16) = none) :=
  ⟨fun n h => ⟨tCollS tTree [] [], 0, dGroup n, by revert n; unfold State.accepted; decide +kernel⟩,
   fun op h => ⟨tCollS tTree [] [], 0, if op = 1 then dAllReduce else dPermute, tTree, ([], []),
     by revert op; unfold State.accepted; decide +kernel⟩,
   ⟨tCollS tTree [] [tOp3], 0, dResume, tTree, tOp3, by unfold State.accepted; decide +kernel⟩,
   ⟨tCollS tTree [tOp3] [], 0, tCmd 0x0604 [(16, 0, 1), (20, 0, 9), (22, 0, 3)], tTree, tOp3, by unfold State.accepted; decide +kernel⟩,
   ⟨tCollS tTree [] [], 0, dReshard, tTree, tLaunch, ([], []), by unfold State.accepted; decide +kernel⟩,
   fun role h => ⟨tCollS (tPair role) [] [], 0, dHand role, 1, tPair role, by revert role; unfold State.accepted; decide +kernel⟩⟩

/-- Packet of operation 3 from a chip, at an offset of chunk 1. -/
def tPkt (src : Nat) : CollPacket :=
  { src := BitVec.ofNat 16 src, addr := 0xFFFF100000001000, gid := 9, opseq := 3, pace := false, attempt := 0, data := leBytes 8 5,
    sealOk := true }

/-- This module is rank 2 of the tree, under chip 6 where rank 1 is the root. -/
def tLeaf : Group := { tTree with members := [(7, 1), (6, 1), (5, 3)], rank := 2 }

def tSeen (o : CollOp) (l : List Nat) : CollOp := { o with chunks := [(1, { Chunk.zero with seen := l })] }

def tKept (n : Nat) : CollOp := { tOp3 with chunks := [(1, { Chunk.zero with unacked := [(0, 1, [7], n)] })] }

def tLands : CollOp := { tOp3 with op := 5, segIn := [{ localOff := 0x1000, peerRank := 1, peerOff := 0, units := 1, staged := false }] }

/-- Operation 3 of STALL_MS ago. -/
def tOld3 : State := tCollS tTree [tKept 7] []

theorem witness_CollectivePackets :
    (∃ (s : State) (k : CollPacket), s.group? (pktPart k) k.gid.toNat = none ∧ k.opseq ≠ 0) ∧
    (∀ l ∈ [[], [1]], ∃ (s : State) (k : CollPacket) (g : Group) (o : CollOp) (r : Nat), let c := pktChunk k
      s.group? (pktPart k) k.gid.toNat = some g ∧ (g.members.any (fun m => decide (m.1 = k.src.toNat))) = true ∧
      s.pktOp k = some o ∧ o.attempt = k.attempt.toNat ∧ o.done = false ∧ o.reduces = true ∧ c + 1 = o.chunkCount ∧
      g.ranksOf (treeChildren g.members.length g.fanin (o.rootOf g.members.length c) g.rank) k.src.toNat = [r] ∧
      (o.chunk c).seen = l ∧ (r ∈ l ↔ l ≠ []) ∧ k.sealOk = true ∧ (o.chunk c).committed = false) ∧
    (∀ op ∈ [1, 2, 4], ∀ l ∈ [[], [1]], ∃ (s : State) (k : CollPacket) (g : Group) (o : CollOp) (r : Nat), let c := pktChunk k
      s.group? (pktPart k) k.gid.toNat = some g ∧ (g.members.any (fun m => decide (m.1 = k.src.toNat))) = true ∧
      s.pktOp k = some o ∧ o.attempt = k.attempt.toNat ∧ o.done = false ∧ o.op = op ∧ c < o.chunkCount ∧
      treeParent g.members.length g.fanin (o.rootOf g.members.length c) g.rank = some r ∧ g.chip r = k.src.toNat ∧
      (o.chunk c).seen = l ∧ (r ∈ l ↔ l ≠ []) ∧ k.sealOk = true) ∧
    (∃ (s : State) (k : CollPacket) (g : Group) (o : CollOp) (v : Nat × Nat × Nat × Bool × Nat), let off := pktOff k
      s.group? (pktPart k) k.gid.toNat = some g ∧ (g.members.any (fun m => decide (m.1 = k.src.toNat))) = true ∧
      s.pktOp k = some o ∧ o.attempt = k.attempt.toNat ∧ o.done = false ∧ o.op = 5 ∧
      (unitsOf o.segIn).find? (fun u => decide (u.1 = off ∧ g.chip u.2.1 = k.src.toNat)) = some v ∧ off ∉ o.landed ∧
      k.sealOk = true ∧ s.mayLand o off = true ∧ o.launch = none) ∧
    (∃ (s : State) (k : CollPacket) (g : Group) (o : CollOp) (kind : Nat) (x : Nat × Nat × List Byte × Nat)
        (l : List (Nat × Nat × List Byte × Nat)), let c := pktChunk k
      s.group? (pktPart k) k.gid.toNat = some g ∧ (g.members.any (fun m => decide (m.1 = k.src.toNat))) = true ∧
      s.pktOp k = some o ∧ o.attempt = k.attempt.toNat ∧ o.done = false ∧ o.op ≠ 5 ∧ c < o.chunkCount ∧
      (o.chunk c).unacked = x :: l ∧ x.1 = kind ∧ g.chip x.2.1 = k.src.toNat ∧
      x.2.1 ∈ treeChildren g.members.length g.fanin (o.rootOf g.members.length c) g.rank ++
        (treeParent g.members.length g.fanin (o.rootOf g.members.length c) g.rank).toList) ∧
    (∃ (s : State) (k : CollPacket) (g : Group) (o : CollOp) (r : Nat),
      s.group? (pktPart k) k.gid.toNat = some g ∧ (g.members.any (fun m => decide (m.1 = k.src.toNat))) = true ∧
      s.pktOp k = some o ∧ o.attempt = k.attempt.toNat ∧ o.done = false ∧ r < g.members.length ∧ r ≠ g.rank ∧
      g.chip r = k.src.toNat ∧ o.op ≠ 5 ∧ g.rank ∈ o.tells { g with rank := r }) ∧
    (∃ (s : State) (p : Nat) (gid opseq : BitVec 16) (o : CollOp) (c : Nat),
      let same := fun (x : CollOp) => decide (x.part = p ∧ x.gid = gid.toNat ∧ x.opseq = opseq.toNat)
      o ∈ s.coll.ops ∧ same o = true ∧ o.waiting = false ∧ o.done = false ∧ (∀ x ∈ s.coll.ops, same x = true → x = o) ∧
      o.last + nsU (1000000 * max 1 (s.getF ceStallMs)) ≤ s.now ∧ (o.chunk c).unacked ≠ [] ∧ (∀ x ∈ (o.chunk c).unacked, x.2.2.2 < 8) ∧
      o.pace = false ∧ o.cmd = none ∧ ∀ x ∈ s.coll.ops, x.waiting = false) ∧
    (∃ (s : State) (p : Nat) (gid opseq : BitVec 16) (o : CollOp) (c : Nat),
      let same := fun (x : CollOp) => decide (x.part = p ∧ x.gid = gid.toNat ∧ x.opseq = opseq.toNat)
      o ∈ s.coll.ops ∧ same o = true ∧ o.waiting = false ∧ o.done = false ∧ (∀ x ∈ s.coll.ops, same x = true → x = o) ∧
      ∃ x ∈ (o.chunk c).unacked, 8 ≤ x.2.2.2) :=
  ⟨⟨tState, tPkt 6, by decide +kernel⟩,
   fun l h => ⟨tCollS tTree [tSeen tOp3 l] [], tPkt 6, tTree, tSeen tOp3 l, 1, by revert l; decide +kernel⟩,
   fun op ho l hl => ⟨tCollS tLeaf [tSeen { tOp3 with op := op, root := 1 } l] [], tPkt 6, tLeaf, tSeen { tOp3 with op := op, root := 1 } l, 1,
     by revert op l; decide +kernel⟩,
   ⟨tCollS tTree [tLands] [], tPkt 6, tTree, tLands, (0x1000, 1, 0, false, 0), by decide +kernel⟩,
   ⟨tCollS tTree [tKept 1] [], tPkt 6, tTree, tKept 1, 0, (0, 1, [7], 1), [], by decide +kernel⟩,
   ⟨tCollS tTree [tOp3] [], tPkt 6, tTree, tOp3, 1, by decide +kernel⟩,
   ⟨tOld3, 1, 9, 3, tKept 7, 1, by decide +kernel⟩, ⟨tCollS tTree [tKept 8] [], 1, 9, 3, tKept 8, 1, by decide +kernel⟩⟩


/-! ## Witnesses: host interface -/

/-- `tHost` with its link trained, 15 VFs and an image command of PF0 in progress. -/
def tLink : State :=
  { tImg 0x0301 5 512 with host := { (tImg 0x0301 5 512).host with speed := 6, width := 4, perst := true, numVfs := 15 } }

theorem witness_HostLink :
    (∀ w ∈ [1, 8], ∃ (s : State) (v : Nat), s.host.perst = true ∧ 1 ≤ v ∧ v ≤ 7 ∧ (v = 7 ∧ w = 8 ∨ w < 8) ∧ s.host.speed ≠ 0) ∧
    (∃ (s : State) (f : Nat), 1 ≤ f ∧ f < 16 ∧ f = s.host.numVfs) ∧ (∃ (s : State), s.host.numVfs = 0 ∧ s.host.perst = false) ∧
    (∃ (s : State) (fn : Nat) (tag : BitVec 32), s.host.inProgress.find? (fun (c : Cmd) =>
      decide (c.fn = fn ∧ c.session = none ∧ dTag c.d = tag) && (!c.started || imageOp c)) = none) ∧
    (∃ (s : State) (fn : Nat) (tag : BitVec 32) (c : Cmd), s.host.inProgress.find? (fun (c : Cmd) =>
      decide (c.fn = fn ∧ c.session = none ∧ dTag c.d = tag) && (!c.started || imageOp c)) = some c) :=
  ⟨fun w h => ⟨tLink, 7, by revert w; decide +kernel⟩, ⟨tLink, 15, by decide +kernel⟩,
   ⟨{ tLink with host := { tLink.host with perst := false, numVfs := 0 } }, by decide +kernel⟩, ⟨tLink, 0, 1, by decide +kernel⟩,
   ⟨tLink, 0, 0, tImgCmd 0x0301, by decide +kernel⟩⟩

/-- A descriptor of version 0x0302 with its CRC, which closes its batch. -/
def tWhole (op version : Nat) (fs : List (Nat × Nat × Nat)) : BitVec 512 :=
  let d := tCmd op (fs ++ [(2, 0, 1), (8, 0, version)])
  BitVec.ofNat 512 (setBits d.toNat 96 32 (crc32c (leBytes 64 d.toNat)))

/-- A mailbox of PF0 whose bank A is open and holds one descriptor in slot 0, or waits with it. -/
def tBox (d : BitVec 512) (waits : Bool) : Mailbox :=
  { Mailbox.reset with enable := true, cqBase := 0x10000, sizeLog2 := 6, coalesceUs := 10, posted := 5, head := 3,
                       bankA := [(0, d)], fillOpen := !waits, pendA := if waits then [0] else [] }

def tBoxS (m : Mailbox) : State := { tGraphS with host := { tGraphS.host with mailboxes := [(15, m)] } }

/-- `tBoxS` of PF0. -/
def tBox0 (d : BitVec 512) : State := { tGraphS with host := { tGraphS.host with mailboxes := [(0, tBox d true)] } }

def dKey : BitVec 512 := tWhole 0x0802 0x0302 [(16, 0, 1), (17, 0, 15), (24, 0, 0x77)]

def dOld : BitVec 512 := tWhole 0x0802 0x0301 [(16, 0, 1), (17, 0, 15), (24, 0, 0x77)]

theorem ok_of {r : Reply} {p : State → Bool} (h : (match r with | .ok w _ => p w | _ => false) = true) :
    ∃ w v, r = .ok w v ∧ p w = true := by
  cases r with
  | ok w v => exact ⟨w, v, rfl, h⟩
  | _ => simp at h

/-- `tBox0` once the descriptor has left its bank. -/
def tLeft : State :=
  { tGraphS with host := { tGraphS.host with
      mailboxes := [(0, { tBox dKey true with pendA := [], fillOpen := true })], rotor := 1 } }

theorem tLeft_ok : ∃ w v, rngKeySetGo (tLeft.begun vfPart 0 dKey) (tLeft.newCmd vfPart 0 dKey) = .ok w v ∧
    decide (w.host.inProgress = [tLeft.newCmd vfPart 0 dKey]) = true := ok_of (by decide +kernel)

theorem handlerOf_dKey : handlerOf (dOpcode dKey) = some (vfPart, rngKeySetGo) := by
  rw [show dOpcode dKey = 0x0802 by decide +kernel]
  simp [handlerOf]

theorem tLeft_eq : (let s := tBox0 dKey; let m := s.mailbox 0; let b := m.firstBank; let u := (s.setMailbox 0 (m.leave b (m.firstSlot b))).openBank 0
    ({ u with host := { u.host with rotor := (0 + 1) % 16 } } : State)) = tLeft := by decide +kernel

theorem witness_taken :
    ∃ (s : State) (f : Nat) (d : BitVec 512) (i : Issuer) (h : State → Cmd → Reply) (w : State) (r : W64), let m := s.mailbox f
      let b := m.firstBank
      let slot := m.firstSlot b
      let u := (s.setMailbox f (m.leave b slot)).openBank f
      let v := { u with host := { u.host with rotor := (f + 1) % 16 } }
      s.takeable = [f] ∧ (m.bank b).getD slot 0 = d ∧ (∀ w, w < 8 → m.wordBad b slot w = false) ∧ s.host.inProgress = [] ∧
      tagReserved d = false ∧ headCheck d = none ∧ handlerOf (dOpcode d) = some (i, h) ∧ v.accepted i f d ∧
      h (v.begun i f d) (v.newCmd i f d) = .ok w r ∧ w.host.inProgress = [v.newCmd i f d] := by
  obtain ⟨w, r, h1, h2⟩ := tLeft_ok
  refine ⟨tBox0 dKey, 0, dKey, vfPart, rngKeySetGo, w, r, ?_⟩
  have e := tLeft_eq
  dsimp only at e ⊢
  rw [e]
  exact ⟨by decide +kernel, by decide +kernel, by decide +kernel, by decide +kernel, by decide +kernel, by decide +kernel,
    handlerOf_dKey, by unfold State.accepted; decide +kernel, h1, of_decide_eq_true h2⟩

theorem witness_Mailboxes :
    (∃ (s : State) (f off : Nat) (bs : List Byte), let m := s.mailbox f
      f = 15 ∧ off < 0x2000 ∧ off % 8 = 0 ∧ bs.length % 8 = 0 ∧ 0 < bs.length ∧ off % 0x1000 + bs.length = 0x1000 ∧ m.fillOpen = true ∧
      m.fill = decide (0x1000 ≤ off)) ∧
    (∃ (s : State) (f off : Nat), off = 0x1FF8 ∧ f = 15 ∧ (s.mailbox f).fillOpen = true ∧ (s.mailbox f).fill ≠ decide (0x1000 ≤ off)) ∧
    (∀ n ∈ [1, 2], ∃ (s : State) (f : Nat) (v : BitVec 64), f = 15 ∧ bits v.toNat 0 7 = n ∧ (s.mailbox f).fillOpen = true ∧
      (s.mailbox f).enable = true ∧ s.mode ≠ .boot ∧ ((s.mailbox f).batchOk n = true ↔ n = 1)) ∧
    (∃ (s : State) (f : Nat), f < 16 ∧ (s.mailbox f).enable = false) ∧
    (∃ (s : State) (f : Nat) (v : BitVec 64), let m := s.mailbox f
      f = 15 ∧ (BitVec.ofNat 32 v.toNat - m.head).toNat = (m.posted - m.head).toNat ∧ ∀ q ∈ s.parts, q.2.state = 0 ∨ s.vfOf q.1 ≠ f) ∧
    (∃ (s : State) (f : Nat) (v : BitVec 64), let m := s.mailbox f
      f = 15 ∧ (m.posted - m.head).toNat + 1 = (BitVec.ofNat 32 v.toNat - m.head).toNat) ∧
    (∀ a ∈ [nsU 999990000, nsU 999990000 + 1], ∃ (s : State) (f : Nat), let m := s.mailbox f
      f = 15 ∧ 0 < m.unsignalled ∧ m.oldest = a ∧ (m.oldest + nsU (1000 * m.coalesceUs) ≤ s.now ↔ a = nsU 999990000)) ∧
    (∀ b ∈ [true, false], ∃ (s : State) (f : Nat), f = 15 ∧ (s.mailbox f).cqStalled = b) ∧
    (∃ (s : State) (f : Nat) (d : BitVec 512) (k : Cause), let m := s.mailbox f
      let b := m.firstBank
      let slot := m.firstSlot b
      s.takeable = [f] ∧ (m.bank b).getD slot 0 = d ∧ (∀ w, w < 8 → m.wordBad b slot w = false) ∧ s.host.inProgress = [] ∧
      tagReserved d = false ∧ headCheck d = some k) ∧
    (∃ (s : State) (f : Nat) (d : BitVec 512) (i : Issuer) (h : State → Cmd → Reply) (w : State) (r : W64), let m := s.mailbox f
      let b := m.firstBank
      let slot := m.firstSlot b
      let u := (s.setMailbox f (m.leave b slot)).openBank f
      let v := { u with host := { u.host with rotor := (f + 1) % 16 } }
      s.takeable = [f] ∧ (m.bank b).getD slot 0 = d ∧ (∀ w, w < 8 → m.wordBad b slot w = false) ∧ s.host.inProgress = [] ∧
      tagReserved d = false ∧ headCheck d = none ∧ handlerOf (dOpcode d) = some (i, h) ∧ v.accepted i f d ∧
      h (v.begun i f d) (v.newCmd i f d) = .ok w r ∧ w.host.inProgress = [v.newCmd i f d]) ∧
    (∃ (s : State) (fn : Nat) (d : BitVec 512), s.accepted pfNone fn d ∧
      dRestZero d [(24, 0, 64), (32, 0, 32), (40, 0, 64), (48, 0, 32)] = true) :=
  ⟨⟨tBoxS (tBox 0 false), 15, 0xFF0, List.replicate 16 7, by decide +kernel⟩, ⟨tBoxS (tBox 0 false), 15, 0x1FF8, by decide +kernel⟩,
   fun n h => ⟨tBoxS (tBox dKey false), 15, BitVec.ofNat 64 n, by revert n; decide +kernel⟩, ⟨tState, 1, by decide +kernel⟩,
   ⟨tBoxS (tBox 0 false), 15, 5, by decide +kernel⟩, ⟨tBoxS (tBox 0 false), 15, 6, by decide +kernel⟩,
   fun a h => ⟨tBoxS { tBox 0 false with unsignalled := 1, oldest := a }, 15, by revert a; decide +kernel⟩,
   fun b h => ⟨tBoxS { tBox 0 false with cqStalled := b }, 15, by revert b; decide +kernel⟩,
   ⟨tBox0 dOld, 0, dOld, kCmBadVersion, by decide +kernel⟩,
   witness_taken,
   ⟨tBoxS (tBox 0 false), 0, 0, by unfold State.accepted; decide +kernel⟩⟩

theorem witness_CompletionRing :
    ∃ (s : State) (c : Cmd), let m := s.mailbox c.fn
      let a := m.cqBase.toNat + 16 * (m.posted.toNat % 2 ^ m.sizeLog2)
      c.drop = false ∧ c.session = none ∧ m.cqStalled = false ∧ m.postedAddr.toNat + 8 = a :=
  ⟨tBoxS { tBox 0 false with postedAddr := 0x10048 }, { tImgCmd 0x0301 with fn := 15 }, by decide +kernel⟩


/-! ## Witnesses: boot, firmware and management -/

/-- Key of an owner whose private key is 1: the base point of P-256. -/
def tOwner : BitVec 512 := BitVec.ofNat 512 (p256Gx + p256Gy * 2 ^ 256)

/-- A slate of that owner, signed with the nonce 1, which sets POWER_CAP_W to 1,700 W. -/
def tSlateOf (seq crc sig : Nat) : List Byte :=
  leBytes 4 0x534C5431 ++ leBytes 2 1 ++ leBytes 2 1 ++ leBytes 4 seq ++ leBytes 4 8 ++ leBytes 4 crc ++ leBytes 12 0 ++
  leBytes 32 p256Gx ++ leBytes 32 sig ++ leBytes 32 0 ++ leBytes 2 4 ++ leBytes 2 4 ++ leBytes 4 1700

def tSlate5 : List Byte := tSlateOf 5 0x5de0985f 0x1992d15e145dd5b6c20df8112ecf42598309012b36283d172b1df47a27e885e7

def tSlate6 : List Byte := tSlateOf 6 0x4e18f8ac 0xdb6f2318f93e07f2e2fccb5a807db05898d128944817dcd76818f51869687273

def tRecord : Record := { Record.new with owner := some tOwner, trialG := true, trialW := true }

/-- The slate slots hold `a` and `b`. -/
def tNor (a b : List Byte) : List Host.Cell :=
  Memory.writeN (Memory.writeN [] 0 (a.map (fun x => ~~~ x))) 0x10000 (b.map (fun x => ~~~ x))

/-- A module at a stage of its boot, whose record is of the owner and holds trials. -/
def tBoot (stage power : Nat) (a b : List Byte) : State :=
  { tState with
    mode := .boot
    clk := { tState.clk with crystal := decide (3 ≤ power) }
    grotto := { Grotto.reset with stage := stage, powerStage := power, recordA := tRecord, nor := tNor a b } }

/-- `tBoot` with its mailboxes of PF0 enabled and no command. -/
def tRelease : State := { tBoot 2 8 [] [] with host := (tHost tState).host }

/-- Only copies B are programmed. -/
def tOnlyB (stage power : Nat) (trial : Bool) : State :=
  { tBoot stage power [] [] with grotto := { (tBoot stage power [] []).grotto with
      factory := [1, 3], recordA := { tRecord with trialG := trial, trialW := trial } } }

def tXtal (n : Nat) : State := { tBoot 0 2 [] [] with clk := { (tBoot 0 2 [] []).clk with xtalGood := n, xtalPrev := some 65536 } }

theorem tXtal_time : nsU 200000000 ≤ (tXtal 0).clk.boot + (tXtal 0).clk.tb := by decide +kernel

theorem imageOk_factory (s : State) (t : Nat) (b : Bool) (h : s.grotto.factory.contains (copyNum t b) = true)
    (h0 : s.record.svn t = 0) : s.imageOk t b = true := by
  unfold State.imageOk
  rw [if_pos h, h0]
  exact decide_eq_true (Nat.zero_le _)

theorem tBoth_slates : (tBoot 1 4 tSlate5 tSlate6).slateIn 0 = some tSlate5 ∧ (tBoot 1 4 tSlate5 tSlate6).slateIn 1 = some tSlate6 := by
  decide +kernel

theorem witness_BootStages :
    (∀ b ∈ [true, false], ∃ (s : State) (n : Nat), s.input.tripped = false ∧ s.input.on = b ∧ n = 10) ∧
    (∀ r ∈ [2, 3], ∃ (s : State), s.input.tripped = true ∧ s.input.retries = r) ∧
    (∀ n ∈ [14, 15], ∀ p ∈ [65536 + 8, 65536 + 9], ∃ (s : State), s.clk.crystal = false ∧ s.grotto.powerStage = 2 ∧
      s.grotto.stage = 0 ∧ nsU 200000000 ≤ s.clk.boot + s.clk.tb ∧ s.clk.xtalGood = n ∧
      (63536 ≤ p ∧ p ≤ 67536 ∧ (∃ q, s.clk.xtalPrev = some q ∧ p ≤ q + 8 ∧ q ≤ p + 8) ↔ p = 65536 + 8)) ∧
    (∃ (s : State), s.clk.crystal = false ∧ s.grotto.powerStage = 1 ∧ s.grotto.stage = 0 ∧ nsU 200000000 = s.clk.boot) ∧
    (∃ (s : State), s.grotto.powerStage = 3 ∧ s.grotto.stage = 0 ∧ s.grotto.record? = none) ∧
    (∃ (s : State) (r : Record), s.grotto.powerStage = 3 ∧ s.grotto.stage = 0 ∧ s.grotto.record? = some r ∧ s.imageOk 0 r.activeG = true) ∧
    (∀ b ∈ [true, false], ∃ (s : State) (r : Record), s.grotto.powerStage = 3 ∧ s.grotto.stage = 0 ∧ s.grotto.record? = some r ∧
      s.imageOk 0 r.activeG = false ∧ r.trialG = b ∧ s.imageOk 0 (!r.activeG) = true) ∧
    (∃ (s : State), s.record.trialG = true ∧ s.grotto.stage < 3 ∧ 4 ≤ s.grotto.powerStage ∧ s.imageOk 0 (!s.record.activeG) = true) ∧
    (∃ (s : State) (a b : List Byte), s.grotto.powerStage = 4 ∧ s.grotto.stage = 1 ∧ s.slateIn 0 = some a ∧ s.slateIn 1 = some b) ∧
    (∃ (s : State) (a : List Byte), s.grotto.powerStage = 4 ∧ s.grotto.stage = 1 ∧ s.slateIn 0 = some a ∧ s.slateIn 1 = none) ∧
    (∃ (s : State) (b : List Byte), s.grotto.powerStage = 4 ∧ s.grotto.stage = 1 ∧ s.slateIn 0 = none ∧ s.slateIn 1 = some b) ∧
    (∃ (s : State), s.grotto.powerStage = 4 ∧ s.grotto.stage = 1 ∧ s.slateIn 0 = none ∧ s.slateIn 1 = none) ∧
    (∃ (s : State), s.grotto.powerStage = 5 ∧ s.grotto.stage = 1 ∧ s.grotto.waitTold = false ∧
      s.grotto.stageSince + nsU 1000000000 = s.now) ∧
    (∃ (s : State), s.grotto.powerStage = 6 ∧ s.grotto.stage = 1) ∧
    (∀ x : Nat × Bool × Bool, x ∈ [(63, true, true), (64, true, false), (256, true, true), (256, false, true)] →
      ∃ y : Spd, y.conn < 4 ∧ y.speed < 4 ∧ (y.gb, y.supported, y.trained) = x) ∧
    (∃ (s : State), s.grotto.powerStage = 7 ∧ s.grotto.stage = 1 ∧ s.imageOk 1 s.record.activeW = true) ∧
    (∃ (s : State), s.grotto.powerStage = 7 ∧ s.grotto.stage = 1 ∧ s.imageOk 1 s.record.activeW = false ∧ s.record.trialW = false) ∧
    (∃ (s : State) (f : Nat), s.grotto.powerStage = 8 ∧ s.grotto.stage = 2 ∧ s.record.trialG = true ∧ f < 16 ∧
      (s.mailbox f).enable = true ∧ (if (s.mailbox f).fill then (s.mailbox f).pendB else (s.mailbox f).pendA) = []) ∧
    (∃ (s : State) (n : Nat), s.grotto.stage = 3 ∧ n = 11) :=
  ⟨fun b h => ⟨{ tState with input := { tState.input with tripped := false, on := b } }, 10, rfl, rfl, rfl⟩,
   fun r h => ⟨{ tState with input := { tState.input with tripped := true, retries := r } }, rfl, rfl⟩,
   fun n hn p hp => ⟨tXtal n, rfl, rfl, rfl, tXtal_time, rfl, ⟨fun hx => by
       obtain ⟨_, _, q, hq, h1, _⟩ := hx
       have : q = 65536 := (Option.some.inj hq).symm
       simp only [List.mem_cons, List.not_mem_nil, or_false] at hp
       omega, fun hx => ⟨by omega, by omega, 65536, rfl, by omega, by omega⟩⟩⟩,
   ⟨{ tBoot 0 1 [] [] with clk := { Clocks.reset with boot := nsU 200000000 } }, by decide +kernel⟩,
   ⟨{ tBoot 0 3 [] [] with grotto := { (tBoot 0 3 [] []).grotto with rpmc := 1 } }, by decide +kernel⟩,
   ⟨tBoot 0 3 [] [], tRecord, by decide +kernel, by decide +kernel, by decide +kernel,
     imageOk_factory _ _ _ (by decide +kernel) (by decide +kernel)⟩,
   fun b h => ⟨tOnlyB 0 3 b, { tRecord with trialG := b, trialW := b }, rfl, rfl, by revert b; decide +kernel, by revert b; decide +kernel,
     rfl, imageOk_factory _ _ _ (by revert b; decide +kernel) (by revert b; decide +kernel)⟩,
   ⟨tOnlyB 1 4 true, by decide +kernel, by decide +kernel, by decide +kernel,
     imageOk_factory _ _ _ (by decide +kernel) (by decide +kernel)⟩,
   ⟨tBoot 1 4 tSlate5 tSlate6, tSlate5, tSlate6, rfl, rfl, tBoth_slates⟩,
   ⟨tBoot 1 4 tSlate5 [], tSlate5, by decide +kernel⟩, ⟨tBoot 1 4 [] tSlate6, tSlate6, by decide +kernel⟩,
   ⟨tBoot 1 4 [] [], by decide +kernel⟩,
   ⟨tBoot 1 5 [] [], by decide +kernel⟩, ⟨tBoot 1 6 [] [], by decide +kernel⟩,
   fun x h => ⟨{ conn := 3, gb := x.1, ecc := true, supported := x.2.1, speed := 3, trained := x.2.2 }, (show 3 < 4 by decide), (show 3 < 4 by decide), rfl⟩,
   ⟨tBoot 1 7 [] [], by decide +kernel, by decide +kernel, imageOk_factory _ _ _ (by decide +kernel) (by decide +kernel)⟩,
   ⟨tOnlyB 1 7 false, by decide +kernel⟩, ⟨tRelease, 0, by decide +kernel⟩, ⟨tState, 11, by decide +kernel⟩⟩


/-- A module whose slot A holds `tSlate5`, which is selected, and host memory `tSlate6` at 0x1000. -/
def tFw (trial : Bool) : State :=
  { tHost tState with
    grotto := { tState.grotto with
      slateSel := 0, nor := tNor tSlate5 [], recordA := { tRecord with trialG := trial, trialW := trial }, stagedW := some true }
    mem := { tState.mem with host := Memory.writeN [] 0x1000 tSlate6 } }

def dSlate (n : Nat) : BitVec 512 := tCmd 0x0B03 [(24, 0, 0x1000), (32, 0, n)]

def dStage (ctl off n : Nat) : BitVec 512 := tCmd 0x0B01 [(17, 0, ctl), (24, 0, 0x1000), (32, 0, off), (36, 0, n)]

theorem tFw_slate : (tFw false).slateIn 0 = some tSlate5 ∧ (tFw false).slateIn 1 = none := by decide +kernel

theorem tFw_newer : ∀ k x, k < 2 → (tFw false).slateIn k = some x → seqNewer (fieldOf tSlate6 8 4) (fieldOf x 8 4) = true := by
  intro k x hk hx
  have h6 : seqNewer (fieldOf tSlate6 8 4) (fieldOf tSlate5 8 4) = true := by decide +kernel
  have h : k = 0 ∨ k = 1 := by omega
  rcases h with rfl | rfl
  · rw [tFw_slate.1] at hx
    exact Option.some.inj hx ▸ h6
  · rw [tFw_slate.2] at hx
    cases hx

theorem tFw_input : Memory.readN (tFw false).mem.host (dfld (dSlate 136) 24 0 64) (dfld (dSlate 136) 32 0 32) = tSlate6 := by decide +kernel

theorem witness_slateWrite :
    ∃ (s : State) (fn : Nat) (d : BitVec 512), let n := dfld d 32 0 32
      let bs := Memory.readN s.mem.host (dfld d 24 0 64) n
      s.accepted pfNone fn d ∧ dRestZero d [(24, 0, 64), (32, 0, 32)] = true ∧ 128 ≤ n ∧ n ≤ 65536 ∧ slateFormOk bs n = true ∧
      slateSigOk s.record.owner bs = true ∧
      ∀ k x, k < 2 → s.slateIn k = some x → seqNewer (fieldOf bs 8 4) (fieldOf x 8 4) = true := by
  refine ⟨tFw false, 0, dSlate 136, by unfold State.accepted; decide +kernel, by decide +kernel, by decide +kernel, by decide +kernel,
    by decide +kernel, by decide +kernel, ?_⟩
  rw [tFw_input]
  exact tFw_newer

theorem witness_FirmwareCommands :
    (∃ (s : State) (fn : Nat) (d : BitVec 512), let n := dfld d 32 0 32
      s.accepted pfNone fn d ∧ dRestZero d [(24, 0, 64), (32, 0, 32)] = true ∧ n = 128 ∧
      slateFormOk (Memory.readN s.mem.host (dfld d 24 0 64) n) n = false) ∧
    (∀ g ∈ [0, 1], ∀ last ∈ [0, 1], ∀ x ∈ [(0, 256), (copySize g - 4096, 4096), (copySize g, 256)], ∃ (s : State) (fn : Nat) (d : BitVec 512),
      s.accepted pfNone fn d ∧ dRestZero d [(17, 0, 2), (24, 0, 64), (32, 0, 32), (36, 0, 32)] = true ∧ dfld d 17 0 1 = g ∧
      dfld d 17 1 1 = last ∧ (dfld d 32 0 32, dfld d 36 0 32) = x ∧ x.1 % 4096 = 0 ∧ x.2 % 256 = 0 ∧ s.record.trial g = false) ∧
    (∃ (s : State) (fn : Nat) (d : BitVec 512), s.accepted pfNone fn d ∧
      dRestZero d [(17, 0, 2), (24, 0, 64), (32, 0, 32), (36, 0, 32)] = true ∧ dfld d 32 0 32 = 0 ∧ dfld d 36 0 32 = 1048576 ∧
      s.record.trial (dfld d 17 0 1) = true) ∧
    (∀ g ∈ [0, 1], ∃ (s : State) (fn : Nat) (d : BitVec 512), s.accepted pfNone fn d ∧ dRestZero d [(17, 0, 2)] = true ∧
      dfld d 17 0 1 = g ∧ (s.grotto.staged g = none ↔ g = 0)) ∧
    (∃ (s : State), s.record.trialW = true ∧ s.grotto.stage = 3 ∧ s.grotto.wellheadSlot = s.record.activeW ∧
      s.imageOk 1 (!s.record.activeW) = true) ∧
    (∃ (s : State), s.grotto.restart = none ∧ s.grotto.log ≠ [] ∧ s.grotto.norLog.length + s.grotto.log.length ≤ 131072) :=
  ⟨⟨tFw false, 0, dSlate 128, by unfold State.accepted; decide +kernel⟩,
   fun g hg l hl x hx => ⟨tFw false, 0, dStage (g + 2 * l) x.1 x.2, by revert g l x; unfold State.accepted; decide +kernel⟩,
   ⟨tFw true, 0, dStage 0 0 1048576, by unfold State.accepted; decide +kernel⟩,
   fun g h => ⟨tFw false, 0, tCmd 0x0B02 [(17, 0, g + 2)], by revert g; unfold State.accepted; decide +kernel⟩,
   ⟨tFw true, by decide +kernel, by decide +kernel, by decide +kernel, imageOk_factory _ _ _ (by decide +kernel) (by decide +kernel)⟩,
   ⟨(tFw false).raise kGrSlateNone 0xFFF, by decide +kernel⟩⟩

/-- The management port is on; session 2 is open, and handshake 1 has its key. -/
def tPort : State :=
  { tState.setF grT1sEnable 1 with grotto := { tState.grotto with
      sessions := [(2, 900)], handshakes := [(1, { start := 800, keyed := true })]
      slate := { Slate.default with nodeId := 254, mgmtRoot := some 77 } } }

def dReset : BitVec 512 := tWhole 0x0B04 0x0302 []

theorem witness_ManagementPort :
    (∃ (s : State), s.portOn = true ∧ s.grottoRuns = true ∧ s.grotto.lastAnswer = none) ∧
    (∀ a ∈ [nsU 900000000, nsU 900000000 + 1], ∃ (s : State), s.portOn = true ∧ s.grotto.lastAnswer = some a ∧
      (a + nsU 100000000 ≤ s.now ↔ a = nsU 900000000)) ∧
    (∃ (s : State) (n : Nat), s.portOn = true ∧ s.grottoRuns = true ∧ n = 3 ∧ s.grotto.handshakes.at? n = none) ∧
    (∃ (s : State) (n k : Nat) (h : Handshake) (root : BitVec 256), s.portOn = true ∧ s.grottoRuns = true ∧ n < 4 ∧
      s.grotto.handshakes.at? n = some h ∧ s.grotto.slate.mgmtRoot = some root ∧ k < 4 ∧ s.grotto.sessions.at? k = none ∧
      (∀ j, j < k → s.grotto.sessions.at? j ≠ none) ∧ h.keyed = true ∧ h.start + nsU 2000000000 ≤ s.now ∧
      s.grotto.limits.at? (kGrSessionFail.flint 0xFFF).toNat = none) ∧
    (∀ b ∈ [0, 1, 2], ∃ (s : State) (n : Nat) (bs : List Byte), s.portOn = true ∧ bs.length = 8 ∧ s.grottoRuns = true ∧
      s.grotto.sessions.at? n ≠ none ∧ fieldOf bs 4 1 = b ∧ (fieldOf bs 0 4 = 0x49445431 ∧ fieldOf bs 4 1 ≤ 1 ∧ fieldOf bs 6 2 = 0 ↔ b ≤ 1)) ∧
    (∀ b ∈ [true, false], ∃ (s : State) (n : Nat) (d : BitVec 512) (l : List Byte), s.portOn = true ∧ l.length = 1024 ∧ s.grottoRuns = true ∧
      s.grotto.sessions.at? n ≠ none ∧ s.host.inProgress = [] ∧ tagReserved d = false ∧ headCheck d = none ∧
      sessionOp (dOpcode d) = b ∧
      (b = true → dOpcode d = 0x0B04 ∧ s.gate pfNone 0 d = none ∧ dRestZero d [] = true ∧ s.pwr.resetting = none)) ∧
    (∃ (s : State) (n : Nat), s.portOn = true ∧ s.grotto.sessions.at? n = none) ∧ (∃ (s : State), s.portOn = false) ∧
    (∃ (s : State) (n t : Nat), s.grotto.sessions.at? n = some t ∧ t + nsU 60000000000 ≤ s.now) ∧
    (∀ b ∈ [true, false], ∀ k ∈ [8, 9], ∃ (s : State), s.portOn = true ∧ s.grotto.slate.nodeId = 254 ∧ s.grotto.plcaLost = b ∧
      s.grotto.plcaHeard = k) ∧
    (∃ (v : BitVec 64), bit v.toNat 1 = false ∧ bit v.toNat 2 = true) ∧
    (∃ (s : State) (t : Nat), s.grotto.identify = some t ∧ s.grotto.ledUntil = some t ∧ t ≠ 0 ∧ t = s.now) :=
  ⟨⟨tPort, by decide +kernel⟩,
   fun a h => ⟨{ tPort with grotto := { tPort.grotto with lastAnswer := some a } }, by revert a; decide +kernel⟩,
   ⟨tPort, 3, by decide +kernel⟩,
   ⟨{ tPort with clk := { tPort.clk with tb := nsU 3000000000 } }, 1, 0, { start := 800, keyed := true }, 77, by decide +kernel⟩,
   fun b h => ⟨tPort, 2, leBytes 4 0x49445431 ++ leBytes 1 b ++ leBytes 1 9 ++ leBytes 2 0, by revert b; decide +kernel⟩,
   fun b h => ⟨tPort, 2, if b then dReset else dKey, List.replicate 1024 7, by decide +kernel, List.length_replicate,
     by revert b; decide +kernel⟩,
   ⟨tPort, 3, by decide +kernel⟩, ⟨tPort.setF grT1sEnable 0, by decide +kernel⟩,
   ⟨{ tPort with clk := { tPort.clk with tb := nsU 60000000000 + 900 } }, 2, 900, by decide +kernel⟩,
   fun b hb k hk => ⟨{ tPort with grotto := { tPort.grotto with plcaLost := b, plcaHeard := k } }, by revert b k; decide +kernel⟩,
   ⟨4, by decide⟩,
   ⟨{ tPort with grotto := { tPort.grotto with identify := some tPort.now, ledUntil := some tPort.now } }, tPort.now, by decide +kernel⟩⟩


/-! ## Witnesses: clocks and power -/

def tTerr (t : Terrace) : State := tHost { tState with clk := { tState.clk with terr := ⟨t, t, t, t⟩ } }

/-- A command of PF0 in progress. -/
def tBusy (s : State) (d : BitVec 512) : State :=
  { s with host := { s.host with inProgress := [{ tImgCmd 0 with d := d, part := 0xFF }], order := 8 } }

theorem witness_OperatingPoints :
    (∀ r ∈ [0, 2, 3], ∃ (s : State) (d : Nat), d = 3 ∧ s.grotto.stage = 3 ∧ (s.terrace d).stretch = none ∧ s.pwr.held = false ∧
      (∀ c ∈ s.host.inProgress, ¬ (dOpcode c.d = 0x0902 ∧ c.started = true)) ∧ (s.terrace d).running = r ∧ s.target d = 2) ∧
    (∃ (s : State) (d : Nat) (c : Cmd), let t := s.terrace d
      d = 3 ∧ s.grotto.stage = 3 ∧ t.stretch = none ∧ s.pwr.held = false ∧ s.host.inProgress = [c] ∧ dOpcode c.d = 0x0902 ∧
      c.started = true ∧ t.running < t.ceiling - t.capHold ∧
      (s.setTerrace d { t with running := t.running + 1 }).atTarget (dfld c.d 17 0 4) = true) ∧
    (∃ (s : State) (d x : Nat), d = 3 ∧ (s.terrace d).stretch = some x ∧ x + nsU (s.getF (ckHoldNs d)) = s.now) ∧
    (∃ (s : State) (d : Nat), d = 3 ∧ (s.terrace d).stretch = none ∧ s.grotto.limits.at? (kPwDroop.flint d).toNat = none) ∧
    (∀ x ∈ [(0, 0, 0, 0), (9, 9, 0, 0), (1, 0, 1, 98), (1, 0, 1, 99)], ∃ (s : State) (d : Nat), let t := s.terrace d
      d = 3 ∧ s.grotto.stage = 3 ∧ s.grotto.restart = none ∧ s.pwr.capNext = none ∧
      (∀ c ∈ s.host.inProgress, ¬ ((dOpcode c.d = 0x0901 ∨ dOpcode c.d = 0x0902) ∧ c.started = true)) ∧
      (t.g, t.highLoops, t.capHold, t.lowLoops) = x ∧ s.grotto.limits.at? (kPwPowerCapped.flint 0xFFF).toNat = none) ∧
    (∃ (s : State) (w : Nat), s.grotto.stage = 3 ∧ s.grotto.restart = none ∧ s.pwr.capNext = some w) ∧
    (∃ (s : State) (c : Cmd), s.grotto.stage = 3 ∧ s.grotto.restart = none ∧ s.pwr.capNext = none ∧ s.host.inProgress = [c] ∧
      dOpcode c.d = 0x0901 ∧ c.started = true) ∧
    (∃ (s : State) (p : Nat), p = 2100001 ∧ 4 ≤ s.grotto.powerStage) ∧
    (∀ w ∈ [399, 400, 2100, 2101], ∃ (s : State) (fn : Nat) (d : BitVec 512), s.accepted pfNone fn d ∧
      dRestZero d [(24, 0, 32)] = true ∧ dfld d 24 0 32 = w) ∧
    (∀ x ∈ [(0, 3), (15, 3), (15, 2)], ∃ (s : State) (fn : Nat) (d : BitVec 512), s.accepted pfNone fn d ∧
      dRestZero d [(17, 0, 4), (18, 0, 2)] = true ∧ (dfld d 17 0 4, dfld d 18 0 2) = x ∧
      (bit s.grotto.slate.oppAllowed (dfld d 18 0 2) = true ↔ x.2 = 3)) ∧
    (∀ x ∈ [(9, 1000), (10, 999), (10, 1000), (150, 0xFFFF), (151, 1000)], ∃ (s : State) (fn : Nat) (d : BitVec 512),
      s.accepted pfNone fn d ∧ dRestZero d [(17, 0, 4), (20, 0, 32)] = true ∧ (dfld d 20 0 16, dfld d 22 0 16) = x) :=
  ⟨fun r h => ⟨tTerr { Terrace.reset with running := r, ceiling := 3, capHold := 1 }, 3, by revert r; decide +kernel⟩,
   ⟨tBusy (tTerr { Terrace.reset with running := 1, ceiling := 2 }) (tCmd 0x0902 [(17, 0, 8), (18, 0, 2)]), 3,
     { tImgCmd 0 with d := tCmd 0x0902 [(17, 0, 8), (18, 0, 2)], part := 0xFF }, by decide +kernel⟩,
   ⟨(tTerr { Terrace.reset with stretch := some (nsU 999999000) }).setF (ckHoldNs 3) 1000, 3, nsU 999999000, by decide +kernel⟩,
   ⟨tTerr Terrace.reset, 3, by decide +kernel⟩,
   fun x h => ⟨tTerr { Terrace.reset with g := x.1, highLoops := x.2.1, capHold := x.2.2.1, lowLoops := x.2.2.2 }, 3,
     by revert x; decide +kernel⟩,
   ⟨{ tState with pwr := { tState.pwr with capNext := some 400 } }, 400, by decide +kernel⟩,
   ⟨tBusy tState (tCmd 0x0901 [(24, 0, 400)]), { tImgCmd 0 with d := tCmd 0x0901 [(24, 0, 400)], part := 0xFF }, by decide +kernel⟩,
   ⟨tState, 2100001, by decide +kernel⟩,
   fun w h => ⟨tHost tState, 0, tCmd 0x0901 [(24, 0, w)], by revert w; unfold State.accepted; decide +kernel⟩,
   fun x h => ⟨{ tHost tState with grotto := { tState.grotto with slate := { Slate.default with oppAllowed := 8 } } }, 0,
     tCmd 0x0902 [(17, 0, x.1), (18, 0, x.2)], by revert x; unfold State.accepted; decide +kernel⟩,
   fun x h => ⟨tHost tState, 0, tCmd 0x0903 [(17, 0, 9), (20, 0, x.1), (22, 0, x.2)], by revert x; unfold State.accepted; decide +kernel⟩⟩

/-- The watch runs with misses; a window of the escalation count is open. -/
def tWatch (misses seen : Nat) (hold : Bool) (n : Nat) : State :=
  { tState with
    watch := { running := true, misses := misses, seen := seen, missStart := 999000000 }
    pwr := { tState.pwr with esc := some (900000000, n) }
    grotto := { tState.grotto with slate := { Slate.default with holdOnHang := hold } } }

/-- Terrace 1 above CRIT for 1 s, or the coolant outlet for 10 s. -/
def tHot (i since : Nat) : State :=
  { tState with
    clk := { tState.clk with tb := nsU 20000000000 }
    grotto := { tState.grotto with sensors := [(i, { Sensor.reset with since := some since, crit := true })] } }

theorem witness_SensorsAndWatch :
    (∀ n ∈ [1, 21], ∃ (s : State), 4 ≤ s.grotto.powerStage ∧ s.grotto.stage ≠ 4 ∧ s.grotto.restart = none ∧
      (∀ c ∈ s.host.inProgress, ¬ (dOpcode c.d = 0x0902 ∧ c.started = true)) ∧ s.mode ≠ .withdrawn ∧ s.pwr.withdrawing = 0 ∧
      (s.sensor n).crit = true ∧ (s.sensor 2).crit = false) ∧
    (∃ (s : State), s.grotto.stage = 3 ∧ s.pwr.held = false) ∧
    (∀ x ∈ [(0, 7), (0, 0), (2, 0), (3, 0)], ∀ hold ∈ [true, false], ∀ n ∈ [1, 16], ∃ (s : State), s.watch.running = true ∧
      s.pwr.held = false ∧ s.grotto.restart = none ∧ s.pwr.resetting = none ∧ (s.watch.misses, s.watch.seen) = x ∧
      s.host.heartbeat = 0 ∧ s.grotto.slate.holdOnHang = hold ∧ s.pwr.esc = some (900000000, n) ∧ 1 < s.grotto.slate.escCount ∧
      s.grotto.slate.escCount ≤ 16) ∧
    (∃ (s : State) (t0 n : Nat), s.pwr.esc = some (t0, n)) :=
  ⟨fun n h => ⟨tHot n (nsU 10000000000), by revert n; decide +kernel⟩, ⟨tState, by decide +kernel⟩,
   fun x hx b hb n hn => ⟨tWatch x.1 x.2 b n, by revert x b n; decide +kernel⟩, ⟨tWatch 0 0 false 1, 900000000, 1, rfl⟩⟩


/-! ## Witnesses: resets and recovery -/

/-- A compute reset has begun, or has cleared compute. -/
def tReset (cleared : Bool) (s : State) : State :=
  { s with pwr := { s.pwr with resetting := some (9, 0), cleared := cleared } }

def tIdle : State := { tGraphS with coll := Coll.reset }

def dRun : BitVec 512 := tCmd 0x0402 [(16, 0, 1)]

/-- The launch of partition 1 was started by a command of PF0. -/
def tLaunched : State :=
  { tIdle with
    parts := [(1, { tPart with objects := [], launches := [(0, tLaunch)] })]
    host := { tIdle.host with inProgress := [{ tImgCmd 0 with d := dRun }], order := 8 } }

/-- Entry 65535 of the stream table is CLOSING. -/
def tClosing : State := { tIdle with streams := [(65535, 2)] }

theorem witness_ComputeResets :
    (∃ (s : State) (t0 : Nat) (code : BitVec 32), s.pwr.resetting = some (t0, code) ∧ s.pwr.cleared = false ∧ s.ctxs = [] ∧
      s.noneLeaving ∧ (∀ q ∈ s.parts, q.2.launches = []) ∧ s.host.inProgress = []) ∧
    (∃ (s : State) (t0 : Nat) (code : BitVec 32) (p h : Nat) (q : Part) (l : Launch) (c : Cmd),
      s.pwr.resetting = some (t0, code) ∧ s.pwr.cleared = false ∧ s.ctxs = [] ∧ s.noneLeaving ∧ s.parts = [(p, q)] ∧
      q.launches = [(h, l)] ∧ q.objects = [] ∧ s.coll.ops = [] ∧ s.coll.reshards = [] ∧ s.host.inProgress = [c] ∧
      s.launchCmd? p h = some c ∧ s.pwr.withdrawing = 0 ∧ c.drop = false ∧ c.session = none ∧ (s.mailbox c.fn).cqStalled = false ∧
      (s.mailbox c.fn).postedAddr = 0) ∧
    (∃ (s : State) (t0 n : Nat) (code : BitVec 32), s.pwr.resetting = some (t0, code) ∧ s.pwr.cleared = true ∧
      Tab.sorted s.streams = true ∧ s.pwr.reload = false ∧ eState (s.entry n) = 2) ∧
    (∀ w ∈ [0, 1, 2], ∀ reload ∈ [true, false], ∃ (s : State) (t0 : Nat) (code : BitVec 32), s.pwr.resetting = some (t0, code) ∧
      s.pwr.cleared = true ∧ (∀ e ∈ s.streams, eState e.2 ≠ 2) ∧ s.pwr.reload = reload ∧ s.imageOk 1 s.record.activeW = true ∧
      s.pwr.withdrawing = w ∧ ∀ c ∈ s.host.inProgress, dOpcode c.d ≠ 0x0B04 ∧ dOpcode c.d ≠ 0x0B06) ∧
    (∀ op ∈ [0x0B04, 0x0B06], ∃ (s : State) (t0 : Nat) (code : BitVec 32) (c : Cmd), s.pwr.resetting = some (t0, code) ∧
      s.pwr.cleared = true ∧ (∀ e ∈ s.streams, eState e.2 ≠ 2) ∧ s.pwr.reload = false ∧ s.pwr.withdrawing = 0 ∧
      s.host.inProgress = [c] ∧ dOpcode c.d = op ∧ c.started = true) :=
  ⟨⟨tReset false tIdle, 9, 0, by unfold State.noneLeaving; decide +kernel⟩,
   ⟨tReset false tLaunched, 9, 0, 1, 0, { tPart with objects := [], launches := [(0, tLaunch)] }, tLaunch, { tImgCmd 0 with d := dRun },
     by unfold State.noneLeaving; decide +kernel⟩,
   ⟨tReset true tClosing, 9, 65535, 0, by decide +kernel⟩,
   fun w hw r hr => ⟨{ tReset true tIdle with pwr := { (tReset true tIdle).pwr with withdrawing := w, reload := r } }, 9, 0, rfl, rfl,
     by revert w r; decide +kernel, rfl, imageOk_factory _ _ _ (by revert w r; decide +kernel) (by revert w r; decide +kernel), rfl,
     by revert w r; decide +kernel⟩,
   fun op h => ⟨tBusy (tReset true tIdle) (tCmd op []), 9, 0, { tImgCmd 0 with d := tCmd op [], part := 0xFF },
     by revert op; decide +kernel⟩⟩

/-- The module withdrew for heat, and sensor `i` reads `v` sixteenths of a degree. -/
def tWarm (cause i v : Nat) (s : State) : State :=
  { s with
    mode := .withdrawn
    pwr := { s.pwr with withdrawn := cause }
    grotto := { s.grotto with sensors := [(i, { Sensor.reset with valid := true, value := BitVec.ofNat 32 v })] } }

def dReturn : BitVec 512 := tCmd 0x0B06 []

/-- A reset command of cascade `n` waits, or the cascade's last self-check is under way. -/
def tCasc (n a b : Nat) : Cmd := { tImgCmd 0 with d := tCmd 0x0B05 [(17, 0, n)], part := 0xFF, a := a, b := b }

def tCascS (n a b : Nat) (s : State) : State := { s with host := { s.host with inProgress := [tCasc n a b], order := 8 } }

def tCheckRill : Rill :=
  { Rill.reset with array := { MxArray.reset with phase := .selfCheck }, vector := { VxEngine.reset with selfCheck := true } }

def tCheck (r : Nat) : State := { tIdle with rills := [(r, tCheckRill)] }

def tLost : Context := { tCtx with threads := [tInstrThread], slots := [], held := [] }

theorem witness_ResetsAndRecovery :
    (∀ x ∈ [(2, 7, 1520), (3, 21, 960)], ∃ (s : State) (fn : Nat) (d : BitVec 512), s.accepted pfNone fn d ∧ dRestZero d [] = true ∧
      s.pwr.withdrawn = x.1 ∧ (s.sensor x.2.1).valid = true ∧ (s.sensor x.2.1).value.toNat = x.2.2 ∧ s.grotto.slate.tempWarn = 95) ∧
    (∃ (s : State) (fn : Nat) (d : BitVec 512), s.accepted pfNone fn d ∧ dRestZero d [] = true ∧ s.pwr.withdrawn = 2 ∧
      (∀ i, i < 8 → (s.sensor i).valid = true → (s.sensor i).value.toInt < 16 * (s.grotto.slate.tempWarn : Int)) ∧
      ∀ q ∈ s.parts, q.2.state = 0) ∧
    (∃ (s : State) (fn : Nat) (d : BitVec 512) (p : Nat) (q : Part), s.accepted pfNone fn d ∧ dRestZero d [] = true ∧
      s.pwr.withdrawn = 1 ∧ s.parts = [(p, q)] ∧ q.state = 1 ∧ q.launches = [] ∧ q.objects = [] ∧
      (∀ e ∈ s.streams, eState e.2 = 0 ∨ ePart e.2 ≠ p) ∧ (∀ o ∈ s.coll.ops, o.part ≠ p) ∧ dOpcode d = 0x0B06 ∧
      (∀ e ∈ s.host.inProgress, dOpcode e.d ≠ 0x0102 ∧ dOpcode e.d ≠ 0x0103) ∧ s.noneLeaving) ∧
    (∃ (s : State) (fn : Nat) (d : BitVec 512), s.accepted pfNone fn d ∧ dRestZero d [(17, 0, 6)] = true ∧ dfld d 17 0 6 = 63) ∧
    (∃ (s : State) (n : Nat) (x : Cmd), n = 63 ∧ s.pwr.recovery = none ∧ s.cascadeCmd? n = some x ∧ x.a = 0 ∧ s.ctxs = []) ∧
    (∃ (s : State) (n : Nat) (x : Cmd) (k : Nat) (c : Context) (r f m : Nat) (l : Launch), s.pwr.recovery = none ∧
      s.cascadeCmd? n = some x ∧ x.a = 0 ∧ s.ctxs = [(k, c)] ∧ c.loc = .resident r f ∧ r / 16 = n ∧ c.tiles = [] ∧ c.slots = [] ∧
      c.held = [] ∧ s.launch? (keyPart k) c.launch = some l ∧ s.freeNumber (keyPart k) = some m) ∧
    (∃ (s : State) (r : Nat), r = 1023 ∧ s.resetCheck r = true ∧ s.cascadeCmd? (r / 16) = none ∧ s.getF (rlOutOfService r) = 0 ∧
      s.ctxs = [] ∧ ∀ q ∈ s.parts, q.2.launches = []) ∧
    (∀ b ∈ [0x7FFF, 0x7FFE], ∃ (s : State) (r : Nat) (c : Cmd), r = 1023 ∧ s.resetCheck r = true ∧ s.cascadeCmd? (r / 16) = some c ∧
      c.a ≠ 0 ∧ (setBits c.b (r % 16) 1 1 = 0xFFFF ↔ b = 0x7FFF)) ∧
    (∃ (s : State) (x : Recovery), s.pwr.recovery = some x) :=
  ⟨fun x h => ⟨tWarm x.1 x.2.1 x.2.2 tIdle, 0, dReturn, by revert x; unfold State.accepted; decide +kernel⟩,
   ⟨tWarm 2 7 1519 { tIdle with parts := [] }, 0, dReturn, by unfold State.accepted; decide +kernel⟩,
   ⟨tWarm 1 0 0 tIdle, 0, dReturn, 1, { tPart with objects := [], launches := [] },
     by unfold State.accepted State.noneLeaving; decide +kernel⟩,
   ⟨tIdle, 0, tCmd 0x0B05 [(17, 0, 63)], by unfold State.accepted; decide +kernel⟩,
   ⟨tCascS 63 0 0 tIdle, 63, tCasc 63 0 0, by decide +kernel⟩,
   ⟨tCascS 0 0 0 { tState with ctxs := [(65536, tLost)] }, 0, tCasc 0 0 0, 65536, tLost, 0, 0, 1, tLaunch, by decide +kernel⟩,
   ⟨tCheck 1023, 1023, by decide +kernel⟩,
   fun b h => ⟨tCascS 63 1 b (tCheck 1023), 1023, tCasc 63 1 b, by revert b; decide +kernel⟩,
   ⟨{ tState with pwr := { tState.pwr with recovery := some { scopes := [], start := 0, isUnion := true } } }, _, rfl⟩⟩


/-! ## Witnesses: debug block and registers -/

def anyIssuer : Issuer := ⟨false, some 0, false⟩

/-- `tData` with a counter record, a day record and an entry in the log; VF 1 has its mailbox too. -/
def tDebug : State :=
  ({ tData with
    dbg := { tData.dbg with records := [(1, [(1, 5), (2, 6)])] }
    pwr := { tData.pwr with days := [{ began := 1, total := 2, excluded := 3, lost := 4 }] }
    host := { tData.host with numVfs := 1, mailboxes := tData.host.mailboxes ++ [(1, tBox 0 false)] } }).raise kGrSlateNone 0xFFF

/-- A sampler of partition 1, or of all, in a ring of 8 KiB at the end of an object. -/
def tSampler (mode : Nat) : Sampler := { mode := mode, part := 1, period := 1024, ring := 0x9FE000, ringBytes := 8192 }

def tSample (mode ptr : Nat) (cleared : Tab (Nat × Tab Nat)) : State :=
  { tState with
    parts := [(1, { tPart with objects := [(0x600000, tObj 2 2)] })]
    dbg := { tState.dbg with samplers := [(1, tSampler mode)], rotors := [(1024, ptr)], cleared := cleared } }

def dCounters (set first count : Nat) : BitVec 512 :=
  tCmd 0x0A01 [(16, 0, 1), (17, 0, set), (20, 0, first), (22, 0, count), (24, 0, 0x40)]

def dSample (mode period ring n : Nat) : BitVec 512 :=
  tCmd 0x0A02 [(16, 0, 1), (17, 0, mode), (20, 0, period), (24, 0, ring), (32, 0, n)]

def dLog (n : Nat) : BitVec 512 := tCmd 0x0A04 [(24, 0, n), (26, 0, 1), (32, 0, 0x20)]

def dDump (sec ix off n : Nat) : BitVec 512 := tCmd 0x0A03 [(17, 0, sec), (18, 0, ix), (24, 0, 0x40), (32, 0, off), (36, 0, n)]

def tHeldS (b : Bool) : State := { tData with pwr := { tData.pwr with held := b } }

theorem witness_CountersAndSamples :
    (∃ (s : State) (fn : Nat) (d : BitVec 512), s.accepted anyIssuer fn d ∧ fn ≠ 0 ∧ dfld d 17 0 2 ≠ 0) ∧
    (∀ set ∈ [0, 1, 2], ∃ (s : State) (fn : Nat) (d : BitVec 512), s.accepted anyIssuer fn d ∧ fn = 0 ∧ dfld d 17 0 2 = set ∧
      dRestZero d [(16, 0, 4), (17, 0, 3), (20, 0, 16), (22, 0, 16), (24, 0, 64)] = true ∧ dfld d 24 0 64 % 64 = 0 ∧
      (set = 2 → dfld d 22 0 16 = 32 ∧ dfld d 20 0 16 = 0)) ∧
    (∃ (s : State) (fn : Nat) (d : BitVec 512), s.accepted vfPart fn d ∧
      dRestZero d [(16, 0, 4), (17, 0, 3), (20, 0, 32), (24, 0, 44), (32, 0, 64)] = true ∧ fn ≠ 0 ∧ dfld d 17 2 1 = 1) ∧
    (∀ x ∈ [(3, 0, 0, 0), (0, 0, 0, 0), (1, 1023, 0, 8192), (2, 9, 0, 8192), (1, 1024, 0, 8192), (2, 10, 0x9FF000, 8192),
        (2, 2 ^ 24, 0x9FE000, 8192), (1, 2 ^ 24 + 1, 0x9FE000, 8192), (1, 2 ^ 24, 0x9FD000, 8193), (1, 1024, 0x9FF000, 4096)],
      ∃ (s : State) (fn : Nat) (d : BitVec 512), s.accepted vfPart fn d ∧
      dRestZero d [(16, 0, 4), (17, 0, 3), (20, 0, 32), (24, 0, 44), (32, 0, 64)] = true ∧ fn = 0 ∧
      (dfld d 17 0 2, dfld d 20 0 32, dfld d 24 0 44, dfld d 32 0 64) = x ∧
      ((s.part (s.opPart vfPart fn d)).objAt (dfld d 24 0 44) = if x.2.2.1 = 0 then none else some (0x600000, tObj 2 2))) ∧
    (∃ (s : State) (r p : Nat) (x : Sampler), s.dbg.samplers.at? p = some x ∧ s.getF dgSampleEn = 1 ∧
      (s.part x.part).ringOk x.ring x.ringBytes = true ∧ x.mode = 1 ∧ r = 1023 ∧ s.pwr.held = false ∧ s.sampled r p = []) ∧
    (∀ ptr ∈ [0, 1, 2], ∃ (s : State) (r p hw f k : Nat) (x : Sampler) (c : Context) (h : Thread), s.dbg.samplers.at? p = some x ∧
      s.getF dgSampleEn = 1 ∧ (s.part x.part).ringOk x.ring x.ringBytes = true ∧ x.mode = 1 ∧ r < 1024 ∧ s.pwr.held = false ∧
      s.dbg.rotors.getD (p * 1024 + r) 0 = ptr ∧ s.hwThread r hw = some (f, k, c, h) ∧ hw ∈ s.sampled r p ∧
      ((ptr ≤ hw ∧ ∀ j ∈ s.sampled r p, j < ptr ∨ hw ≤ j) ∨ ∀ j ∈ s.sampled r p, j < ptr ∧ hw ≤ j)) ∧
    (∀ l ∈ [[], [(1, nsU 1000000000, [(1, 7)])], [(1, 8, [(1, 7)])]], ∃ (s : State) (p : Nat) (x : Sampler), s.dbg.samplers.at? p = some x ∧
      s.getF dgSampleEn = 1 ∧ (s.part x.part).ringOk x.ring x.ringBytes = true ∧ x.mode = 2 ∧
      s.dbg.cleared.at? p = (l.head?).map (fun y => y.2) ∧ s.now = nsU 1000000000) ∧
    (∀ n ∈ [1, 4096], ∃ (s : State) (fn : Nat) (d : BitVec 512), s.accepted vfNone fn d ∧
      dRestZero d [(20, 0, 32), (24, 0, 16), (26, 0, 4), (32, 0, 64)] = true ∧ dfld d 24 0 16 = n ∧ dfld d 32 0 64 % 32 = 0 ∧
      s.allEntries ≠ []) ∧
    (∃ (s : State) (fn : Nat) (d : BitVec 512), s.accepted pfNone fn d ∧ s.pwr.held = false) ∧
    (∀ x ∈ [(0, 0, 0x1000), (1, 0, 0x40000), (2, 1023, 0x20000), (3, 1023, 0x100000), (4, 0, 0x10000), (5, 0, 0x20000)],
      ∀ e ∈ [0, 64], ∃ (s : State) (fn : Nat) (d : BitVec 512), s.accepted pfNone fn d ∧ s.pwr.held = true ∧
      dRestZero d [(17, 0, 8), (18, 0, 16), (24, 0, 64), (32, 0, 32), (36, 0, 32)] = true ∧ dfld d 17 0 8 = x.1 ∧
      dfld d 18 0 16 = x.2.1 ∧ dfld d 36 0 32 = 128 ∧ dfld d 32 0 32 + 128 = x.2.2 + e) :=
  ⟨⟨{ tDebug with mode := .service }, 1, tCmd 0x0A01 [(17, 0, 1)], by unfold State.accepted; decide +kernel⟩,
   fun set h => ⟨tDebug, 0, dCounters (set + 4) 0 32, by revert set; unfold State.accepted; decide +kernel⟩,
   ⟨{ tDebug with mode := .service }, 1, tCmd 0x0A02 [(17, 0, 4)], by unfold State.accepted; decide +kernel⟩,
   fun x h => ⟨tDebug, 0, dSample x.1 x.2.1 x.2.2.1 x.2.2.2, by revert x; unfold State.accepted; decide +kernel⟩,
   ⟨tSample 1 0 [], 1023, 1, tSampler 1, by decide +kernel⟩,
   fun ptr h => ⟨tSample 1 ptr [], 0, 1, if ptr = 1 then 1 else 0, 0, 65536, tSampler 1, tCtx,
     if ptr = 1 then { tInstrThread with hw := 1, st := .waitTile, wait := .steal 4 } else tInstrThread, by revert ptr; decide +kernel⟩,
   fun l h => ⟨tSample 2 0 l, 1, tSampler 2, by revert l; decide +kernel⟩,
   fun n h => ⟨tDebug, 0, dLog n, by revert n; unfold State.accepted; decide +kernel⟩,
   ⟨tHeldS false, 0, dDump 0 0 0 64, by unfold State.accepted; decide +kernel⟩,
   fun x h e he => ⟨tHeldS true, 0, dDump x.1 x.2.1 (x.2.2 + e - 128) 128, by revert x e; unfold State.accepted; decide +kernel⟩⟩

theorem witness_RegisterAccesses :
    (∃ (fn a : Nat), fn = 0 ∧ a = 0x080013000000) ∧ (∃ (fn a : Nat), fn ≠ 0 ∧ a + 8 = mbReg fn 0) ∧ (∃ (f : Nat), f < 16 ∧ f = 15) ∧
    (∃ (n : Nat), n < 1024 ∧ n = 1023) :=
  ⟨⟨0, _, rfl, rfl⟩, ⟨1, mbReg 1 0 - 8, by decide +kernel⟩, ⟨15, by decide⟩, ⟨1023, by decide⟩⟩

theorem witness_StepKeepsOperatingPoints : ∃ (s t : State), s.pointsLegal ∧ step s = .next t :=
  ⟨{ tTerr { Terrace.reset with running := 1, ceiling := 2 } with pending := [.oppStep 3] }, _,
    by unfold State.pointsLegal; decide +kernel, rfl⟩


/-! ## Tests from published values -/

/-- CRC-32C of the nine digits, the check value of the algorithm that R357 names. -/
theorem test_crc32c : crc32c [0x31, 0x32, 0x33, 0x34, 0x35, 0x36, 0x37, 0x38, 0x39] = 0xE3069283 := by decide +kernel

/-- CRC-32 of IEEE 802.3 of the nine digits (R456). -/
theorem test_crc32 : crc32 [0x31, 0x32, 0x33, 0x34, 0x35, 0x36, 0x37, 0x38, 0x39] = 0xCBF43926 := by decide +kernel

/-- CRC-16/CCITT of the nine digits, from 0xFFFF (R465). -/
theorem test_crc16 : crc16Go 0xFFFF [0x31, 0x32, 0x33, 0x34, 0x35, 0x36, 0x37, 0x38, 0x39] = 0x29B1 := by decide +kernel

/-- SHA-256 of "abc" (FIPS 180-4). -/
theorem test_sha256 : sha256 [0x61, 0x62, 0x63] =
    0xba7816bf8f01cfea414140de5dae2223b00361a396177a9cb410ff61f20015ad := by decide +kernel

/-- The signature of a slate verifies under its owner's key, and under no other. -/
theorem test_slate_signature : slateSigOk (some tOwner) tSlate5 = true ∧ slateSigOk (some (tOwner + 1)) tSlate5 = false ∧
    slateSigOk none tSlate5 = false := by decide +kernel

/-- A step takes the command at the front of the queue and leaves the rest. -/
theorem test_step_queue : (step { State.reset with pending := [.perstN true, .heartbeat] } matches .next _) = true ∧
    (match step { State.reset with pending := [.perstN true, .heartbeat] } with
      | .next t => decide (t.pending = [.heartbeat]) && t.host.perst
      | _ => false) = true := by decide +kernel

end Sys2Proof.Tests
end

section
/-! PROOFS. The guard of an instruction (R93), and the count of instructions issued (R643, R644): the fault of a thread
leaves it alone, the issue of an instruction that executes adds to it. -/

namespace Sys2Proof.Machine

open Sys2Proof

/-! ## The guard (R93) -/

theorem Issue.guard_eq_pred (x : Issue) (h : Thread) : x.guard h = xor (h.pred x.pg.toNat) x.pn := by
  have hlt : x.pg.toNat % 8 = x.pg.toNat := Nat.mod_eq_of_lt x.pg.isLt
  have h0 : x.pg.toNat = 0 ↔ x.pg = 0 := by rw [BitVec.toNat_eq]; rfl
  simp only [Issue.guard, Thread.pred, hlt, h0]

theorem Issue.guard_of_pg_zero (x : Issue) (h : Thread) (hp : x.pg = 0) : x.guard h = !x.pn := by
  rw [Issue.guard, if_pos hp, Bool.true_xor]

/-! ## The count of instructions issued (R643, R644) -/

/-- Event 2 of the module's record: instructions issued. -/
def State.issueCount (s : State) : Nat := (s.dbg.records.getD 16 []).getD 2 0

theorem State.issueCount_of_dbg {s t : State} (h : t.dbg = s.dbg) : t.issueCount = s.issueCount := by
  unfold State.issueCount; rw [h]

theorem State.issueCount_credit (s : State) (p e n : Nat) :
    (s.credit p e n).issueCount = if e = 2 then (s.issueCount + n) % 2 ^ 63 else s.issueCount := by
  have h16 : (s.credit p e n).dbg.records.getD 16 [] = (bumpRecord s.dbg.records 16 e n).getD 16 [] := by
    simp only [State.credit]
    split
    · rw [bumpRecord, Tab.getD_put, if_neg (by omega)]
    · rfl
  unfold State.issueCount
  rw [h16, bumpRecord, Tab.getD_put, if_pos rfl, Tab.getD_put]
  by_cases he : e = 2
  · rw [if_pos he, if_pos he.symm, he]
  · rw [if_neg he, if_neg (Ne.symm he)]

theorem State.issueCount_credit_other (s : State) (p e n : Nat) (h : e ≠ 2) :
    (s.credit p e n).issueCount = s.issueCount := by
  rw [State.issueCount_credit, if_neg h]

/-- What every step of a fold leaves unchanged, the fold does. -/
theorem State.foldl_keeps {α β : Type} (g : State → β) (f : State → α → State) (hf : ∀ s x, g (f s x) = g s)
    (l : List α) (s : State) : g (l.foldl f s) = g s := by
  induction l generalizing s with
  | nil => rfl
  | cons x l ih => rw [List.foldl_cons, ih, hf]

/-! ## Operations that leave every record as it is -/

@[simp] theorem State.updThread_dbg (s : State) (k t : Nat) (f : Thread → Thread) : (s.updThread k t f).dbg = s.dbg := by
  unfold State.updThread
  split
  · split <;> rfl
  · rfl

@[simp] theorem State.finish_dbg (s : State) (c : Cmd) (status : W32) (v : W64) : (s.finish c status v).dbg = s.dbg := by
  unfold State.finish
  simp only
  split
  · rfl
  · split
    · split <;> rfl
    · rw [State.post_eq, State.dropCmd_dbg]

@[simp] theorem State.collSend_dbg (s : State) (o : CollOp) (kind rank seq : Nat) (data : List Byte) :
    (s.collSend o kind rank seq data).dbg = s.dbg := by
  unfold State.collSend; split <;> rfl

@[simp] theorem State.tellAbort_dbg (s : State) (o : CollOp) : (s.tellAbort o).dbg = s.dbg := by
  unfold State.tellAbort
  split
  · exact State.foldl_keeps State.dbg _ (fun s r => s.collSend_dbg o 4 r 0 []) _ _
  · rfl

@[simp] theorem State.retirePlace_dbg (s : State) (x : Place) : (s.retirePlace x).dbg = s.dbg := by
  unfold State.retirePlace
  split
  · rfl
  · simp only
    split
    · rw [State.addF_dbg]
    · rfl

@[simp] theorem State.freePlace_dbg (s : State) (x : Place) : (s.freePlace x).dbg = s.dbg := by
  unfold State.freePlace
  split
  · rfl
  · split
    · rfl
    · split
      · exact s.retirePlace_dbg x
      · rfl

@[simp] theorem State.forgetPage_dbg (s : State) (p n : Nat) : (s.forgetPage p n).dbg = s.dbg := rfl

@[simp] theorem State.freeNow_dbg (s : State) (p b : Nat) : (s.freeNow p b).dbg = s.dbg := by
  unfold State.freeNow
  split
  · rfl
  · simp only [State.setPart_dbg]
    rw [State.foldl_keeps State.dbg _ (fun u n => u.forgetPage_dbg p n),
      State.foldl_keeps State.dbg _ (fun u x => State.foldl_keeps State.dbg _ State.freePlace_dbg _ u)]
    refine State.foldl_keeps State.dbg _ (fun u x => ?_) _ _
    split
    · split <;> rfl
    · rfl

@[simp] theorem State.freeObj_dbg (s : State) (p b : Nat) : (s.freeObj p b).dbg = s.dbg := by
  unfold State.freeObj
  split
  · rfl
  · split
    · rfl
    · exact s.freeNow_dbg p b

@[simp] theorem State.endWaiters_dbg (s : State) (p h : Nat) (status : W32) : (s.endWaiters p h status).dbg = s.dbg :=
  State.foldl_keeps State.dbg _ (fun s c => s.finish_dbg c status 0) _ _

@[simp] theorem State.discardQueued_dbg (s : State) (k r : Nat) : (s.discardQueued k r).dbg = s.dbg := rfl

@[simp] theorem State.freeArray_dbg (s : State) (k r : Nat) : (s.freeArray k r).dbg = s.dbg := by
  unfold State.freeArray; simp only; split <;> rfl

/-! ## Operations that count other events -/

@[simp] theorem State.abandonPass_issueCount (s : State) (r : Nat) : (s.abandonPass r).issueCount = s.issueCount := by
  unfold State.abandonPass
  simp only
  split
  · rw [State.issueCount_of_dbg (State.setRill_dbg _ _ _), State.creditRill, State.issueCount_credit_other _ _ _ _ (by decide),
      State.issueCount_of_dbg (State.addF_dbg _ _ _)]
  · rfl

/-- Stopping a context's pass and discarding what it has queued. -/
theorem State.stopEngines_issueCount (s : State) (k r : Nat) :
    ((if s.runsPass k r then s.abandonPass r else s).discardQueued k r).issueCount = s.issueCount := by
  rw [State.issueCount_of_dbg (State.discardQueued_dbg _ _ _)]
  split
  · exact s.abandonPass_issueCount r
  · rfl

@[simp] theorem State.evictCtx_issueCount (s : State) (k : Nat) : (s.evictCtx k).issueCount = s.issueCount := by
  unfold State.evictCtx
  split
  · rfl
  · split
    · rfl
    · next r _ _ => exact (State.issueCount_of_dbg (State.freeArray_dbg _ k r)).trans (s.stopEngines_issueCount k r)
    · rfl
    · rfl

@[simp] theorem State.dropCtx_issueCount (s : State) (k : Nat) : (s.dropCtx k).issueCount = s.issueCount := by
  unfold State.dropCtx
  split
  · rfl
  · simp only
    split <;> exact s.evictCtx_issueCount k

@[simp] theorem State.endCtx_issueCount (s : State) (k : Nat) : (s.endCtx k).issueCount = s.issueCount := by
  unfold State.endCtx
  split
  · rfl
  · split
    · next r _ =>
      split
      · exact s.stopEngines_issueCount k r
      · exact s.dropCtx_issueCount k
    · exact s.dropCtx_issueCount k

@[simp] theorem State.abortOps_issueCount (s : State) (p h : Nat) : (s.abortOps p h).issueCount = s.issueCount := by
  unfold State.abortOps
  refine (State.foldl_keeps State.issueCount _ (fun u o => ?_) _ _).trans
    (State.foldl_keeps State.issueCount _ (fun u o => ?_) _ _)
  · split
    · exact State.issueCount_of_dbg (State.freeObj_dbg _ _ _)
    · rfl
  · rw [State.issueCount_credit_other _ _ _ _ (by decide), State.issueCount_of_dbg (State.addF_dbg _ _ _)]
    split
    · rfl
    · exact State.issueCount_of_dbg (u.tellAbort_dbg o)

@[simp] theorem State.endLaunch_issueCount (s : State) (p h : Nat) (status : W32) (v : W64) :
    (s.endLaunch p h status v).issueCount = s.issueCount := by
  unfold State.endLaunch
  split
  · rfl
  · next l _ =>
    simp only
    generalize hw : State.endWaiters _ p h status = w
    have hkeep : w.issueCount = s.issueCount := by
      rw [← hw, State.issueCount_of_dbg (State.endWaiters_dbg _ _ _ _), State.issueCount_of_dbg (State.freeObj_dbg _ _ _),
        State.issueCount_of_dbg (State.setPart_dbg _ _ _), State.abortOps_issueCount]
      exact State.foldl_keeps State.issueCount _ State.endCtx_issueCount _ _
    rw [← hkeep]
    split
    · exact State.issueCount_of_dbg (State.finish_dbg _ _ _ _)
    · rfl

/-- The fault of a thread (R126) counts no instruction as issued. -/
theorem State.jobFault_issueCount (s : State) (k t : Nat) (code : W32) : (s.jobFault k t code).issueCount = s.issueCount := by
  unfold State.jobFault
  split
  · rfl
  · next c _ =>
    simp only
    rw [State.endLaunch_issueCount]
    generalize hu : s.updThread k t _ = u
    have hkeep : u.issueCount = s.issueCount := by
      rw [← hu]; exact State.issueCount_of_dbg (State.updThread_dbg _ _ _ _)
    rw [← hkeep]
    split
    · rw [State.stopEngines_issueCount]; split <;> rfl
    · split <;> rfl

/-- Raising a cause counts no instruction as issued. -/
theorem State.told_issueCount {u v : State} {c : Cause} {inst : Nat} (h : u.told v c inst) : v.issueCount = u.issueCount := by
  obtain ⟨-, -, -, hv⟩ := h
  rw [hv]; rfl

/-! ## O6: a misaligned access counts as an instruction issued -/

/-- A `ld.d` at address 5 that its thread issues: the access is misaligned, and the instruction is counted. -/
theorem misalignedLoad_issueCount :
    (Tests.tState.lsIssue (Tests.tIssue 1 1 0 false 0) 3 true).issueCount = 1 ∧ Tests.tState.issueCount = 0 := by
  decide +kernel

end Sys2Proof.Machine

section

open Sys2Proof Sys2Proof.Machine

/-- Settles O5: every row of a rill instruction is an issue of its thread, and an issue whose guard is false goes by. -/
theorem falseGuardRetires : Obligations.FalseGuardRetires := by
  unfold Obligations.FalseGuardRetires
  intro s x r c h hi
  refine ⟨Issue.guard_eq_pred x h, Issue.guard_of_pg_zero x h, fun hg b p hp hlegal => ?_⟩
  obtain ⟨f, eff, hexec, hf⟩ := issueRows_issue s x b p hp
  exact ⟨_, hexec, s.issue_guarded x r c h f eff hi (by rw [hf, hlegal]; rfl) hg⟩

/-- Refutes O6: an illegal word faults before it counts as issued, but a misaligned LS access faults as the effect of an
instruction that executes, so it is counted as issued (R644) as well: entry 2 of the module's record goes from 0 to 1.
The statement allows nothing but the cause and the fault of the thread (R126), and neither counts an instruction.  The
counterexample is `ld.d` at address 5. -/
theorem not_issueFaults : ¬ Obligations.IssueFaults := by
  unfold Obligations.IssueFaults
  intro hall
  have hi := Tests.tState_canIssue 1 1 0 false 0
  obtain ⟨-, -, hls⟩ := hall _ _ _ _ _ hi
  obtain ⟨hmis, -⟩ := hls (by decide) true (.ldD, 3) (by simp [lsRows]) (by decide)
  obtain ⟨u, v, hu, -, -, htold, hexec⟩ := hmis (by decide)
  have hrun : Tests.tState.lsIssue (Tests.tIssue 1 1 0 false 0) 3 true = v.jobFault _ _ _ := Host.Outcome.next.inj hexec
  have hcount : u.issueCount = Tests.tState.issueCount := by rw [hu]; rfl
  obtain ⟨hafter, hbefore⟩ := misalignedLoad_issueCount
  rw [hrun, State.jobFault_issueCount, State.told_issueCount htold, hcount, hbefore] at hafter
  exact absurd hafter (by decide)

end
end
